-- ==== Sys2Proof/Word.lean ====
section
/-! DEFINITION. The plainest types of the model: bytes, register words, times, and sparse tables of
numbered things (function 5, head 3, fence 17 ...). Their operations stand in Machine/Bits.lean. -/

namespace Sys2Proof

/-- One byte. -/
abbrev Byte := BitVec 8

/-- A register word (R10: all registers are 32 bits wide). -/
abbrev Word := BitVec 32

/-- An instant of device time, in nanoseconds from t0 (R35). -/
abbrev Time := Nat

/-- A sparse table: an entry that is not listed has the value its reader names as the default,
which is the value at reset. -/
abbrev Tbl (α : Type) := List (Nat × α)

end Sys2Proof
end

