-- ==== Sys2Proof/Syntax.lean ====
section
/-! DEFINITION. The commands the block takes: one constructor of `Instr` for each row of
spec/opcode_table.json, and the operand structures they carry. `t` is the device time (R35, R41) at
which the command falls. What only the outside knows (a trained link, a measured temperature, a frame
on a wire, the result of a read of an external part) is an operand. -/

namespace Sys2Proof

/-- An access through a BAR of a function (R10, R11, R519): with `bar2` false `off` is the offset in PF BAR 0 for FN 0
and 1 and in VF BAR 0 (the function page) for FN 2-63; with `bar2` true it is an offset in BAR 2, the function's memory
(R56, R57, R366). `size` is the access width in bytes. With `watch` true the Watch island itself writes, at an offset of the
MNT window (R154, Table 13.1). -/
structure Access where
  fn   : Fin 64
  off  : Nat
  size : Nat
  val  : Word
  bar2 : Bool := false
  watch : Bool := false
  deriving DecidableEq, Repr

/-- How a write reaches a hardware lock: through the FAB window of a PF (R55), or elsewhere (a function page, an internal
agent) in the normal or the secure world (R519). -/
inductive LockPath
  | window
  | normal
  | secure
  deriving DecidableEq, Repr

/-- A command of a submission ring as the queue processors start it (Table 02.4, R68): function, local
queue, the words of its descriptors in order, and the bytes of host memory that its payload names
(used by SAFETY_LIST_UPDATE only). -/
structure Cmd where
  fn    : Fin 64
  q     : Fin 16
  words : List Word
  data  : List Byte
  deriving DecidableEq, Repr

/-- The disturbance a fault puts on the four line CRCs of a renderer pair (R218): zero is no fault. -/
structure PassFault where
  mainA  : Word := 0
  checkA : Word := 0
  mainB  : Word := 0
  checkB : Word := 0
  deriving DecidableEq, Repr

/-- What the sweeps over a memory channel found (R337, R338): for each byte lane and each reference level the taps at
which the pattern passed (bit n for tap n; the hardware sweep has one level, the firmware's sixteen), whether step 2
passed, whether the comparator run of Table 08.3 passed, and the capacity found, in GiB. -/
structure TrainResult where
  rd         : Vector (List (BitVec 256)) 4
  wr         : Vector (List (BitVec 256)) 4
  step2      : Bool
  comparator : Bool
  capacity   : Nat
  deriving DecidableEq, Repr

/-- One memory request as a bank queue holds it (R350, R352, R360); `wback` marks a write-back of the memory-side
cache. -/
structure MemReq where
  id     : Nat
  source : Nat
  secure : Bool
  write  : Bool
  wback  : Bool
  addr   : Nat
  bank   : Fin 16
  row    : Nat
  issue  : Time
  data   : List Byte
  deriving DecidableEq, Repr

/-- A CSI-2 packet header (R387, R388). -/
structure CsiHeader where
  vc        : Fin 16
  dtype     : Fin 64
  eccSingle : Bool
  eccDouble : Bool
  deriving DecidableEq, Repr

/-- A received Ethernet frame (R411, R423, R424): `len` counts the FCS, `payload` is what follows the
EtherType with VLAN tags and R-tag removed, `rtag` the R-tag sequence number. -/
structure EthFrame where
  len     : Nat
  fcsOk   : Bool
  macsec  : Bool
  macsecOk : Bool
  dst     : Nat
  vid     : Nat
  pcp     : Fin 8
  rtag    : Option Nat
  payload : List Byte
  deriving DecidableEq, Repr

/-- A received CAN frame (R267, R435). -/
structure CanFrame where
  id      : Nat
  ide     : Bool
  remote  : Bool
  payload : List Byte
  deriving DecidableEq, Repr

/-! ### The configuration image (Table 06.7, R599, R638, R643) -/

/-- A grant record, in the fields of Table 02.10; a PF grant record has the same layout (R650). -/
structure Grant where
  fn         : Nat := 0
  queues     : Nat := 0
  mpMask     : Nat := 0
  fences     : Nat := 0
  chdShare   : Nat := 0
  chdCtx     : Nat := 0
  headOwn    : Nat := 0
  layerRight : Nat := 0
  vectors    : Nat := 0
  codec      : Nat := 0
  csiMask    : Nat := 0
  hapticMask : Nat := 0
  tpMask     : Nat := 0
  scMask     : Nat := 0
  slotMask   : Nat := 0
  ainMask    : Nat := 0
  aoutMask   : Nat := 0
  netQueues  : Nat := 0
  filters    : Nat := 0
  deriving DecidableEq, Repr

/-- What the image gives a safety head (R116, R600, R637). -/
structure SafetyHeadCfg where
  head     : Fin 12
  partner  : Fin 12
  mode     : Fin 64
  rate     : Fin 8
  lanes    : Fin 8
  lvdsDual : Bool
  blFloor  : Fin 4096
  deriving DecidableEq, Repr

/-- A mapping entry (Table 06.2). -/
structure MapEntry where
  valid      : Bool
  source     : Fin 4
  ide        : Bool
  signal     : Fin 256
  id         : Nat
  byteOff    : Nat
  bitOff     : Fin 8
  width      : Nat
  signed     : Bool
  bigEndian  : Bool
  e2e        : Bool
  scaleNum   : Int
  scaleShift : Fin 32
  offset     : Int
  crcOff     : Nat
  seqOff     : Nat
  seqWidth   : Fin 2
  maxStep    : Nat
  dataId     : Nat
  deriving DecidableEq, Repr

/-- An alarm rule (Table 06.4). -/
structure AlarmRule where
  signal   : Fin 256
  test     : Fin 8
  priority : Fin 4
  latching : Bool
  staleAct : Fin 4
  almout   : Bool
  ackMask  : Fin 16
  set      : Int
  clear    : Int
  onDelay  : Nat
  effect   : Fin 128
  channel  : Fin 8
  deriving DecidableEq, Repr

/-- A tone generator's settings (Table 06.7); the level is the peak as a Q1.31 value. -/
structure ToneCfg where
  freq  : Nat
  level : Nat
  onMs  : Nat
  offMs : Nat
  deriving DecidableEq, Repr

/-- A haptic channel's declarations (chapter 12, Haptic channels), in mV, 0.1 Hz and ms. -/
structure HapticCfg where
  vsup  : Nat
  vpeak : Nat
  vrms  : Nat
  f0    : Nat
  maxOn : Nat
  deriving DecidableEq, Repr

/-- A self-capacitance object (R488): kind 1 key, 2 slider, 3 wheel, and its electrodes. -/
structure ScObjCfg where
  kind       : Fin 4
  electrodes : List (Fin 48)
  deriving DecidableEq, Repr

/-- A stream filter (Table 10.3). -/
structure StreamFilter where
  valid      : Bool := false
  prioEn     : Bool := false
  prio       : Nat := 0
  vid        : Nat := 0
  dst        : Nat := 0
  maxSdu     : Nat := 0
  portMask   : Nat := 0
  recovery   : Nat := 0
  recoveryEn : Bool := false
  fn         : Nat := 0
  netq       : Nat := 0
  deriving DecidableEq, Repr

/-- A P-384 public key of the secure identity table and the FNs it may authenticate. -/
structure SecureKey where
  x     : Nat
  y     : Nat
  fnMask : Nat
  deriving DecidableEq, Repr

/-- The configuration image as the Watch island loads it (R599). -/
structure Image where
  version      : Nat
  safetyFn     : Fin 64
  takeoverMs   : Nat
  handbackMs   : Nat
  bootPageMs   : Nat
  sysAckMask   : Fin 16
  tones        : Vector ToneCfg 4
  safetyHeads  : List SafetyHeadCfg
  fallback     : List (Nat × Byte)
  mapping      : List (Nat × MapEntry)
  signals      : List (Nat × Nat)
  rules        : List (Nat × AlarmRule)
  alarmRoutes  : List (Fin 4 × Fin 96 × Nat)
  alarmTdm     : List (Fin 4 × Word)
  vfPort       : List (Nat × Bool)
  pfGrant      : Vector Grant 2
  pfWrite      : Vector (List Nat) 2
  secureKeys   : List SecureKey
  autoRecoverMs : Nat
  standbySmbus : Bool
  wakeMask     : Fin 16
  throttleC    : Nat
  dtSource     : Fin 4
  canListenOnly : Vector Bool 2
  canNominal   : Vector Nat 2
  canData      : Vector Nat 2
  pcieSris     : Vector Bool 2
  macsecReq    : List Nat
  e9Filters    : List (Nat × StreamFilter)
  recoveryHist : List (Nat × Nat)
  haptics      : List (Nat × HapticCfg)
  scObjects    : List (Nat × ScObjCfg)
  deriving DecidableEq, Repr

/-- What the ageing record holds for an island (R590), in mV and MHz. -/
structure AgeRec where
  vReq : Nat
  top  : Nat
  deriving DecidableEq, Repr

/-- The commands of the block: one constructor per row of spec/opcode_table.json, in its order. -/
inductive Instr where
  | registerWrite (t : Time) (a : Access)
  | islResetReq (t : Time) (fn : Fin 64) (isl : Fin 16)
  | islandRelease (t : Time) (isl : Fin 16)
  | dtLoRead (t : Time) (ini : Fin 128)
  | dtSourceWrite (t : Time) (ini : Fin 128) (src : Fin 4)
  | timeBusRound (t : Time)
  | sqDoorbell (t : Time) (fn : Fin 64) (q : Fin 16) (w : Word)
  | cqDoorbell (t : Time) (fn : Fin 64) (q : Fin 16) (w : Word)
  | queueEnable (t : Time) (fn : Fin 64) (q : Fin 16) (cfg : Word)
  | queueDisable (t : Time) (fn : Fin 64) (q : Fin 16) (cfg : Word)
  | featuresOk (t : Time) (fn : Fin 64)
  | featureDecision (t : Time) (fn : Fin 64)
  | waitFenceMet (t : Time) (fn : Fin 64) (q : Fin 16)
  | waitTimeout (t : Time) (fn : Fin 64) (q : Fin 16)
  | irqCoalesceTimeout (t : Time) (fn : Fin 64) (q : Fin 16)
  | nop (t : Time) (c : Cmd)
  | fenceSignal (t : Time) (c : Cmd)
  | fenceWait (t : Time) (c : Cmd)
  | vfCreate (t : Time) (c : Cmd)
  | vfQuiesce (t : Time) (c : Cmd)
  | quiesceTimeout (t : Time) (fn : Fin 64)
  | quiesceComplete (t : Time) (fn : Fin 64)
  | vfDestroy (t : Time) (c : Cmd)
  | vfRelease (t : Time) (c : Cmd)
  | poolQuery (t : Time) (c : Cmd)
  | partitionCreate (t : Time) (c : Cmd)
  | scrub (t : Time) (c : Cmd)
  | secureVfRequest (t : Time) (c : Cmd)
  | secureAuthTimeout (t : Time) (fn : Fin 64)
  | flr (t : Time) (fn : Fin 64)
  | pfFlr (t : Time) (pf : Fin 2)
  | sriovVfDisable (t : Time) (port : Fin 2)
  | perstAssert (t : Time) (port : Fin 2)
  | perstDeassert (t : Time) (port : Fin 2)
  | partitionFillComplete (t : Time) (mp : Fin 16)
  | headConfig (t : Time) (c : Cmd)
  | headConfigApply (t : Time) (h : Fin 12)
  | frameStart (t : Time) (h : Fin 12) (loopOk : Bool)
  | frameStartAbsent (t : Time) (h : Fin 12)
  | blankingStart (t : Time) (h : Fin 12) (cmpOk : Bool)
  | latch (t : Time) (h : Fin 12)
  | linkTrainingResult (t : Time) (h : Fin 12) (ok : Bool)
  | linkTrainingTimeout (t : Time) (h : Fin 12)
  | hpdRise (t : Time) (h : Fin 12) (sinkRate : Fin 8) (sinkLanes : Fin 8)
  | hpdUnplug (t : Time) (h : Fin 12)
  | irqHpd (t : Time) (h : Fin 12) (lockLost : Bool)
  | tailLine (t : Time) (h : Fin 12) (y : Nat) (ready : Nat) (fault : Word)
  | underrunClr (t : Time) (ini : Fin 128) (h : Fin 12) (w : Word)
  | gammaDataWrite (t : Time) (ini : Fin 128) (h : Fin 12) (w : Word)
  | gammaCommit (t : Time) (ini : Fin 128) (h : Fin 12)
  | nightWrite (t : Time) (ini : Fin 128) (h : Fin 12) (night : Bool)
  | pwmPeriodEnd (t : Time) (h : Fin 12)
  | auxStart (t : Time) (ini : Fin 128) (h : Fin 12)
  | auxReply (t : Time) (h : Fin 12) (reply : Fin 3) (data : List Byte)
  | auxTimeout (t : Time) (h : Fin 12)
  | frameDtLoRead (t : Time) (ini : Fin 128) (h : Fin 12)
  | flip (t : Time) (c : Cmd)
  | flipTimeout (t : Time) (h : Fin 12)
  | layerFetch (t : Time) (slot : Fin 64)
  | safetyListUpdate (t : Time) (c : Cmd)
  | storeScrub (t : Time)
  | safetyLineRender (t : Time) (h : Fin 12) (y : Nat) (d : PassFault)
  | rendererRebuildDone (t : Time) (pair : Fin 2) (b : Bool)
  | wlHeartbeat (t : Time) (fn : Fin 64) (w : Word)
  | takeoverTimeout (t : Time)
  | wlConfirm (t : Time) (fn : Fin 64) (w : Word)
  | handbackLimitExpiry (t : Time)
  | telegramAccept (t : Time) (entry : Fin 512) (payload : List Byte) (stamp : Time)
  | signalStale (t : Time) (sig : Fin 256)
  | ruleEvaluation (t : Time)
  | toneChange (t : Time)
  | ackinFall (t : Time) (pin : Fin 4)
  | ackinPress (t : Time) (pin : Fin 4)
  | ackinStuck (t : Time) (pin : Fin 4)
  | ackinRelease (t : Time) (pin : Fin 4)
  | wlAck (t : Time) (fn : Fin 64) (w : Word)
  | hapticAlarmRepeat (t : Time) (rule : Fin 128)
  | wlStandby (t : Time) (fn : Fin 64) (w : Word)
  | gfxSubmit (t : Time) (c : Cmd)
  | computeSubmit (t : Time) (c : Cmd)
  | pipelineCompile (t : Time) (c : Cmd)
  | copy (t : Time) (c : Cmd)
  | sparseBind (t : Time) (c : Cmd)
  | submissionComplete (t : Time) (ctx : Fin 64)
  | waitMemMatch (t : Time) (ctx : Fin 64)
  | waitMemTimeout (t : Time) (ctx : Fin 64)
  | shareWindow (t : Time)
  | deadlineEvaluation (t : Time)
  | preemptSaveDone (t : Time) (ctx : Fin 64)
  | channelTrainingDone (t : Time) (ch : Fin 8) (r : TrainResult)
  | wckOscTrack (t : Time) (ch : Fin 8) (rd : Vector (Fin 256) 4) (wr : Vector (Fin 256) 4)
  | bankRefresh (t : Time) (ch : Fin 8) (bank : Fin 16) (postpone : Bool)
  | pageIdleClose (t : Time) (ch : Fin 8) (bank : Fin 16)
  | fabricTimeout (t : Time) (req : Nat)
  | channelFreeze (t : Time) (ch : Fin 8) (r : MemReq)
  | chRecover (t : Time) (fn : Fin 64) (ch : Fin 8) (w : Word)
  | autoRecoverExpiry (t : Time) (ch : Fin 8)
  | cacheLineLost (t : Time) (line : Nat)
  | mpLostClr (t : Time) (fn : Fin 64) (w : Word)
  | scrubStart (t : Time) (fn : Fin 64)
  | scrubDone (t : Time) (ch : Fin 8)
  | snufferBite (t : Time) (target : Fin 6)
  | slotCommit (t : Time) (fn : Fin 64) (i : Fin 2)
  | slotRoundBoundary (t : Time) (i : Fin 2)
  | hlAcquire (t : Time) (ini : Fin 128) (secure : Bool) (n : Fin 64)
  | hlRelease (t : Time) (ini : Fin 128) (path : LockPath) (n : Fin 64)
  | hlTornClear (t : Time) (ini : Fin 128) (path : LockPath) (n : Fin 64)
  | frzQdataRead (t : Time) (fn : Fin 64) (ch : Fin 8)
  | csiPacket (t : Time) (port : Fin 8) (hd : CsiHeader)
  | csiFrameStart (t : Time) (port : Fin 8) (dtype : Fin 64)
  | csiLine (t : Time) (port : Fin 8) (crcOk : Bool) (pixels : List Byte)
  | csiFrameDone (t : Time) (port : Fin 8)
  | csiSignalLost (t : Time) (port : Fin 8)
  | cameraBind (t : Time) (c : Cmd)
  | mediaDecode (t : Time) (c : Cmd)
  | mediaPicture (t : Time) (fn : Fin 64) (session : Fin 16) (concealed : Nat)
  | mediaEncode (t : Time) (c : Cmd)
  | mediaSlice (t : Time) (fn : Fin 64) (session : Fin 16) (idr : Bool) (nal : List Byte)
  | ethFrameRx (t : Time) (port : Fin 8) (f : EthFrame)
  | ptpSyncRx (t : Time) (d : Fin 2) (port : Fin 8) (gptpTime : Int) (rate : Int)
  | ptpSyncTimeout (t : Time) (d : Fin 2)
  | ptpOffsetLoRead (t : Time) (ini : Fin 128) (d : Fin 2)
  | gclCommit (t : Time) (fn : Fin 64) (p : Fin 8)
  | gclTakeover (t : Time) (p : Fin 8)
  | gateIntervalEnd (t : Time) (p : Fin 8)
  | filterWrite (t : Time) (fn : Fin 64) (f : Fin 1024) (word : Fin 4) (val : Word)
  | sakInstall (t : Time) (p : Fin 8)
  | netTx (t : Time) (c : Cmd)
  | netRxPost (t : Time) (c : Cmd)
  | canFrameRx (t : Time) (p : Fin 2) (f : CanFrame)
  | canBusOff (t : Time) (p : Fin 2)
  | canBusOffRecovered (t : Time) (p : Fin 2)
  | sampleBoundary (t : Time) (tdmIn convIn : Tbl Int)
  | audioRoute (t : Time) (c : Cmd)
  | audioBankSwap (t : Time) (c : Cmd)
  | audioStream (t : Time) (c : Cmd)
  | safeLoadTrigger (t : Time) (fn : Fin 64)
  | tdmFrameSync (t : Time) (p : Fin 4) (offsetPpm : Int)
  | tdmSyncLost (t : Time) (p : Fin 4)
  | touchFrame (t : Time) (p : Fin 4) (bytes : List Byte)
  | panelLost (t : Time) (p : Fin 4)
  | scScan (t : Time) (raw : Vector (Fin 65536) 48)
  | touchLongHold (t : Time) (isObj : Bool) (index : Fin 24) (contact : Fin 10)
  | maxHoldRecal (t : Time) (isObj : Bool) (index : Fin 24) (contact : Fin 10)
  | touchConfig (t : Time) (c : Cmd)
  | hapticPlay (t : Time) (c : Cmd)
  | hapticArm (t : Time) (c : Cmd)
  | htrigEdge (t : Time) (ch : Fin 8) (falling : Bool)
  | bemfSenseWindow (t : Time) (ch : Fin 8) (crossing : Option Nat)
  | maxOnCut (t : Time) (ch : Fin 8)
  | mainDriveEnd (t : Time) (ch : Fin 8)
  | brakingEnd (t : Time) (ch : Fin 8)
  | mailboxGo (t : Time) (fn : Fin 64) (mb : Fin 16) (w : Word)
  | mailboxDoneClear (t : Time) (fn : Fin 64) (mb : Fin 16)
  | info (t : Time) (mb : Fin 16)
  | claim (t : Time) (mb : Fin 16)
  | unclaim (t : Time) (mb : Fin 16)
  | authBegin (t : Time) (mb : Fin 16)
  | authSigR (t : Time) (mb : Fin 16)
  | authSigS (t : Time) (mb : Fin 16)
  | advBegin (t : Time) (mb : Fin 16)
  | advSigR (t : Time) (mb : Fin 16)
  | advSigS (t : Time) (mb : Fin 16)
  | perfHoldEnd (t : Time) (isl : Fin 16)
  | faultReport (t : Time) (isl : Fin 16) (src : Fin 256) (stamp : Time)
  | watchdogKick (t : Time)
  | firmwareWatchdog (t : Time)
  | wickEdge (t : Time)
  | lockstepMismatch (t : Time)
  | pwrReq (t : Time) (fn : Fin 64) (w : Word)
  | retentionEnter (t : Time) (isl : Fin 16)
  | retentionTimeout (t : Time) (isl : Fin 16)
  | clockGatedWake (t : Time) (isl : Fin 16)
  | thermalCheck (t : Time) (temps : Vector Int 24)
  | thermalShutdown (t : Time) (temps : Vector Int 24)
  | ageingCheck (t : Time) (delaysPs : Vector Nat 64)
  | railStep (t : Time) (r : Fin 3) (readMv : Nat)
  | railReadyTimeout (t : Time) (r : Fin 3)
  | railCurrentRead (t : Time) (amps : Vector (Fin 4096) 3)
  | standbyCycle (t : Time)
  | standbyExit (t : Time)
  | fltDtHiRead (t : Time) (fn : Fin 64)
  | smbBootStat (t : Time) (pecOk : Bool)
  | smbFltStat (t : Time) (pecOk : Bool)
  | smbTempMax (t : Time) (pecOk : Bool)
  | smbStandby (t : Time) (pecOk : Bool)
  | smbRun (t : Time) (pecOk : Bool)
  | smbAlertResponse (t : Time)
  | railsGood (t : Time)
  | porstAssert (t : Time) (lowNs : Nat)
  | porstDeassert (t : Time) (memcfg : Bool) (bootsel : Fin 4)
  | sramFillDone (t : Time)
  | componentVerify (t : Time) (ok : Bool) (err : Fin 16) (ages : Option (Vector AgeRec 16))
  | imageLoad (t : Time) (img : Image)
  | pciePortReady (t : Time) (port : Fin 2)
  | bootLinkCheck (t : Time) (h : Fin 12)
  | vddAoLow (t : Time)
  | pcieLinkUp (t : Time) (port : Fin 2) (gen : Fin 6) (width : Fin 17)
  | sriovVfEnable (t : Time) (port : Fin 2) (numVfs : Fin 64)
  | ethLinkChange (t : Time) (p : Fin 8) (up : Bool) (rate : Fin 5)
  | canBusError (t : Time) (p : Fin 2) (tec : Nat) (rxec : Nat)
  | controllerCycle (t : Time) (ch : Fin 8) (arrivals : List MemReq) (ready : Fin 65536)
  | arbitrationDecision (t : Time) (target : Fin 6) (requests : Fin 65536)
  deriving DecidableEq, Repr

end Sys2Proof
end

