-- ==== Sys2Proof/Config.lean ====
section
/-! DEFINITION. What an implementation fixes and the spec does not state, as opaque constants (free
values, notes/assumptions/2.md): nothing can be proved of any of them, so a statement holds whatever they are. -/

namespace Sys2Proof

/-- A primitive in screen space: the tile columns and rows its bounding box touches, the vertices transformed for it
outside the post-transform cache (chapter 7, binning). -/
structure BinPrim where
  x0    : Nat
  y0    : Nat
  x1    : Nat
  y1    : Nat
  verts : Nat
  id    : Nat
  deriving DecidableEq, Repr, Inhabited

/-- A sparse image as a sampler sees it (chapter 7): page table and residency map in the issuer's memory, size, mip
levels, bits of a texel. -/
structure SparseImage where
  table  : Nat
  map    : Nat
  w      : Nat
  h      : Nat
  levels : Nat
  bits   : Nat
  deriving DecidableEq, Repr, Inhabited

/-- A texel of a sparse image. -/
structure Texel where
  layer : Nat
  level : Nat
  x     : Nat
  y     : Nat
  deriving DecidableEq, Repr, Inhabited

/-- What a shader does to memory: loads and stores through a bound buffer (base and size), or samples a sparse image. -/
inductive TaperAccess where
  | load (base size addr n : Nat)
  | store (base size addr : Nat) (v : List Byte)
  | sample (img : SparseImage) (texels : List Texel)
  deriving DecidableEq, Repr, Inhabited

end Sys2Proof

namespace Sys2Proof.Config

/-- A fresh free value for each draw; `State.draws` counts the draws. -/
opaque draw : Nat → Nat

/-- SHA-384 digest (R318), as a number: the standard's function, not stated by the spec. -/
opaque sha384 : List Byte → Nat

/-- ECDSA P-384 verification over SHA-384 of a message (R529, R540): key x and y, message, r, s. -/
opaque ecdsa : Nat → Nat → List Byte → Nat → Nat → Bool

/-- The owner key under which lifecycle advances verify (R540): its x and y. -/
opaque ownerKey : Nat × Nat

/-- The fused 64-bit device ID (Table 13.5, INFO). -/
opaque deviceId : Nat

/-- The fused V_INIT of an island in mV (chapter 14, Ageing). -/
opaque vInit : Nat → Nat

/-- The fused V_CEIL of an island in mV (chapter 14, Ageing). -/
opaque vCeil : Nat → Nat

/-- The versions that INFO reports for Lantern and Watch firmware (Table 13.5). -/
opaque fwVersion : Fin 2 → Word

/-- The PCP-to-queue map of an external port (R413): port, PCP. -/
opaque pcpQueue : Nat → Nat → Nat

/-- The set of its half of the memory-side cache that a line selects (chapter 8, Visibility). -/
opaque cacheSet : Nat → Nat

/-- The fixed 4 by 4 ordered dither pattern (R148): threshold at (x mod 4, y mod 4) for a depth. -/
opaque ditherThreshold : Nat → Nat → Nat → Nat

/-- Whether a component of the YUV to RGB conversion that is no whole number is rounded up (R162 states no rounding): csc,
component, Y, Cb, Cr. -/
opaque yuvUp : Nat → Nat → Nat → Nat → Nat → Bool

/-- The polyphase filter (R173): phase of 64 and the tap values of one component. -/
opaque polyphase : Nat → List Nat → Nat

/-- Where the scaler's first output pixel lies in the source, in 1/65536 pixel, for an increment (R173). -/
opaque scaleStart : Nat → Nat

/-- A stage of a pipeline record (Table 07.7): its number, its module and its specialisation data, or none where the
record has no such stage header. The place of the fields inside the 16 bytes of a header is not stated. -/
opaque stageOf : List Byte → Nat → Option (Nat × List Byte)

/-- Whether a module is valid SPIR-V by the standard, apart from its version and capabilities (R317). -/
opaque spirvValid : List Byte → Bool

/-- How much of a limit of Table 07.8 a module uses under its record: record, module, number of the limit. -/
opaque limitUse : List Byte → List Byte → Nat → Nat

/-- The size in the code store of a compiled record (R317). -/
opaque codeSize : List Byte → Nat

/-! ### The tapers' native instructions, which the spec does not state (chapter 7) -/

/-- The primitives of a draw that survive culling: words of the stream so far, argument words, draw. -/
opaque prims : List Nat → List Nat → Nat → List BinPrim

/-- The four-component output attributes of the vertex stage, of the words of the stream so far (chapter 7, A). -/
opaque vertexOutputs : List Nat → Nat

/-- How many accesses the shaders of a draw or dispatch make: words of the stream so far, arguments, draw. -/
opaque shaderLen : List Nat → List Nat → Nat → Nat

/-- Their next access: words so far, arguments, results of the accesses before it, draw. -/
opaque shaderStep : List Nat → List Nat → List Nat → Nat → TaperAccess

/-- A filtered sample, from the weighted texels (R314): non-resident texels are zero. -/
opaque filterTexels : List Nat → Nat

/-- The place of a texel inside its sparse block, in bytes: texel bits, x, y. -/
opaque texelPlace : Nat → Nat → Nat → Nat

/-- The samples of a tile after one more primitive: stream words, primitive, tile, samples before it. -/
opaque rasterize : List Nat → BinPrim → Nat → List Nat → List Nat

/-- A sample that LOAD leaves undefined: draw, attachment, place in the tile. -/
opaque undefinedSample : Nat → Nat → Nat → Nat

/-- Where the samples of plane k of a multisampled attachment lie, from its base: record words, plane. -/
opaque samplePlane : List Nat → Nat → Nat

/-- How many tapers a submission can use, less one: its packets' words. -/
opaque tapersUsable : List Nat → Nat

/-- The registers and shared memory of the workgroups resident on a taper: draw, taper. -/
opaque resident : Nat → Nat → List Byte

/-- The header of a save area: draw. -/
opaque saveHeader : Nat → List Byte

/-- The pictures a decoder session yields (R399, R402): output byte i of a picture drawn n-th. -/
opaque pictureByte : Nat → Nat → Byte

/-- One period of a tone generator's sine (Table 06.7): frequency, level and sample number (R285). -/
opaque toneSample : Nat → Nat → Nat → Int

/-- Whether a quotient that is not whole goes up where R447, R448 and R454 do not say: a number of the sample, dividend
and divisor. -/
opaque roundsUp : Nat → Int → Int → Bool

/-- How far a gain of the limiter has come between its old value and its target, inside its attack or release (R455):
output and sample number. -/
opaque limiterStep : Nat → Nat → Nat

/-- The sync interval of an external port in ns (R415), which its Sync messages carry. -/
opaque syncInterval : Nat → Nat

/-- The gPTP domain of the presentation times of an IEEE 1722 stream: key of its binding. -/
opaque streamDomain : Nat → Nat

end Sys2Proof.Config
end

