-- ==== Sys2Proof/Machine/State.lean ====
section
/-! DEFINITION. The state of the 1240 as plain data: every register, counter, queue, buffer, mode and pin
the spec gives it, grouped by chapter, and the queue of waiting commands. A comment after a field gives its
width, the rule that names it and, where the reset value is the model's, the log entry. Field defaults are the reset
values. Sparse tables (`Tbl`) list only entries that differ from reset. -/

namespace Sys2Proof.Machine

/-- No step faults: the spec gives each command of the table an effect in every state. -/
inductive Fault where
  deriving DecidableEq, Repr

/-- Why a command has no meaning. -/
inductive Refusal where
  /-- Raised by an arm of Dispatch.lean for a command that has no meaning yet. Safe: the machine stops. -/
  | notModelled (mnemonic : String)
  deriving DecidableEq, Repr

/-- What a head's output sends (R121): nothing, a picture, the idle pattern, the training patterns, or blank data with the
clock pairs running. -/
inductive Sends where
  | nothing
  | picture
  | idle
  | training
  | blank
  deriving DecidableEq, Repr

/-- What leaves the block, in the order it leaves. -/
inductive Output where
  /-- A completion or event: function, local queue, ring entry, its eight words (R74, Table 02.6). -/
  | completion (fn q entry : Nat) (words : List Nat)
  /-- An MSI-X interrupt: function, vector (R75, R82). -/
  | msix (fn vector : Nat)
  /-- A posted write to host memory other than a completion (R95, R373). -/
  | hostWrite (fn addr : Nat) (words : List Nat)
  /-- The value a register read returns to an initiator. -/
  | readData (ini : Nat) (val : Nat)
  /-- An answer on the SMBus management port (R628). -/
  | smbus (bytes : List Byte)
  /-- An SMBus command that is not acknowledged (R628). -/
  | smbusNak (code : Nat)
  /-- An output line of a head: head, line, and for each link its pixels: packed at the output depth on a DisplayPort
  head, as the seven bits of each data pair on an LVDS head (R112, R136, R137). -/
  | line (head y : Nat) (links : List (List Nat))
  /-- The output of a head sends something else from now on (R121). -/
  | signal (head : Nat) (what : Sends)
  /-- A frame that leaves on an external port: port, bytes with its FCS, DT at which its last part starts (R410, R418, R423). -/
  | frame (port len at_ : Nat)
  /-- A write to the ageing record in the boot flash (R590): island, v_req in mV, top_bin in MHz. -/
  | flash (isl vReq top : Nat)
  deriving DecidableEq, Repr

/-! ### Chapter 1: islands and device time -/

/-- One island (Table 01.1, R28-R34, Table 14.5, R584-R590). -/
structure Island where
  live      : Bool := false          -- 1 bit; R597 R599 R604; released since PORST_N
  inReset   : Bool := false          -- 1 bit; WCH_ISL_RESET_STAT.IN_RESET (R29)
  resetAt   : Time := 0              -- ns; R33; instant of the last reset step
  power     : Nat := 0               -- 2 bits; WCH_PWR_STAT (Table 14.5): 0 ON 1 CLOCK_GATED 2 RETENTION 3 OFF
  stopped   : Bool := false          -- 1 bit; R572; clock stopped while CLOCK_GATED and idle
  retReq    : Option (Nat × Time) := none -- R574; RETENTION request waiting: requester and its instant
  limit     : Nat := 0               -- MHz; R584; thermal clock limit
  top       : Nat := 0               -- MHz; WCH_AGE.TOP_MHZ (R587)
  vReq      : Nat := 0               -- mV; R587; voltage requirement
  lastRaise : Time := 0              -- ns; R587
  exhausted : Bool := false          -- 1 bit; WCH_AGE.EXHAUSTED (R588)
  throttling : Bool := false         -- 1 bit; R584
  perfHold  : Bool := false          -- 1 bit; R538; performance counters held
  deriving DecidableEq, Repr

/-- Device time and the time bus (R35-R43). -/
structure TimeBus where
  source    : Nat := 0               -- 2 bits; WCH_DT_CTRL.SOURCE (R36)
  pending   : Option Nat := none     -- R43; SOURCE written, effective at the next round
  locked    : Bool := false          -- 1 bit; WCH_DT_CTRL.LOCKED
  holdover  : Bool := false          -- 1 bit; WCH_DT_CTRL.HOLDOVER (R38)
  rate      : Int := 0               -- 16 bits; WCH_DT_CTRL.RATE_ADJ (R37), 0.01 ppm
  rounds    : Nat := 0               -- time-bus rounds sent (R39)
  skew      : Tbl Int := []          -- ns per island; R39; island counter minus DT, within 4
  snapDt    : Tbl Nat := []          -- 64 bits per initiator ID; WCH_DT_LO snapshot (R42)
  snapFrame : Tbl Nat := []          -- 64 bits per initiator ID and head; MNT_FRAME_DT_LO snapshot
  snapPtp   : Tbl Int := []          -- 64 bits per initiator ID and domain; NET_PTP_OFFSET_LO snapshot
  deriving DecidableEq, Repr

/-! ### Chapter 2: functions, queues, commands in flight -/

/-- A quiesce in progress (R98-R101). -/
structure Quiesce where
  flight    : Nat                    -- the VF_QUIESCE command
  abandon   : Bool                   -- MODE
  start     : Time
  limit     : Time                   -- start + TIMEOUT_MS
  done      : Nat := 0               -- DW5
  abandoned : Nat := 0               -- DW6
  timedOut  : Bool := false          -- R100
  deriving DecidableEq, Repr

/-- A SECURE_VF_REQUEST authenticating (R529). -/
structure Auth where
  flight : Nat
  slot   : Nat
  limit  : Time                      -- R530; start + 1000 ms
  deriving DecidableEq, Repr

/-- One entry of a function's MSI-X table (Table 02.2, R82). -/
structure Msix where
  addrLo : Word := 0                 -- 32 bits; message address
  addrHi : Word := 0                 -- 32 bits; message upper address
  data   : Word := 0                 -- 32 bits; message data
  ctrl   : Word := 1                 -- 32 bits; vector control, bit 0 mask (log 6)
  pend   : Bool := false             -- 1 bit; pending-bit array
  deriving DecidableEq, Repr

/-- A function FN 0-63 (R53, Table 02.2). -/
structure Func where
  state     : Nat := 0               -- 3 bits; FN_STATUS.STATE: 0 UNBOUND 1 CREATED 2 ACTIVE 3 QUIESCING 4 QUIESCED 5 QUARANTINED
  hostReset : Bool := false          -- 1 bit; FN_STATUS.HOST_RESET (R642)
  secure    : Bool := false          -- 1 bit; FN_STATUS.SECURE (R529, R531)
  discards  : Nat := 0               -- 16 bits; FN_STATUS.DB_DISCARDS (R73)
  eventQ    : Nat := 0               -- 4 bits; FN_CTRL.EVENT_QUEUE
  accept    : Nat := 0               -- 128 bits; FEAT_ACCEPT (R63)
  featOk    : Bool := false          -- 1 bit; FEAT_CTRL.FEATURES_OK
  deciding  : Bool := false          -- 1 bit; FEAT_CTRL.DECIDING
  reason    : Nat := 0               -- 8 bits; FEAT_CTRL.REFUSE_REASON
  grant     : Grant := {}            -- the grant record (Table 02.10), read at offset 0x4000
  qids      : List Nat := []         -- 8 bits each; QIDs reserved (R60)
  sriov     : Bool := false          -- 1 bit; R88; enabled in SR-IOV
  lost      : Nat := 0               -- R78; events dropped and counted
  quiesce   : Option Quiesce := none -- R98
  leaving   : Option (Nat × Bool × Time) := none -- R97; VF_DESTROY (false) or VF_RELEASE (true) in progress, its start
  auth      : Option Auth := none    -- R529
  msix      : Tbl Msix := []         -- R82; MSI-X table and pending bits
  deriving DecidableEq, Repr

/-- A completion waiting in the queue context (R76): its words without QID and PHASE, and NO_IRQ. -/
structure Held where
  tag    : Nat
  status : Nat
  dt     : Nat
  pay    : List Nat
  noIrq  : Bool
  deriving DecidableEq, Repr

/-- A queue of a function (Q_* registers and the queue context). -/
structure Queue where
  sqBase   : Nat := 0                -- 64 bits; Q_SQ_BASE
  cqBase   : Nat := 0                -- 64 bits; Q_CQ_BASE
  sqLog2   : Nat := 0                -- 4 bits; Q_CFG.SQ_LOG2
  cqLog2   : Nat := 0                -- 4 bits; Q_CFG.CQ_LOG2
  engine   : Nat := 0                -- 4 bits; Q_CFG.ENGINE
  priority : Nat := 0                -- 4 bits; Q_CFG.PRIORITY
  waitTo   : Nat := 0                -- 8 bits; Q_CFG.WAIT_TIMEOUT
  enable   : Bool := false           -- 1 bit; Q_CFG.ENABLE
  vector   : Nat := 0                -- 5 bits; Q_IRQ.VECTOR
  coalN    : Nat := 0                -- 8 bits; Q_IRQ.COAL_COUNT
  coalT    : Nat := 0                -- 16 bits; Q_IRQ.COAL_TIME
  cons     : Nat := 0                -- 16 bits; Q_STAT.SQ_CONSUMER
  consGen  : Bool := false           -- 1 bit; Q_STAT.SQ_GEN
  cfgErr   : Bool := false           -- 1 bit; Q_STAT.CFG_ERROR
  prod     : Nat := 0                -- 16 bits; R71; INDEX of the last valid submission doorbell
  prodGen  : Bool := false           -- 1 bit; R71; its GEN
  cqCons   : Nat := 0                -- 16 bits; R646; consumer index Cc
  cqGen    : Bool := false           -- 1 bit; R646; Gcc
  cqW      : Nat := 0                -- R646; entries written and not freed
  cqNext   : Nat := 0                -- R75; next entry written
  phase    : Bool := true            -- 1 bit; R74; PHASE of this pass
  held     : List Held := []         -- R76; completions waiting, oldest first
  gathered : Nat := 0                -- R83; completions gathered
  since    : Option Time := none     -- R83; instant of the first gathered completion
  deriving DecidableEq, Repr

/-- A command fetched and not yet completed. `stage` 0 waits on its fence, 1 executes. -/
structure Flight where
  id     : Nat
  op     : Nat                       -- opcode
  cmd    : Cmd
  stage  : Nat
  start  : Time
  limit  : Option Time := none       -- R80; end of the fence wait
  isl    : Nat                       -- island that serves it
  holds  : Bool := false             -- R402; it waits for an output slot and holds back its queue
  deriving DecidableEq, Repr

/-- A PCIe port (R51-R54, R606-R608). -/
structure Port where
  perst  : Bool := true              -- pin; PERSTx_N asserted
  link   : Bool := false             -- 1 bit; R606
  gen    : Nat := 0                  -- link rate Gen1-Gen5 (R51)
  width  : Nat := 0                  -- lanes (R51)
  ready  : Bool := false             -- 1 bit; R607
  since  : Option Time := none       -- R607; later of Host release and PERSTx_N deassertion
  numVfs : Nat := 0                  -- R54; SR-IOV NumVFs
  sris   : Bool := false             -- R626; the link runs in SRIS mode, not on a common clock
  deriving DecidableEq, Repr

/-! ### Chapter 3 to 5: heads, layers, safety plane -/

/-- A link training in progress (R130, R131): candidates (lanes, rate) left, attempts made, cause. -/
structure Training where
  cands    : List (Nat × Nat)
  attempts : Nat := 0
  cause    : Nat                     -- as DW7 of HEAD_LINK (Table 03.7)
  limit    : Time                    -- R131 R600; end of the training
  flight   : Option Nat              -- HEAD_CONFIG that waits on it
  boot     : Bool := false           -- R600; the image's single configuration
  deriving DecidableEq, Repr

/-- A layer entry in the fields of Table 04.5. -/
structure Layer where
  slot     : Nat := 0
  enable   : Bool := false
  z        : Nat := 0
  format   : Nat := 0
  bcs      : Bool := false
  premult  : Bool := false
  ignAlpha : Bool := false
  nearest  : Bool := false
  csc      : Nat := 0
  lineLock : Bool := false
  alpha    : Nat := 0
  csi      : Nat := 0
  base     : Nat := 0
  hdrBase  : Nat := 0
  pitch    : Nat := 0
  srcX     : Nat := 0
  srcY     : Nat := 0
  srcW     : Nat := 0
  srcH     : Nat := 0
  dstX     : Int := 0
  dstY     : Int := 0
  dstW     : Nat := 0
  dstH     : Nat := 0
  fence    : Nat := 0
  wait     : Bool := false
  value    : Nat := 0
  deriving DecidableEq, Repr

/-- A layer of a picture: its slot, the function that enabled it, its entry. -/
structure PicLayer where
  slot  : Nat
  fn    : Nat
  layer : Layer
  cover : List Bool := []            -- R180; the output lines on which the layer is covered
  deriving DecidableEq, Repr

/-- What a frame shows, as its latch left it (R192): layers in z-order, background, night, gamma, and the
safety plane's lists (base, palette, fallback assets). -/
structure Pic where
  layers : List PicLayer := []       -- R158 R192; enabled layers, Z 0 first
  bg     : Nat := 0                  -- 30 bits; MNT_BG in effect
  night  : Bool := false             -- R150 R215; NIGHT in effect
  gamma  : Tbl Nat := []             -- 30 bits; R149; active gamma entries
  gOn    : Bool := false             -- 1 bit; R17; MNT_GAMMA_CTRL.ENABLE in effect
  blink  : Time := 0                 -- R216; DT of the latch
  lists  : List (Nat × Nat × Bool) := [] -- R213; plane lists drawn, own list first
  hidden : List Nat := []            -- R179; slots covered on every line
  deriving DecidableEq, Repr

/-- A started FLIP that is pending at a head (R189). -/
structure PFlip where
  flight  : Nat
  fn      : Nat
  arrive  : Time                     -- R190; instant it reached Mantle
  limit   : Time                     -- R195; arrive + FLIP_TIMEOUT
  entries : List Layer
  replace : Bool
  night   : Nat
  group   : Nat
  gsize   : Nat
  gid     : Nat := 0                 -- R198; flight of the group's first member
  target  : Nat
  passed  : Nat := 0                 -- R196 DW5; latches at which it was pending and not applied
  due     : Bool := false            -- R194; a latch after its arrival and not before TARGET_DT has passed
  timedOut : Bool := false           -- R195
  go      : Bool := false            -- R199; every member of its group was ready at an earlier latch
  deriving DecidableEq, Repr

/-- A flip or commit judged at a latch, which completes at the following blanking start (R194, R250). -/
structure Done where
  flight : Nat
  status : Nat
  pay    : List Nat
  deriving DecidableEq, Repr

/-- A check region (R235-R239): registers, shadows, and the detector's state. -/
structure Check where
  cfg      : Word := 0x000A0000      -- 32 bits; MNT_CK_CFG, shadow
  pos      : Word := 0               -- 32 bits; MNT_CK_POS, shadow
  size     : Word := 0x00010001      -- 32 bits; MNT_CK_SIZE, shadow
  cfgL     : Word := 0x000A0000      -- 32 bits; R237; MNT_CK_CFG as the last latch took it
  posL     : Word := 0               -- 32 bits; R237; MNT_CK_POS
  sizeL    : Word := 0x00010001      -- 32 bits; R237; MNT_CK_SIZE
  cfgA     : Word := 0x000A0000      -- 32 bits; MNT_CK_CFG of the frame in progress
  posA     : Word := 0               -- 32 bits; MNT_CK_POS of the frame in progress
  sizeA    : Word := 0x00010001      -- 32 bits; MNT_CK_SIZE of the frame in progress
  frozen   : Bool := false           -- 1 bit; MNT_CK_STAT.FROZEN (R236)
  mismatch : Bool := false           -- 1 bit; MNT_CK_STAT.MISMATCH
  skipped  : Bool := false           -- 1 bit; MNT_CK_STAT.SKIPPED (R231, R239)
  count    : Nat := 0                -- 8 bits; MNT_CK_STAT.COUNT
  crc      : Nat := 0                -- 32 bits; MNT_CK_CRC
  expect   : Nat := 0                -- 32 bits; MNT_CK_EXPECT
  src      : Nat := 0                -- R235; source count
  lastSrc  : Nat := 0                -- R236; last_count
  lastCrc  : Option Nat := none      -- R236; last_crc, none before the first frame
  runCrc   : Nat := 0xFFFFFFFF       -- R228; output CRC under way in this frame
  runExp   : Nat := 0xFFFFFFFF       -- R229; expected CRC under way in this frame
  clear    : Bool := false           -- R231; a plane pixel with alpha below 255 seen in this frame
  deriving DecidableEq, Repr

/-- A line of the safety plane that the renderers of a pair have finished ahead of the tail (R217, R220). -/
structure PlaneRow where
  y     : Nat
  next  : Bool                       -- the line belongs to the frame to come
  feed  : List Nat                   -- R213 R221; its premultiplied ARGB8888 words from the feeding renderer
  check : List Nat                   -- R229; the same from the checking renderer
  deriving DecidableEq, Repr

/-- A display head (Table 03.1). -/
structure Head where
  mode     : Nat := 0                -- 6 bits; MNT_HEAD_STAT.MODE
  role     : Nat := 0                -- 2 bits; MNT_HEAD_STAT.ROLE: 0 off 1 independent 2 clone
  cloneSrc : Nat := 0                -- 4 bits; MNT_HEAD_STAT.CLONE_SRC
  hpd      : Bool := false           -- pin; MNT_HEAD_STAT.HPD
  sinkRate : Nat := 0                -- R130; the sink's declared rate code
  sinkLanes : Nat := 0               -- R130; the sink's declared lanes
  dual     : Bool := false           -- 1 bit; MNT_HEAD_STAT.DUAL
  jeida    : Bool := false           -- 1 bit; HEAD_CONFIG.LVDS_MAP
  swap     : Bool := false           -- 1 bit; HEAD_CONFIG.LVDS_SWAP (R137)
  ssc      : Bool := false           -- 1 bit; HEAD_CONFIG.SSC
  link     : Nat := 0                -- 3 bits; MNT_HEAD_STAT.LINK_STATE: 0 OFF 1 NO_SINK 2 TRAINING 3 UP 4 FAILED
  rate     : Nat := 0                -- 4 bits; MNT_HEAD_STAT.RATE
  lanes    : Nat := 0                -- 3 bits; MNT_HEAD_STAT.LANES
  maxRate  : Nat := 6                -- 4 bits; HEAD_CONFIG.MAX_RATE in use
  maxLanes : Nat := 4                -- 3 bits; HEAD_CONFIG.MAX_LANES in use
  bpc      : Nat := 0                -- 2 bits; MNT_HEAD_STAT.BPC
  dither   : Bool := false           -- 1 bit; HEAD_CONFIG.DITHER (R148)
  running  : Bool := false           -- R122 R134; the timing generator runs
  runAt    : Time := 0               -- R233; instant it started
  training : Option Training := none -- R130
  configs  : List Nat := []          -- R120; HEAD_CONFIGs started, oldest first (flights)
  applied  : Option (Nat × Nat) := none -- R121 R122; HEAD_CONFIG applied, waiting for its frame start; attempts made
  frames   : Nat := 0                -- 32 bits; MNT_FRAME_COUNT
  frameDt  : Nat := 0                -- 64 bits; MNT_FRAME_DT (R111)
  lockEn   : Bool := false           -- 1 bit; HEAD_CONFIG.LOCK_EN
  lockCsi  : Nat := 0                -- 3 bits; MNT_LOCK_STAT.CSI
  lockDelay : Nat := 0               -- 16 bits; HEAD_CONFIG.LOCK_DELAY, 100 ns
  lock     : Nat := 0                -- 2 bits; MNT_LOCK_STAT.STATE: 0 OFF 1 ACQUIRING 2 LOCKED 3 HOLDOVER
  trim     : Int := 0                -- 16 bits; MNT_LOCK_STAT.TRIM, ppm
  phase    : Int := 0                -- 32 bits; MNT_LOCK_PHASE, ns
  lockGood : Nat := 0                -- R140; consecutive frames with a small error
  lockBad  : Nat := 0                -- R140; consecutive frames with a large error
  lockMiss : Nat := 0                -- R141; frames without a camera frame start
  camSeen  : Nat := 0                -- R141; camera frame count at the last frame start
  undPix   : Nat := 0                -- 32 bits; MNT_UNDERRUN_PIXELS
  undLines : Nat := 0                -- 32 bits; MNT_UNDERRUN_LINES
  undFrame : Nat := 0                -- R146; lines with repeated pixels in this frame
  lastPix  : Nat := 0                -- R143; last pixel of the previous line
  blCfg    : Word := 0x00140000      -- 32 bits; MNT_BL_CFG
  blDuty   : Word := 0x04000FFF      -- 32 bits; MNT_BL_DUTY
  blPeriod : Nat := 5000000          -- R152; PWM period in effect, ns
  blStart  : Time := 0               -- R152; start of the PWM period in progress
  blDutyA  : Nat := 0                -- R152; on-time in effect, 1/4096
  blOn     : Bool := false           -- pin; BLENn
  night    : Bool := false           -- 1 bit; MNT_DIM.NIGHT, shadow
  nightP   : Bool := false           -- 1 bit; MNT_DIM.PENDING
  nightW   : Option (Bool × Time) := none -- R44 R150; the last write of NIGHT that no latch has taken, and its instant
  gIndex   : Nat := 0                -- 10 bits; MNT_GAMMA_CTRL.INDEX
  gBank    : Bool := false           -- 1 bit; MNT_GAMMA_CTRL.BANK
  gCommit  : Bool := false           -- 1 bit; MNT_GAMMA_CTRL.GAMMA_COMMIT
  gCommitAt : Time := 0              -- R44 R149; instant it was set
  gEnable  : Bool := false           -- 1 bit; MNT_GAMMA_CTRL.ENABLE
  gShadow  : Tbl Nat := []           -- 30 bits; shadow gamma entries, key 1024 * bank + index (R149)
  aux      : Word := 0               -- 28 bits; MNT_AUX_CMD.REQUEST, ADDR, LEN
  auxShut  : Bool := false           -- R151 R521; the last write of MNT_AUX_CMD was a native write of the normal world
  auxRun   : Word := 0               -- 28 bits; R17; REQUEST, ADDR, LEN of the transaction under way
  auxBusy  : Bool := false           -- 1 bit; MNT_AUX_CMD.BUSY and START
  auxRes   : Nat := 0                -- 2 bits; MNT_AUX_CMD.RESULT
  auxData  : Tbl Nat := []           -- 32 bits; MNT_AUX_DATA, n = 0-3
  auxTries : Nat := 0                -- R153; DEFER answers
  auxSince : Time := 0               -- R153
  latchCfg : Word := 0x03E800C8      -- 32 bits; MNT_LATCH_CFG
  lead     : Nat := 200              -- R190; LATCH_LEAD in effect, us
  bg       : Word := 0               -- 30 bits; MNT_BG, shadow
  nApplied : Nat := 0                -- 16 bits; MNT_FLIP_STAT.APPLIED
  pend     : List PFlip := []        -- R189; pending flips in the order they started
  done     : List Done := []         -- R194 R250; completing at the next blanking start
  checks   : Tbl Check := []         -- R235; check regions 0-15
  lastLatch : Time := 0              -- R190; DT of the last latch
  next     : Pic := {}               -- R192; what the last latch left for the next frame
  pic      : Pic := {}               -- R192; what the frame in progress shows
  rows     : List PlaneRow := []     -- R217 R220; lines the renderers have finished and the tail has not passed
  srcAt    : Tbl Nat := []           -- R235; how often each source had advanced at the last frame start
  deriving DecidableEq, Repr

/-- A layer slot (R156): the entry in effect and the counters. -/
structure Slot where
  layer   : Layer := {}              -- Table 04.5; settings in effect
  head    : Nat := 0                 -- 4 bits; MNT_SLOT_STAT.HEAD
  fn      : Nat := 0                 -- 6 bits; MNT_SLOT_STAT.FN
  flips   : Nat := 0                 -- R235; applied flips that named the slot
  hidden  : Bool := false            -- 1 bit; MNT_SLOT_STAT.HIDDEN (R179)
  skipped : Nat := 0                 -- 16 bits; MNT_SLOT_FETCH.SKIPPED
  fetched : Nat := 0                 -- 16 bits; MNT_SLOT_FETCH.FETCHED
  bcsErr  : Nat := 0                 -- 16 bits; MNT_SLOT_ERR.BCS_ERRORS
  ringMiss : Nat := 0                -- 16 bits; MNT_SLOT_ERR.RING_MISSES
  beyond  : Nat := 0                 -- R165; fetches beyond the mapped part
  dropAt  : Bool := false            -- R97 R106; disabled at the next latch of its head
  deriving DecidableEq, Repr

/-- A safety head (R240-R250, WCH_SAFE_HEAD). -/
structure SafeHead where
  safety   : Bool := false           -- 1 bit; WCH_SAFE_HEAD.SAFETY
  partner  : Nat := 0                -- 4 bits; WCH_SAFE_HEAD.PARTNER
  floor    : Nat := 0                -- 12 bits; MNT_BL_FLOOR
  reloc    : Bool := false           -- 1 bit; WCH_SAFE_HEAD.RELOCATED
  fault    : Bool := false           -- 1 bit; WCH_SAFE_HEAD.TAIL_FAULT
  cause    : Nat := 0                -- 4 bits; WCH_SAFE_HEAD.CAUSE
  misFrames : Nat := 0               -- 16 bits; WCH_SAFE_HEAD.MISMATCH_FRAMES
  misRun   : Nat := 0                -- R232; consecutive compared frames that differed
  goodRun  : Nat := 0                -- R244; consecutive compared frames that matched
  loss     : Bool := false           -- R243 R560; the relocation was recorded as CLASS_A_LOSS
  restore  : Bool := false           -- R244; RESTORE requested
  bankL    : Nat := 0                -- Table 05.1 directory; active bank of the lists and palettes of the head
  commit   : Option (Nat × Time) := none -- R250; commit validated and waiting: flight, end of validation
  refresh  : Bool := false           -- R250; the new active bank is still to be copied into the shadow bank
  gmShadow : Tbl Nat := []           -- 30 bits; R230; the Watch island's mirror of the head's shadow gamma banks
  gmNext   : Tbl Nat := []           -- 30 bits; R230; the mirror as the last latch left it for the next frame
  gmActive : Tbl Nat := []           -- 30 bits; R230; the mirror in effect in the frame in progress
  deriving DecidableEq, Repr

/-- A renderer pair (R218-R226, WCH_LR_STAT). -/
structure Pair where
  stA      : Nat := 0                -- 2 bits; WCH_LR_STAT.STATE_A: 0 in service 1 rebuilding 2 retired
  stB      : Nat := 0                -- 2 bits; WCH_LR_STAT.STATE_B
  feedB    : Bool := false           -- 1 bit; WCH_LR_STAT.FEEDING
  rebuilds : Nat := 0                -- 8 bits; WCH_LR_STAT.REBUILDS
  misLines : Nat := 0                -- 16 bits; WCH_LR_STAT.MISMATCH_LINES
  timesA   : List Time := []         -- R224; instants of renderer A's rebuilds
  timesB   : List Time := []         -- R224; instants of renderer B's rebuilds
  backA    : List Nat := []          -- R223; heads on which rebuilt renderer A is not yet back
  backB    : List Nat := []          -- R223; heads on which rebuilt renderer B is not yet back
  deriving DecidableEq, Repr

/-- The Watchlamp store (R205): two copies of 8 MiB with check bits, and the update queue (R247). -/
structure Store where
  memA   : List Host.Cell := []      -- 8 MiB; R205; copy A, zero where not listed (R347)
  memB   : List Host.Cell := []      -- 8 MiB; R205; copy B
  chkA   : Tbl Nat := []             -- 8 bits per 64-bit word; R205; check bits of copy A
  chkB   : Tbl Nat := []             -- 8 bits per 64-bit word; R205; check bits of copy B
  queue  : List Nat := []            -- R247; SAFETY_LIST_UPDATEs started and waiting (flights)
  deriving DecidableEq, Repr

/-! ### Chapter 6: Watchlamp -/

/-- A Watchlamp signal (R273, R274). -/
structure Sig where
  value : Int := 0                   -- 32 bits; WL_SIGNAL
  stamp : Option Time := none        -- 64 bits; R273; none when never updated
  entry : Nat := 0                   -- 9 bits; R273; mapping entry that set it
  stale : Bool := true               -- 1 bit; WL_STALE
  deriving DecidableEq, Repr

/-- The end-to-end state of a mapping entry (R271). -/
structure E2e where
  seq    : Option Nat := none        -- R271; last accepted SEQ
  resync : Bool := true              -- R271; first telegram after boot or after STALE
  deriving DecidableEq, Repr

/-- An alarm rule's state (Table 06.5). -/
structure RuleSt where
  state  : Nat := 0                  -- 2 bits; WL_RULE_STATE.STATE: 0 INACTIVE 1 ACTIVE_UNACK 2 ACTIVE_ACK 3 RTN_UNACK
  actSeq : Nat := 0                  -- 8 bits; WL_RULE_STATE.ACT_SEQ
  cond   : Bool := false             -- R275; last condition
  since  : Option Time := none       -- R277; t0
  unack  : Time := 0                 -- R282; DT at which the unacknowledged state began
  played : Time := 0                 -- R287; last attempt of the haptic effect
  was    : Nat := 0                  -- R286; STATE before the instant of its last change
  moved  : Time := 0                 -- R286; instant of that change
  deriving DecidableEq, Repr

/-- An ACKIN pin (R281-R283). -/
structure AckPin where
  low   : Bool := false              -- pin; level low
  fall  : Time := 0                  -- R281; stamp of the falling edge
  acted : Bool := false              -- R281; the press of this fall has acted
  stuck : Bool := false              -- R283
  deriving DecidableEq, Repr

/-- A telegram passed to Watchlamp and not yet accepted (R267, R268): matched entry, payload, reception stamp. -/
structure Telegram where
  entry   : Nat
  payload : List Byte
  stamp   : Time
  deriving DecidableEq, Repr

/-- A tone generator (R285, R286). -/
structure Tone where
  on   : Bool := false               -- 1 bit; WCH_WL_STAT.TONES
  since: Nat := 0                    -- R286; sample number at which it last started or stopped
  env  : Nat := 0                    -- R286; envelope there, 64ths
  deriving DecidableEq, Repr

/-- Watchlamp (chapter 6). -/
structure Watchlamp where
  mode      : Nat := 1               -- 2 bits; WL_MODE.MODE: 0 HOSTED 1 AUTONOMOUS 2 HANDBACK
  confFail  : Bool := false          -- 1 bit; WL_MODE.CONFIRM_FAIL
  sysAlarm  : Bool := false          -- 1 bit; WL_MODE.SYS_ALARM
  sysSince  : Time := 0              -- R282; instant the system alarm was raised
  sysWas    : Bool := false          -- R286; SYS_ALARM before the instant of its last change
  sysMoved  : Time := 0              -- R286; instant of that change
  hbLast    : Nat := 0               -- 16 bits; WL_MODE.HB_LAST
  hbFirst   : Bool := true           -- R256; the next heartbeat is valid with any SEQ
  hbAt      : Time := 0              -- R258; last valid heartbeat
  handAt    : Time := 0              -- R262; entry into HANDBACK
  takeovers : Nat := 0               -- 16 bits; WCH_WL_STAT.TAKEOVERS
  crcBad    : Nat := 0               -- 8 bits; WCH_WL_TELE.CRC
  seqBad    : Nat := 0               -- 8 bits; WCH_WL_TELE.SEQ
  short     : Nat := 0               -- 8 bits; WCH_WL_TELE.SHORT
  hbBad     : Nat := 0               -- 8 bits; WCH_WL_TELE.HB_BAD
  gen       : Nat := 0               -- 16 bits; WL_GEN
  sigs      : Tbl Sig := []          -- R266; 256 signals
  e2e       : Tbl E2e := []          -- R271; 512 mapping entries
  rules     : Tbl RuleSt := []       -- R278; 128 rules
  pins      : Tbl AckPin := []       -- R281; ACKIN0-ACKIN3
  tones     : Tbl Tone := []         -- WCH_WL_STAT.TONES; TG0-TG3 (R285)
  almout    : Bool := true           -- pin; ALMOUT_N asserted; WCH_WL_STAT.ALMOUT (R289)
  evaluated : Bool := false          -- R289; a rule evaluation has run since the image was loaded
  runAt    : Time := 0               -- R610; image load or the exit from STANDBY: rules are evaluated after it
  running   : Bool := false          -- R577 R579 R610; rules are evaluated
  bootPage  : Bool := false          -- R291 R610; the boot period applies
  inbox     : List Telegram := []    -- R267 R268 R435; telegrams on the crossing to Watchlamp
  hapRef    : Nat := 0               -- R288; haptic alarm plays refused by the duty limit
  frozen    : Bool := false          -- R568; FATAL: nothing is updated, evaluated or acknowledged
  deriving DecidableEq, Repr

/-! ### Chapter 7: Chandelier -/

/-- A context record (Table 07.2). -/
structure CtxRec where
  kind      : Nat := 0
  saveBase  : Nat := 0
  saveKib   : Nat := 0
  binBase   : Nat := 0
  binUnits  : Nat := 0
  spillBase : Nat := 0
  spillKib  : Nat := 0
  maxW      : Nat := 0
  maxH      : Nat := 0
  maxAtt    : Nat := 0
  maxSmp    : Nat := 0
  deriving DecidableEq, Repr

/-- A WAIT_MEM under way (R307). -/
structure WaitMem where
  addr  : Nat
  value : Nat
  mask  : Nat
  limit : Option Time
  deriving DecidableEq, Repr

/-- A pass under way (chapter 7, Tile binning): its BEGIN packet and the bin memory. -/
structure Pass where
  packet  : List Nat                 -- Table 07.6; header and payload words of PASS BEGIN
  used    : Nat := 0                 -- R308; bytes of bin memory in use beyond the tile heads
  lists   : Tbl (List BinPrim) := []    -- the primitives in the list of each tile, oldest first
  spilled : List Nat := []           -- R309; tiles that stand in the spill area
  deriving DecidableEq, Repr

/-- A taper (R296, Table 07.1): 256 KiB of registers and 128 KiB of L1 and shared memory. -/
structure Taper where
  ctx    : Option Nat := none        -- context whose work it runs
  saving : Bool := false             -- R328 R329; its work is being saved
  work   : List Byte := []           -- 384 KiB; registers and shared memory of its resident workgroups
  deriving DecidableEq, Repr

/-- A hardware context (CHD_CTX_STAT). -/
structure Ctx where
  state    : Nat := 0                -- 3 bits; CHD_CTX_STAT.STATE: 0 free 1 granted 2 idle 3 running 4 preempted 5 lost
  fn       : Nat := 0                -- 6 bits; CHD_CTX_STAT.FN
  locl     : Nat := 0                -- 6 bits; CHD_CTX_STAT.LOCAL
  info     : CtxRec := {}            -- Table 07.2; the record in force
  queue    : List Nat := []          -- R299; submissions started, oldest first (flights)
  todo     : List (List Nat) := []   -- R302; packets of the running submission not yet reached: header and payload words
  ran      : List (List Nat) := []   -- packets reached, latest first
  bound    : List Nat := []          -- R319; pipeline handles its stream binds
  wait     : Option WaitMem := none  -- R307
  dls      : List (Nat × Time) := [] -- D of R326 for each deadline submission of the context (flight, D)
  pass     : Option Pass := none     -- R308 R309; the pass under way
  shading  : Bool := false           -- the running submission has work on the tapers
  lost     : Bool := false           -- R366; the running submission has used a lost partition
  stall    : Option Nat := none      -- R350 R361; a channel that did not answer it
  isles    : Nat := 0                -- 4 bits; R331; Chandelier islands its tapers lay in since it was initialised
  saved    : List Nat := []          -- R328; places of the save area that hold workgroups
  owed     : Nat := 0                -- R328; tapers taken from it by preemption
  preAt    : Option Time := none     -- R326 R45; instant of the last preemption
  runNs    : Nat := 0                -- R326; run time r of the running submission, ns
  taperNs  : Nat := 0                -- Table 07.4 DW5; its taper time, ns
  ests     : List Nat := []          -- the last eight unpreempted deadline run times, ns
  preempts : Nat := 0                -- Table 07.4 DW6; preemptions of the running submission
  partials : Nat := 0                -- Table 07.4 DW4; partial renders of the running submission
  misses   : Nat := 0                -- Table 07.4 DW7; residency misses of the running submission
  deriving DecidableEq, Repr

/-- A pipeline object in the code store (R317-R320). -/
structure Pipeline where
  handle  : Nat
  fn      : Nat
  digest  : Nat
  size    : Nat
  dying   : List Nat := []           -- R319; submissions that bound it at its DESTROY and have not completed (flights)
  deriving DecidableEq, Repr

/-- Chandelier (chapter 7). -/
structure Chand where
  margin   : Nat := 200              -- 12 bits; CHD_SCHED_CFG.MARGIN_US
  preempts : Nat := 0                -- 32 bits; CHD_PREEMPT_COUNT
  partials : Nat := 0                -- 32 bits; CHD_PARTIAL_COUNT
  robust   : Nat := 0                -- 32 bits; CHD_ROBUST_COUNT
  ctxs     : Tbl Ctx := []           -- R296; 64 hardware contexts
  pipes    : List Pipeline := []     -- R317; the code store's objects
  nextH    : Nat := 1                -- R317; next handle (log 12)
  tapers   : Tbl Taper := []         -- R296; 32 tapers, 8 for each island
  l2       : List (Nat × Nat × List Byte) := [] -- R296 R303; level-2 cache: writes not yet written back, oldest first (function, offset, bytes)
  used     : Tbl Nat := []           -- R322; taper time of each function in this window, ns
  taken    : Tbl Nat := []           -- R328; taper time taken from each function by preemption in this window, ns
  budget   : Tbl Nat := []           -- R322 R328; guaranteed taper time of each function in this window, with credit, ns
  booked   : Time := 0               -- R322; instant up to which taper time is booked
  window   : Time := 0               -- R322; start of the accounting window
  deriving DecidableEq, Repr

/-! ### Chapter 8: memory and fabric -/

/-- A memory partition (MEM_MP_STAT, MEM_MP_GEOM). -/
structure Part where
  state   : Nat := 0                 -- 3 bits; MEM_MP_STAT.STATE: 0 FREE 1 FILLING 2 READY 3 LOST 4 QUARANTINED
  mask    : Nat := 0                 -- 8 bits; MEM_MP_STAT.CH_MASK
  holder  : Nat := 0                 -- 6 bits; MEM_MP_STAT.HOLDER
  creator : Nat := 0                 -- R93; the PF that created it
  size    : Nat := 0                 -- 16 bits; MEM_MP_GEOM.SIZE
  base    : Nat := 0                 -- 8 bits; MEM_MP_GEOM.BASE
  unfill  : Bool := false            -- R367; marked lost without a fill
  filling : Bool := false            -- R346; a fill is under way
  after   : Nat := 0                 -- state that follows the fill
  gone    : Nat := 0                 -- 8 bits; R340 R341; channels of MASK that have failed out of the partition
  flight  : Option Nat := none       -- R92; PARTITION_CREATE that waits on the fill
  order   : Nat := 0                 -- creation number, for placement
  deriving DecidableEq, Repr

/-- A bank of a channel (R352-R355). -/
structure Bank where
  queue   : List MemReq := []        -- R352; at most 8 commands
  row     : Option Nat := none       -- R352; open row
  hits    : Nat := 0                 -- R352; hits_since_activate
  hist    : Nat := 0                 -- 4 bits; R353; history
  kept    : Bool := false            -- R354; row kept open after its last queued command
  reused  : Bool := false            -- R354; a command came after the decision
  lastAt  : Time := 0                -- R354; last command
  owed    : Nat := 0                 -- R355; refreshes postponed
  deriving DecidableEq, Repr

/-- A scrub under way (R369-R373): counts so far and who waits for the summary. -/
structure Scrub where
  flight : Option Nat                -- SCRUB command; none when register-started
  addr   : Nat
  len    : Nat
  start  : Time
  host   : Nat                       -- host address of the summary
  rate   : Nat                       -- MB/s; R17 R370; FAB_SCRUB_CTRL.RATE as the scrub started
  limit  : Option Time := none       -- R372; the channel is frozen: end of the request's window
  deriving DecidableEq, Repr

/-- A memory channel (MEM_* per-channel registers). -/
structure Chan where
  state   : Nat := 0                 -- 3 bits; MEM_CH_STAT.STATE: 0 ABSENT 1 TRAINING 2 READY 3 FROZEN 4 RECOVERING 5 FAILED
  cap     : Nat := 0                 -- 8 bits; MEM_CH_STAT.CAPACITY
  freezes : Nat := 0                 -- 16 bits; MEM_CH_STAT.FREEZES
  rd      : Tbl Nat := []            -- 8 bits per lane; MEM_TRAIN_RD
  wr      : Tbl Nat := []            -- 8 bits per lane; MEM_TRAIN_WR
  pendRd  : Tbl Nat := []            -- R342; delays that take effect at the next refresh
  pendWr  : Tbl Nat := []            -- R342
  rdEye   : Nat := 0                 -- 8 bits; MEM_TRAIN_EYE.RD_EYE
  rdLane  : Nat := 0                 -- 2 bits; MEM_TRAIN_EYE.RD_LANE
  wrEye   : Nat := 0                 -- 8 bits; MEM_TRAIN_EYE.WR_EYE
  wrLane  : Nat := 0                 -- 2 bits; MEM_TRAIN_EYE.WR_LANE
  sweep   : Bool := false            -- R337 R338; the channel is being trained
  rdLevel : Tbl Nat := []            -- Table 08.3; read reference level kept, per lane
  wrLevel : Tbl Nat := []            -- Table 08.3; write reference level kept, per lane
  marks   : List (Nat × Nat × Nat) := [] -- R364 R648; partitions this recovery marked lost: number, creation number, holder
  ecc     : Nat := 0                 -- 32 bits; MEM_ECC_CNT
  frzAddr : Nat := 0                 -- 37 bits; MEM_FRZ_ADDR
  frzSyn  : Nat := 0                 -- 8 bits; MEM_FRZ_INFO.SYNDROME
  frzSrc  : Nat := 0                 -- 8 bits; MEM_FRZ_INFO.SOURCE
  frzSec  : Bool := false            -- 1 bit; MEM_FRZ_INFO.WORLD
  frzCmd  : Nat := 0                 -- 3 bits; MEM_FRZ_INFO.COMMAND
  frzBank : Nat := 0                 -- 4 bits; MEM_FRZ_INFO.BANK
  frzQ    : Nat := 0                 -- 8 bits; MEM_FRZ_INFO.QUEUED
  qidx    : Nat := 0                 -- 7 bits; MEM_FRZ_QIDX.ENTRY
  qdump   : Tbl Nat := []            -- 32 bits each; MEM_FRZ_QDATA, 128 entries
  frozeAt : Time := 0                -- R363; instant of the freeze
  banks   : Tbl Bank := []           -- R352; 16 banks
  last    : Nat := 15                -- R352; last_bank (log 7)
  scrub   : Option Scrub := none     -- R371; the channel's scrub engine
  waitScrub : List Nat := []         -- R371; SCRUBs waiting for the engine (flights)
  deriving DecidableEq, Repr

/-- A command that waits for a channel that does not answer (R350, R361): flight, channel, end of its window. -/
structure MemWait where
  flight : Nat
  chan   : Nat
  limit  : Time
  put    : Option (Nat × List Byte × List Nat) := none -- what it writes when served, and its payload; none runs it again
  deriving DecidableEq, Repr

/-- Device memory (R334-R373). -/
structure Mem where
  dram     : List Host.Cell := []    -- R334; raw bytes by device address, data and check bytes (log 8)
  chans    : Tbl Chan := []          -- R334; CH0-CH7
  parts    : Tbl Part := []          -- R91; MP0-MP15
  nextOrd  : Nat := 1
  sched    : Word := 0x00140864      -- 24 bits; MEM_SCHED_CFG
  codeOk   : Bool := false           -- R336 R605; the code store is filled and in service
  codeFill : Bool := false           -- R605; the code store is being filled
  lines    : Tbl Bool := []          -- R348 R361; lines in the memory-side cache by number, true when dirty
  reqs     : List (MemReq × Time) := [] -- R350; requests not yet answered, and the ends of their windows
  waits    : List MemWait := []      -- R350 R361; commands waiting for a channel that does not answer
  deriving DecidableEq, Repr

/-- A hardware lock (FAB_HL). -/
structure Lock where
  held   : Bool := false             -- 1 bit; FAB_HL.HELD
  owner  : Nat := 0                  -- 8 bits; FAB_HL.OWNER
  ownerS : Bool := false             -- 1 bit; FAB_HL.OWNER_S
  torn   : Bool := false             -- 1 bit; FAB_HL.TORN
  deriving DecidableEq, Repr

/-- A fabric target (R375-R379). -/
structure Target where
  prioLo : Word := 0x44002688        -- 32 bits; FAB_ARB_PRIO_LO
  prioHi : Word := 0xEE8ACC44        -- 32 bits; FAB_ARB_PRIO_HI
  limit  : Nat := 0x050              -- 10 bits; FAB_SNUFF_LIMIT
  bites  : Nat := 0                  -- 28 bits; FAB_SNUFF_COUNT.COUNT
  port   : Nat := 0                  -- 4 bits; FAB_SNUFF_COUNT.PORT
  owner  : Nat := 0                  -- R375 R377; last owner (log 7)
  busy   : Bool := false             -- R378; the owner holds the target
  since  : Time := 0                 -- R378; instant of the grant
  held   : Nat := 0x050              -- R17 R378; FAB_SNUFF_LIMIT as it stood at the grant
  deriving DecidableEq, Repr

/-- A bandwidth slot table (R380, R381). -/
structure SlotTable where
  shadow : Tbl Word := []            -- 32 bits; FAB_SLOT_SH, n = 0-15
  active : Tbl Word := []            -- 32 bits; FAB_SLOT_ACT
  slotNs : Nat := 0x19               -- 7 bits; FAB_SLOT_CTRL.SLOT_NS, shadow
  nsA    : Nat := 25                 -- R381; slot length in effect, units of 10 ns
  commit : Bool := false             -- 1 bit; FAB_SLOT_CTRL.SLOT_COMMIT
  rounds : Nat := 0                  -- 16 bits; FAB_SLOT_CTRL.ROUNDS
  origin : Time := 0                 -- R381; start of the round
  deriving DecidableEq, Repr

/-- The Fabric island's registers (chapter 8). -/
structure Fabric where
  fence   : Tbl Nat := []            -- 64 bits; fence values, key 4096 * FN + local number (R79)
  fenceAt : Tbl Time := []           -- R190; instant each fence was last set
  fenceWas : Tbl Nat := []           -- 64 bits; R190; what each fence showed before that instant
  timeout : Nat := 0x0014            -- 16 bits; FAB_TIMEOUT
  toWas   : Nat := 0x0014            -- FAB_TIMEOUT before its last write, for requests issued before that
  toAt    : Time := 0                -- instant of that write
  targets : Tbl Target := []         -- R375; T0-T5
  slots   : Tbl SlotTable := []      -- R380; tables 0 and 1
  scrAddr : Nat := 0                 -- 64 bits; FAB_SCRUB_ADDR
  scrLen  : Nat := 0                 -- 64 bits; FAB_SCRUB_LEN
  scrBusy : Bool := false            -- 1 bit; FAB_SCRUB_CTRL.BUSY and START
  scrRef  : Bool := false            -- 1 bit; FAB_SCRUB_CTRL.REFUSED
  scrRate : Nat := 0x03E8            -- 16 bits; FAB_SCRUB_CTRL.RATE
  scrSum  : Tbl Nat := []            -- 32 bits; FAB_SCRUB_SUM, n = 0-15
  locks   : Tbl Lock := []           -- R383; HL0-HL63
  lockDrop : Nat := 0                -- R384 R550; dropped releases and TORN writes
  deriving DecidableEq, Repr

/-! ### Chapter 9: Media -/

/-- A camera binding (Table 09.2). -/
structure Bind where
  fn     : Nat
  lanes  : Nat
  vc     : Nat
  fmt    : Nat
  ring   : Nat
  bufs   : Nat
  width  : Nat
  height : Nat
  base   : Nat
  pitch  : Nat
  fence  : Option Nat
  frame  : Nat := 0                  -- R396; n of the next frame
  deriving DecidableEq, Repr

/-- A camera receiver (MED_CSI_STAT, MED_CSI_ERR). -/
structure Csi where
  lanes   : Nat := 0                 -- 3 bits; MED_CSI_STAT.LANES
  signal  : Bool := false            -- 1 bit; MED_CSI_STAT.SIGNAL
  vc      : Nat := 0                 -- 4 bits; MED_CSI_STAT.VC
  dtype   : Nat := 0                 -- 8 bits; MED_CSI_STAT.DTYPE
  frames  : Nat := 0                 -- 16 bits; MED_CSI_STAT.FRAMES
  ecc     : Nat := 0                 -- 8 bits; MED_CSI_ERR.ECC
  crc     : Nat := 0                 -- 8 bits; MED_CSI_ERR.CRC
  size    : Nat := 0                 -- 8 bits; MED_CSI_ERR.SIZE
  other   : Nat := 0                 -- 8 bits; MED_CSI_ERR.OTHER
  corr    : Nat := 0                 -- R388; headers corrected
  startDt : Nat := 0                 -- 64 bits; R390; stamp of the last frame start
  prevDt  : Nat := 0                 -- R183; stamp of the frame start before it
  starts  : Nat := 0                 -- frame starts seen, for R141 and R235
  line    : Nat := 0                 -- R391; next line of the frame
  inFrame : Bool := false            -- R391; a frame is in progress
  mem     : Option Bind := none      -- R395; memory target in effect
  ring    : Option Bind := none      -- R395; ring target in effect
  pendMem : Option (Option Bind) := none -- R395; memory binding that takes effect at the next frame start
  pendRing : Option (Option Bind) := none -- R395; ring binding that takes effect at the next frame start
  deriving DecidableEq, Repr

/-- A line of a ring (R183, R397). -/
structure RingLine where
  src   : Nat
  frame : Nat                        -- stamp of its camera frame start
  done  : Time
  bytes : List Byte
  deriving DecidableEq, Repr

/-- A codec session (Tables 09.3, 09.4, R404). -/
structure Session where
  enc     : Bool                     -- encode session
  codec   : Nat
  w       : Nat
  h       : Nat
  fps     : Nat
  area    : Nat
  slots   : Nat := 0                 -- output slots (decode)
  free    : List Nat := []           -- R402; free output slots
  out     : Nat := 0                 -- output order number
  fmt     : Nat := 0
  concealed : Nat := 0               -- R403; pictures concealed
  depth10 : Bool := false
  waiting : List Nat := []           -- R402; MEDIA_DECODEs that need a free slot (flights)
  camera  : Option Nat := none       -- SRC_KIND 1: the port
  ring    : Nat := 0                 -- bitstream ring base
  ringKib : Nat := 0
  ringPos : Nat := 0                 -- R405
  rows    : Nat := 0                 -- SLICE_ROWS
  cbr     : Bool := false
  kbps    : Nat := 0
  irPeriod : Nat := 0
  idrDue  : Bool := false            -- R407; INIT or FORCE_IDR asked for an IDR picture
  slice   : Nat := 0                 -- R405 R407; slices of the picture under way
  coded   : Nat := 0                 -- R407; bytes of them
  deriving DecidableEq, Repr

/-- Media (chapter 9). -/
structure Media where
  csi      : Tbl Csi := []           -- CSI0-CSI7
  rings    : Tbl RingLine := []      -- R397; LR0-LR3, key 64 * ring + line
  sessions : Tbl Session := []       -- R399 R404; key 32 * FN + session, encode sessions at + 16
  deriving DecidableEq, Repr

/-! ### Chapter 10: Network -/

/-- A gPTP domain (NET_PTP_STAT, NET_PTP_OFFSET). -/
structure Ptp where
  synced : Bool := false             -- 1 bit; NET_PTP_STAT.SYNCED
  port   : Nat := 0                  -- 4 bits; NET_PTP_STAT.PORT
  domain : Option Nat := none        -- 8 bits; NET_PTP_STAT.DOMAIN; none is the reset value d
  pend   : Option Nat := none        -- DOMAIN written, effective at the next Sync
  offset : Int := 0                  -- 64 bits; NET_PTP_OFFSET
  last   : Time := 0                 -- R415; last Sync
  deriving DecidableEq, Repr

/-- A frame in an egress queue of an external port (R418). -/
structure EFrame where
  q    : Nat                         -- 3 bits; queue
  len  : Nat                         -- bytes with its FCS
  sent : Nat := 0                    -- bytes already sent in fragments (IEEE 802.3br)
  deriving DecidableEq, Repr

/-- An external port (NET_PORT_STAT). -/
structure EPort where
  link   : Bool := false             -- 1 bit; NET_PORT_STAT.LINK
  rate   : Nat := 0                  -- 3 bits; NET_PORT_STAT.RATE
  macsec : Bool := false             -- 1 bit; NET_PORT_STAT.MACSEC
  drops  : Nat := 0                  -- 16 bits; NET_PORT_STAT.DROPS
  saks   : Nat := 0                  -- R428; SAKs installed
  egress : List EFrame := []         -- R413 R418; frames in the eight egress queues, oldest first
  freeAt : Time := 0                 -- R418; instant from which the line is free
  served : Time := 0                 -- R418; instant up to which the egress queues have been served
  deriving DecidableEq, Repr

/-- A gate control list in force (R417, R420). -/
structure GateList where
  enable  : Bool := false
  len     : Nat := 1
  cycle   : Nat := 1000000
  entries : Tbl Word := []
  preempt : Nat := 0
  origin  : Time := 0                -- R420; origin of its cycles
  deriving DecidableEq, Repr

/-- The gate control of a port (NET_GCL_*). -/
structure Gcl where
  len     : Nat := 1                 -- 9 bits; NET_GCL_CTRL.LEN
  pending : Bool := false            -- 1 bit; NET_GCL_CTRL.PENDING
  err     : Bool := false            -- 1 bit; NET_GCL_CTRL.COMMIT_ERR
  enable  : Bool := false            -- 1 bit; NET_GCL_CTRL.ENABLE
  preempt : Nat := 0                 -- 8 bits; NET_GCL_CTRL.PREEMPT
  cycle   : Nat := 1000000           -- 30 bits; NET_GCL_CYCLE.CYCLE_NS
  base    : Nat := 0                 -- 64 bits; NET_GCL_BASE
  entries : Tbl Word := []           -- 32 bits; NET_GCL_ENTRY, 256 entries, reset 0x000001FF
  change  : Time := 0                -- R419; CHANGE_TIME
  oper    : GateList := {}           -- R417; operational list
  cur     : Nat := 0                 -- R417; entry in force
  gates   : Nat := 0xFF              -- 8 bits; R417; open gates
  deriving DecidableEq, Repr

/-- A sequence recovery function (R424). -/
structure Recov where
  last : Option Nat := none          -- last R-tag sequence number, none takes any
  hist : List Nat := []              -- recent sequence numbers accepted
  deriving DecidableEq, Repr

/-- A CAN port (NET_CAN_STAT). -/
structure Can where
  state : Nat := 0                   -- 2 bits; NET_CAN_STAT.STATE: 0 active 1 passive 2 bus-off 3 listen-only
  tec   : Nat := 0                   -- 8 bits; NET_CAN_STAT.TEC
  rxec  : Nat := 0                   -- 8 bits; NET_CAN_STAT.REC
  offs  : Nat := 0                   -- 8 bits; NET_CAN_STAT.BUS_OFFS
  offAt : Time := 0                  -- R436; instant of the last bus-off
  nominal : Nat := 0                 -- kbit/s; R433; nominal rate
  data  : Nat := 0                   -- kbit/s; R433; data rate
  tdc   : Bool := false              -- R433; transmitter delay compensation applies
  deriving DecidableEq, Repr

/-- Network (chapter 10). -/
structure Net where
  ptp     : Tbl Ptp := []            -- R414; domains 0 and 1
  ports   : Tbl EPort := []          -- R410; E0-E7
  gcl     : Tbl Gcl := []            -- R417; E0-E7
  filters : Tbl StreamFilter := []   -- R423; 1024 filters
  fixed   : List Nat := []           -- R425; filters loaded from the image
  recov   : Tbl Recov := []          -- R424; 256 recovery functions
  hist    : Tbl Nat := []            -- R425; their history lengths
  can     : Tbl Can := []            -- R433; CF0 and CF1
  posts   : List Nat := []           -- R431; NET_RX_POSTs waiting, oldest first (flights)
  dropped : Nat := 0                 -- R427; filter writes dropped
  noPost  : Nat := 0                 -- R431; frames dropped for want of a posted buffer
  deriving DecidableEq, Repr

/-! ### Chapter 11: Audio -/

/-- A ramp (R448, R454): value at its start, target, samples done. -/
structure Ramp where
  from_ : Int
  to_   : Int
  k     : Nat
  len   : Nat
  deriving DecidableEq, Repr

/-- A parameter that an AUDIO_ROUTE or a safe-load sets (Table 11.3, Table 11.4). -/
inductive AudioParam where
  | gain (out inp : Nat) (g : Int)
  | eq (out sect : Nat) (coef : List Int)
  | coef (out sect k : Nat) (v : Int)
  | mode (out : Nat) (m : Bool)
  deriving DecidableEq, Repr

/-- A parameter bank of every output (chapter 11, Double banks); keys 128 * out + in and 32 * out + 5 * section + k. -/
structure AudioBank where
  gain : Tbl Int := []               -- 24 bits; R446; node gains, 0 where not listed
  eq   : Tbl Int := []               -- 24 bits; R450; coefficients, pass-through where not listed
  mode : Tbl Bool := []              -- 1 bit; R453; SCALE_MODE
  deriving DecidableEq, Repr

/-- A stream binding (R466, R467). -/
structure AStream where
  fn     : Nat
  kind   : Nat
  wide   : Bool := false             -- 1722; WIDTH
  sid    : Nat := 0                  -- 1722; stream ID
  dst    : Nat := 0                  -- 1722; destination address
  vid    : Nat := 0                  -- 1722; VID
  pcp    : Nat := 0                  -- 1722; PCP
  transit : Nat := 0                 -- 1722; a talker's maximum transit time, us
  ring   : Nat := 0
  len    : Nat := 0
  period : Nat := 0
  fence  : Option Nat := none
  pos    : Nat := 0                  -- R467; ring entry
  done   : Nat := 0                  -- R467; periods completed
  buf    : List Int := []            -- 1722 talker; samples of the frame under way
  first  : Time := 0                 -- 1722 talker; stamp of the first of them
  seq    : Nat := 0                  -- 8 bits; 1722 talker; sequence number of its next frame
  due    : List (Int × Int) := []    -- 1722 listener; samples received: presentation DT in thirds of a ns, value
  deriving DecidableEq, Repr

/-- A stream binding that takes effect at the next boundary (R466): flight, instant of its checks, key 32 * KIND + INDEX,
what it binds. -/
structure StreamBind where
  flight : Nat
  since  : Time
  key    : Nat
  bind   : Option AStream
  deriving DecidableEq, Repr

/-- An IMMEDIATE write that takes effect at the next boundary (R458): flight, instant of its checks, parameters. -/
structure ImmWrite where
  flight : Nat
  since  : Time
  params : List AudioParam
  deriving DecidableEq, Repr

/-- The limiter of an output (R455): gain, samples since it began to fall, samples since it began to rise. -/
structure Limiter where
  gain : Int := 4194304
  down : Nat := 0
  up   : Nat := 0
  deriving DecidableEq, Repr

/-- A safe-load register set (R463). -/
structure SafeLoad where
  data : Tbl Nat := []               -- 24 bits; AUD_SL_DATA
  addr : Tbl Nat := []               -- 16 bits; AUD_SL_ADDR
  count : Nat := 0                   -- 3 bits; AUD_SL_CTRL.COUNT
  trig : Bool := false               -- 1 bit; AUD_SL_CTRL.TRIGGER
  trigAt : Time := 0                 -- R463; instant at which TRIGGER was set
  skip : Nat := 0                    -- 16 bits; AUD_SL_CTRL.SKIPPED
  deriving DecidableEq, Repr

/-- A TDM port (AUD_TDM_CFG, AUD_TDM_STAT). -/
structure Tdm where
  cfg   : Word := 0x20               -- 6 bits; AUD_TDM_CFG
  cfgA  : Word := 0x20               -- R444; settings in effect
  lost  : Bool := false              -- 1 bit; AUD_TDM_STAT.SYNC_LOST
  off   : Int := 0                   -- 16 bits; AUD_TDM_STAT.OFFSET
  good  : Nat := 0                   -- R443; consecutive good frames
  syncAt : Time := 0                 -- R443; instant of the last frame sync
  deriving DecidableEq, Repr

/-- Audio (chapter 11). -/
structure Audio where
  active  : AudioBank := {}          -- R459; active bank of each output
  shadow  : AudioBank := {}          -- R459; shadow bank of each output
  ramps   : Tbl Ramp := []           -- R448; node gain ramps, key 128 * out + in
  scale   : Tbl Ramp := []           -- R454; scale in effect, key out
  duck    : Tbl Ramp := []           -- R456; duck factor in effect
  limiter : Tbl Limiter := []        -- R455; limiter of each output
  eqState : Tbl Int := []            -- R450; x1 x2 y1 y2 of a section, key 32 * out + 4 * section + j
  loud    : Tbl Nat := []            -- R452; last sample at which an input exceeded the threshold, plus 1
  loopSel : Tbl Nat := []            -- 7 bits; AUD_LOOP_SEL
  loopWas : Tbl Nat := []            -- R473; AUD_LOOP_SEL before the writes of instant loopAt
  loopAt  : Time := 0                -- R473; instant of the last write of AUD_LOOP_SEL
  loopA   : Tbl Nat := []            -- R473; loopback selection in effect
  outs    : Tbl Int := []            -- 32 bits; last sample of each output (IN116-IN123)
  pins    : Tbl Int := []            -- 32 bits; R442 R443; sample of each TDM output slot at the pins
  delayIn : Tbl (Int × Int) := []    -- R442; the last two samples of each input slot of a slave port, newest first
  delayOut : Tbl (Int × Int) := []   -- R442; the last two samples of each output slot of a slave port
  boundAt : Time := 0                -- stamp of the last sample boundary
  tdm     : Tbl Tdm := []            -- R442; TDM0-TDM3
  alarmTdm : List Nat := []          -- R444; ports that carry an alarm route
  gaps    : Tbl Nat := []            -- 16 bits; AUD_LISTEN_STAT
  streams : Tbl AStream := []        -- R466; key 32 * KIND + INDEX
  pendStr : List StreamBind := []    -- R466; bindings that take effect at the next boundary
  swaps   : List Nat := []           -- R459; AUDIO_BANK_SWAPs waiting (flights)
  imms    : List ImmWrite := []      -- R458; IMMEDIATE writes waiting
  safe    : Tbl SafeLoad := []       -- R463; safe-load registers by FN
  sample  : Nat := 0                 -- number of sample boundaries
  tdmDrop : Nat := 0                 -- R444; writes dropped on alarm ports
  deriving DecidableEq, Repr

/-! ### Chapter 12: Sense -/

/-- A baseline channel: a panel node or an electrode (Table 12.2). -/
structure Node where
  st   : Nat := 0                    -- 2 bits; R492: 0 INIT 1 TRACKING 2 TOUCHED 3 FAST_RECAL
  base : Int := 0                    -- R492; baseline B
  f    : Int := 0                    -- R479; filter value
  raw  : Int := 0                    -- last raw count
  tch  : Bool := false               -- R480; touched
  neg  : Nat := 0                    -- R492; consecutive negative scans
  wait : Bool := false               -- R495; not reported until released
  deriving DecidableEq, Repr

/-- A reported contact (R485). -/
structure Contact where
  id    : Nat
  cxn   : Int                        -- R483; centroid column, numerator
  cyn   : Int                        -- R483; centroid row, numerator
  cd    : Nat                        -- R483; their denominator
  x     : Nat                        -- last reported X
  y     : Nat
  miss  : Nat := 0                   -- frames unmatched
  lastX : Nat := 0                   -- R485; last position
  lastY : Nat := 0                   -- R485; last position
  down  : Time                       -- DOWN stamp
  held  : Bool := false              -- R494; LONG_HOLD raised
  glove : Bool := false
  nodes : List Nat := []             -- nodes of its blob
  deriving DecidableEq, Repr

/-- The settings of TOUCH_CONFIG (Table 12.3). -/
structure TouchCfg where
  fn      : Nat := 0
  enable  : Bool := false
  head    : Nat := 0
  swapXy  : Bool := false
  flipX   : Bool := false
  flipY   : Bool := false
  glove   : Bool := false
  water   : Bool := false
  raw     : Bool := false
  cols    : Nat := 0
  rows    : Nat := 0
  thr     : Nat := 0
  gloveT  : Nat := 0
  neg     : Nat := 0
  area    : Nat := 0
  jump    : Nat := 0
  shift   : Nat := 0
  longH   : Nat := 0
  maxH    : Nat := 0
  drift   : Nat := 0
  rawBase : Nat := 0
  rawBufs : Nat := 0
  deriving DecidableEq, Repr

/-- A touch panel (SNS_TP_STAT, SNS_TP_ERR). -/
structure Panel where
  cfg      : Option TouchCfg := none -- settings in effect
  pend     : List (Nat × TouchCfg) := [] -- R498; TOUCH_CONFIGs waiting for the next valid frame
  lastAt   : Time := 0               -- R478; reception of the last valid frame
  link     : Bool := false           -- 1 bit; SNS_TP_STAT.LINK
  seq      : Nat := 0                -- 8 bits; SNS_TP_STAT.SEQ
  frames   : Nat := 0                -- 16 bits; SNS_TP_STAT.FRAMES
  rejected : Nat := 0                -- 8 bits; SNS_TP_ERR.REJECTED
  gaps     : Nat := 0                -- 8 bits; SNS_TP_ERR.SEQ_GAPS
  water    : Nat := 0                -- 8 bits; SNS_TP_ERR.WATER
  excess   : Nat := 0                -- 8 bits; SNS_TP_ERR.EXCESS
  nodes    : Tbl Node := []          -- R492; key row * cols + column
  contacts : List Contact := []      -- R485
  holder   : Option Nat := none      -- R500; holder whose reports go out
  deriving DecidableEq, Repr

/-- A self-capacitance object (SNS_SC_OBJ). -/
structure ScObj where
  kind    : Nat := 0                 -- 2 bits; SNS_SC_OBJ.KIND
  elec    : List Nat := []           -- R488; electrodes
  touched : Bool := false            -- 1 bit; SNS_SC_OBJ.TOUCHED
  pos     : Nat := 0                 -- 10 bits; SNS_SC_OBJ.POSITION
  delta   : Nat := 0                 -- 16 bits; SNS_SC_OBJ.DELTA
  cfg     : Option TouchCfg := none
  pend    : List (Nat × TouchCfg) := [] -- R498; TOUCH_CONFIGs waiting for the next scan
  holder  : Option Nat := none       -- R500; holder whose reports go out
  down    : Time := 0
  held    : Bool := false            -- R494
  wait    : Bool := false            -- R495
  deriving DecidableEq, Repr

/-- A planned or running effect (R501-R514). -/
structure Effect where
  n      : Nat                       -- effect number
  prio   : Nat
  gain   : Nat
  alarm  : Bool := false
  flight : Option Nat := none        -- HAPTIC_PLAY
  fn     : Option Nat := none
  start  : Time := 0                 -- start of main drive
  run    : Time := 0                 -- R505; start of the run of drive that it joins
  drive  : Nat := 0                  -- R514; drive time done when the main drive ended, us
  clamp  : Bool := false             -- R501
  cut    : Bool := false             -- R505
  pre    : Bool := false             -- R514; PREEMPTED
  brake  : Bool := false             -- R515; brakes at the next zero crossing
  deriving DecidableEq, Repr

/-- An armed trigger (R513, R515). -/
structure Arm where
  fn      : Nat
  effect  : Nat
  prio    : Nat
  falling : Bool
  holdoff : Nat
  gain    : Nat
  until_  : Time := 0                -- end of the holdoff window
  deriving DecidableEq, Repr

/-- A haptic channel (SNS_HP_STAT, SNS_HP_WINDOW). -/
structure Hap where
  state  : Nat := 0                  -- 2 bits; SNS_HP_STAT.STATE: 0 idle 1 main drive 2 braking
  cur    : Option Effect := none     -- SNS_HP_STAT.EFFECT, ALARM
  next   : Option Effect := none     -- R510; effect that takes over at the next zero crossing
  open_  : Bool := false             -- 1 bit; SNS_HP_STAT.OPEN_LOOP
  freq   : Nat := 0                  -- 12 bits; SNS_HP_STAT.FREQ, 0.1 Hz
  miss   : Nat := 0                  -- R504; sense windows without a crossing
  drives : List (Time × Nat) := []   -- R506; drive done: start and length in ns
  refused : Nat := 0                 -- 16 bits; SNS_HP_WINDOW.REFUSED
  clamps : Nat := 0                  -- R501; clamps counted
  brakeAt : Time := 0                -- start of braking
  stops  : List Nat := []            -- R508; HAPTIC_PLAYs of effect 0 waiting for the braking (flights)
  arm    : Option Arm := none        -- R515
  deriving DecidableEq, Repr

/-- Sense (chapter 12). -/
structure Sense where
  panels : Tbl Panel := []           -- TP0-TP3
  objs   : Tbl ScObj := []           -- R488; 24 objects
  elecs  : Tbl Node := []            -- R492; SE0-SE47
  haps   : Tbl Hap := []             -- HP0-HP7
  deriving DecidableEq, Repr

/-! ### Chapter 13: Lantern -/

/-- A mailbox (LAN_MB_REQ, LAN_MB_RSP, LAN_MB_CTRL). -/
structure Mbox where
  req     : Tbl Word := []           -- 32 bits; LAN_MB_REQ, 16 words
  rsp     : Tbl Word := []           -- 32 bits; LAN_MB_RSP, 16 words
  busy    : Bool := false            -- 1 bit; LAN_MB_CTRL.BUSY
  done    : Bool := false            -- 1 bit; LAN_MB_CTRL.DONE
  doneAt  : Option Time := none      -- R16; Lantern cycle in which the hardware last set DONE
  overrun : Bool := false            -- 1 bit; LAN_MB_CTRL.OVERRUN
  mapped  : Option Nat := none       -- 1 bit; LAN_MB_CTRL.MAPPED; FN that holds the slot of MB8-MB11
  nonce   : Option Nat := none       -- 384 bits; current nonce
  sigR    : Option Nat := none       -- 384 bits; R653; stored r
  target  : Nat := 0                 -- target lifecycle state of ADV_BEGIN
  deriving DecidableEq, Repr

/-- A message given to the Lantern (R525): mailbox, request words as they stood at GO, and whether its user still
awaits the reply (R528). -/
structure LanMsg where
  mb    : Nat
  words : List Word
  seen  : Time := 0                  -- R525; Lantern cycle in which its GO became visible
  live  : Bool := true
  deriving DecidableEq, Repr

/-- A claim (LAN_CLAIM). -/
structure Claim where
  target : Nat := 0                  -- 8 bits; LAN_CLAIM.TARGET
  valid  : Bool := false             -- 1 bit; LAN_CLAIM.VALID
  owner  : Nat := 0                  -- 8 bits; LAN_CLAIM.OWNER
  deriving DecidableEq, Repr

/-- The Lantern (chapter 13). -/
structure Lantern where
  mbs      : Tbl Mbox := []          -- MB0-MB15
  order    : List LanMsg := []       -- R525; messages whose GO is accepted, oldest first
  claims   : Tbl Claim := []         -- R532; claims 0-31
  refused  : Nat := 0                -- 24 bits; LAN_CLAIM_REFUSED.COUNT
  refusedId : Nat := 0               -- 8 bits; LAN_CLAIM_REFUSED.LAST_ID
  viol     : Nat := 0                -- 24 bits; LAN_WORLD_VIOL.COUNT
  violId   : Nat := 0                -- 8 bits; LAN_WORLD_VIOL.LAST_ID
  life     : Nat := 1                -- 2 bits; LAN_LIFECYCLE.STATE (log 5)
  lifeNext : Nat := 1                -- 2 bits; LAN_LIFECYCLE.PENDING (log 5)
  zeroised : Bool := false           -- R544; key store zeroised
  deriving DecidableEq, Repr

/-! ### Chapters 14 to 16: faults, power, start-up, pins -/

/-- A fault log entry (R556-R560). -/
structure LogEntry where
  code   : Nat                       -- 16 bits; WCH_FLT_CODE.CODE
  cls    : Nat                       -- 2 bits; WCH_FLT_CODE.CLASS: 1 DEGRADED 2 CLASS_A_LOSS 3 FATAL
  stamp  : Time                      -- 64 bits; WCH_FLT_DT
  open_  : Bool                      -- 1 bit; WCH_FLT_CODE.OPEN
  rep    : Nat := 0                  -- 8 bits; WCH_FLT_CODE.REPEAT
  seen   : Time := 0                 -- R557; Watch cycle in which the fault became visible to the collector
  deriving DecidableEq, Repr

/-- The fault collector and the health pins (R556-R568). -/
structure Faults where
  log    : List LogEntry := []       -- R558; at most 64 entries, oldest first
  lost   : Nat := 0                  -- 16 bits; WCH_FLT_STAT.LOG_LOST
  idx    : Nat := 0                  -- 6 bits; WCH_FLT_IDX.ENTRY
  corr   : Tbl Nat := []             -- 32 bits; WCH_FLT_CORR, 16 islands
  pin    : Bool := true              -- pin; FAULT_N asserted; WCH_FLT_STAT.FAULT_N
  fatal  : Bool := false             -- 1 bit; WCH_FLT_STAT.FATAL
  needAck : Bool := false            -- R563; system alarm not acknowledged since the last CLASS_A_LOSS
  lossAt : Option Time := none       -- R563; Watch cycle in which the last CLASS_A_LOSS was recorded
  lossOut : List Nat := []           -- R560; codes of CLASS_A_LOSS faults whose cause lasts
  kicked : Bool := false             -- R561; the first watchdog kick has been made
  kickAt : Time := 0                 -- R566; window of the last kick, in ms
  wick   : Bool := false             -- pin; WICK level
  wickOn : Bool := false             -- R565; WICK runs
  coresUp : Bool := false            -- R568 R598; the Watch cores run
  deriving DecidableEq, Repr

/-- A core rail (WCH_RAIL). -/
structure Rail where
  set  : Nat := 0                    -- 10 bits; WCH_RAIL.SET_MV
  read : Nat := 0                    -- 10 bits; WCH_RAIL.READ_MV
  amps : Nat := 0                    -- 12 bits; WCH_RAIL.CURRENT
  bad  : Bool := false               -- R560 R582; the last write was not confirmed by a read-back that matched
  deriving DecidableEq, Repr

/-- Power and temperature (R572-R591). -/
structure Power where
  device : Nat := 0                  -- R577; 0 OFF 1 STANDBY 2 RUN
  rstRes : Tbl Nat := []             -- 12 bits; WCH_ISL_RESET_STAT.RESULT by function
  pwrRes : Tbl Nat := []             -- 12 bits; WCH_PWR_RES.RESULT by function
  pwrBusy : Tbl Bool := []           -- 1 bit; WCH_PWR_RES.BUSY by function
  rails  : Tbl Rail := []            -- R580; rails 0-2
  temps  : Tbl Int := []             -- 12 bits; WCH_TEMP, 24 sensors
  throttle : Nat := 0                -- 8 bits; WCH_THERM_CFG.THROTTLE, from the image
  hyst   : Nat := 5                  -- 4 bits; WCH_THERM_CFG.HYST
  shut   : Bool := false             -- R586; thermal shutdown
  recAt  : Time := 0                 -- R590; last write of the ageing record
  wake   : Bool := false             -- R578; a wake event has fallen in STANDBY
  wakeAt : Time := 0                 -- R609 R602; the wake event that ends STANDBY
  wakeEvt : Option Time := none      -- R630; last wake event in any state
  wokenUp : Bool := false            -- R610; RUN was entered from STANDBY
  deriving DecidableEq, Repr

/-- Start-up (R592-R610, LAN_BOOT_STAT) and the reset pin. -/
structure Boot where
  porst   : Bool := true             -- pin; PORST_N held (or VDD_AO below 0.70 V, R621)
  rails   : Bool := false            -- R594; rails good
  filled  : Bool := false            -- R594; SRAM fill done
  lantern : Bool := false            -- R594; Lantern released
  stage   : Nat := 0                 -- 4 bits; LAN_BOOT_STAT.STAGE
  bootsel : Nat := 0                 -- 2 bits; LAN_BOOT_STAT.BOOTSEL, strap
  memcfg  : Bool := false            -- 1 bit; LAN_BOOT_STAT.MEMCFG, strap
  slot    : Nat := 0                 -- 1 bit; LAN_BOOT_STAT.SLOT
  err     : Nat := 0                 -- 8 bits; LAN_BOOT_STAT.ERROR
  failA   : Bool := false            -- 1 bit; LAN_BOOT_STAT.A_FAILED
  failB   : Bool := false            -- 1 bit; LAN_BOOT_STAT.B_FAILED
  comp    : Nat := 0                 -- R595; next component to verify
  loadAt  : Option Time := none      -- R599; image load instant
  hostAt  : Option Time := none      -- R604; Host release
  memRdy  : Bool := false            -- R605; the memory islands are ready
  deriving DecidableEq, Repr

/-- The whole state. -/
structure State where
  dt      : Time := 0                -- 64 bits; R35; device time of the Watch island
  time    : TimeBus := {}            -- chapter 1
  isl     : Tbl Island := []         -- Table 01.1; 16 islands
  img     : Option Image := none     -- R599; the configuration image once loaded
  fns     : Tbl Func := []           -- R53; FN 0-63
  queues  : Tbl Queue := []          -- key 16 * FN + q
  flights : List Flight := []        -- R85; commands fetched and unfinished
  nextId  : Nat := 0                 -- next number of a command in flight
  ports   : Tbl Port := []           -- R51; port A 0, port B 1
  grpDrop : Nat := 0                 -- R55; group writes dropped and counted
  hdDrop  : Nat := 0                 -- R154 R238; head register writes dropped and counted
  heads   : Tbl Head := []           -- R108; H0-H11
  slots   : Tbl Slot := []           -- R156; L0-L63
  safe    : Tbl SafeHead := []       -- chapter 5; H0-H11
  pairs   : Tbl Pair := []           -- chapter 5; pairs 0 and 1
  store   : Store := {}              -- R205
  wl      : Watchlamp := {}          -- chapter 6
  chand   : Chand := {}              -- chapter 7
  mem     : Mem := {}                -- chapter 8
  fab     : Fabric := {}             -- chapter 8
  media   : Media := {}              -- chapter 9
  net     : Net := {}                -- chapter 10
  audio   : Audio := {}              -- chapter 11
  sense   : Sense := {}              -- chapter 12
  lan     : Lantern := {}            -- chapter 13
  flt     : Faults := {}             -- chapter 14
  pwr     : Power := {}              -- chapter 14
  boot    : Boot := {}               -- chapter 15
  draws   : Nat := 0                 -- the model's own: free values drawn so far (log 2)
  out     : List Output := []        -- the model's own: what has left the block, oldest first (log 3)
  pending : List Instr := []         -- the model's own: commands waiting, first in first out (log 1)
  deriving DecidableEq, Repr

/-- The machine right after reset: PORST_N is held low, nothing is loaded, no command waits. -/
def State.reset : State := {}

end Sys2Proof.Machine
end

