-- ==== Sys2Proof/Machine/Bits.lean ====
section
/-! DEFINITION. Helpers: sparse tables, bit fields, saturating counters, little-endian words, byte
memories in canonical form, and the CRC-32C of R227. -/

namespace Sys2Proof.Machine

/-! ### Sparse tables -/

/-- The entry of a table, or the reset value where none is listed. -/
def look {α : Type} (t : Tbl α) (k : Nat) (d : α) : α :=
  match t with
  | [] => d
  | (j, v) :: r => if j = k then v else look r k d

/-- A table with one entry written. -/
def put {α : Type} (t : Tbl α) (k : Nat) (v : α) : Tbl α :=
  match t with
  | [] => [(k, v)]
  | (j, w) :: r => if j = k then (k, v) :: r else (j, w) :: put r k v

/-- A table without the entries whose key a test picks. -/
def dropKeys {α : Type} (t : Tbl α) (p : Nat → Bool) : Tbl α := t.filter fun e => !p e.1

/-- A table with one entry changed. -/
def upd {α : Type} (t : Tbl α) (k : Nat) (d : α) (f : α → α) : Tbl α := put t k (f (look t k d))

/-! ### Bits and numbers -/

/-- Bits [lo + n - 1 : lo] of a number. -/
def bits (x lo n : Nat) : Nat := (x >>> lo) % 2 ^ n

/-- Bit `i` of a number. -/
def bit (x i : Nat) : Bool := x.testBit i

/-- A field of a word. -/
def fld (w : Word) (lo n : Nat) : Nat := bits w.toNat lo n

/-- A number read as an n-bit two's-complement value. -/
def signed (n x : Nat) : Int := if x % 2 ^ n < 2 ^ (n - 1) then (x % 2 ^ n : Nat) else (x % 2 ^ n : Nat) - (2 : Int) ^ n

/-- The n-bit two's-complement code of a value. -/
def code (n : Nat) (v : Int) : Nat := (v % (2 : Int) ^ n).toNat

/-- 1 for true. -/
def b2n (b : Bool) : Nat := if b then 1 else 0

/-- One more, saturating (the counters of the spec that saturate). -/
def satInc (n max : Nat) : Nat := if n < max then n + 1 else n

/-- `k` more, saturating. -/
def satAdd (n k max : Nat) : Nat := min (n + k) (Nat.max n max)

/-- A value clamped to a range. -/
def clampI (v lo hi : Int) : Int := if v < lo then lo else if v > hi then hi else v

/-- The nearest integer to a / b, halves up (R175). -/
def roundDiv (a b : Nat) : Nat := (2 * a + b) / (2 * b)

/-- Quotient rounded up. -/
def ceilDiv (a b : Nat) : Nat := (a + b - 1) / b

/-- The positions of the 1 bits of a mask below `n`. -/
def maskList (m n : Nat) : List Nat := (List.range n).filter fun i => m.testBit i

/-- The mask of a list of positions. -/
def listMask (l : List Nat) : Nat := l.foldl (fun m i => m ||| (1 <<< i)) 0

/-- How many 1 bits a mask has below `n`. -/
def popCount (m n : Nat) : Nat := (maskList m n).length

/-- One word of a list of words, zero beyond its end. -/
def wordAt (l : List Word) (i : Nat) : Nat := (l.getD i 0).toNat

/-- Two words, low first, as a 64-bit number. -/
def word64 (l : List Word) (i : Nat) : Nat := wordAt l i + 2 ^ 32 * wordAt l (i + 1)

/-- The low and the high word of a 64-bit number. -/
def lo32 (n : Nat) : Nat := n % 2 ^ 32
def hi32 (n : Nat) : Nat := n / 2 ^ 32 % 2 ^ 32

/-- Bytes, little-endian (R10), as a number. -/
def leNat : List Byte → Nat
  | [] => 0
  | b :: r => b.toNat + 256 * leNat r

/-- Bytes, big-endian, as a number. -/
def beNat (l : List Byte) : Nat := leNat l.reverse

/-- A number as `n` little-endian bytes. -/
def leBytes : Nat → Nat → List Byte
  | 0, _ => []
  | n + 1, v => BitVec.ofNat 8 v :: leBytes n (v / 256)

/-- The bytes of a list of words. -/
def wordBytes (l : List Word) : List Byte := l.flatMap fun w => leBytes 4 w.toNat

/-- Split a list into pieces of `n`. -/
def chunks {α : Type} (n : Nat) (l : List α) : List (List α) :=
  (List.range (ceilDiv l.length n)).map fun i => (l.drop (n * i)).take n

/-! ### CRC-32C (R227) -/

/-- One bit of the reflected CRC-32C, polynomial 0x1EDC6F41. -/
def crcBit (c : Nat) : Nat := if c % 2 = 1 then (c / 2) ^^^ 0x82F63B78 else c / 2

/-- One byte more in a running CRC. -/
def crcByte (c : Nat) (b : Byte) : Nat := Nat.repeat crcBit 8 (c ^^^ b.toNat)

/-- Bytes more in a running CRC. -/
def crcRun (c : Nat) (l : List Byte) : Nat := l.foldl crcByte c

/-- The CRC-32C of a list of bytes (R227). -/
def crc32c (l : List Byte) : Nat := crcRun 0xFFFFFFFF l ^^^ 0xFFFFFFFF

/-! ### Byte memories (canonical: addresses rising, no zero listed) -/

/-- The byte at an address; an unlisted address reads zero (notes/assumptions/8.md). -/
def readByte : List Host.Cell → Nat → Byte
  | [], _ => 0
  | (b, v) :: r, a => if b = a then v else readByte r a

/-- Write a byte, keeping the canonical form. -/
def writeByte : List Host.Cell → Nat → Byte → List Host.Cell
  | [], a, v => if v = 0 then [] else [(a, v)]
  | (b, w) :: r, a, v =>
    if a < b then (if v = 0 then (b, w) :: r else (a, v) :: (b, w) :: r)
    else if a = b then (if v = 0 then r else (a, v) :: r)
    else (b, w) :: writeByte r a v

/-- The canonical form: addresses rise strictly and no listed byte is zero. -/
def Memory.wf : List Host.Cell → Bool
  | [] => true
  | [(_, v)] => v != 0
  | (a, v) :: (b, w) :: r => v != 0 && a < b && Memory.wf ((b, w) :: r)

/-- `n` bytes from an address on. -/
def readBytes (m : List Host.Cell) (a n : Nat) : List Byte := (List.range n).map fun i => readByte m (a + i)

/-- Bytes written from an address on. -/
def writeBytes (m : List Host.Cell) (a : Nat) : List Byte → List Host.Cell
  | [] => m
  | v :: r => writeBytes (writeByte m a v) (a + 1) r

/-- Zeros in the whole range [a, a + n): the range is no longer listed. -/
def zeroRange (m : List Host.Cell) (a n : Nat) : List Host.Cell := m.filter fun c => !(a ≤ c.1 && c.1 < a + n)

/-! ### SECDED (R356, R357) -/

/-- The 8-bit values of weight `k`, ascending. -/
def weightCodes (k : Nat) : List Nat := (List.range 256).filter fun x => popCount x 8 = k

/-- The columns code(0) to code(63) of R356. -/
def secdedCodes : List Nat := (weightCodes 3 ++ weightCodes 5).take 64

/-- The check byte of a 64-bit data word (R356). -/
def checkByte (d : Nat) : Nat :=
  (secdedCodes.zipIdx).foldl (fun c e => if d.testBit e.2 then c ^^^ e.1 else c) 0

/-- The outcome of a SECDED read (R357): no error, corrected data and check byte, or uncorrectable. -/
inductive Ecc where
  | clean
  | fixed (data chk : Nat)
  | bad (syndrome : Nat)
  deriving DecidableEq, Repr

/-- Decode a stored data word and check byte (R357). -/
def eccRead (d c : Nat) : Ecc :=
  let s := c ^^^ checkByte d
  if s = 0 then .clean
  else if s ∈ [1, 2, 4, 8, 16, 32, 64, 128] then .fixed d (c ^^^ s)
  else match secdedCodes.findIdx? (· = s) with
    | some i => .fixed (d ^^^ (1 <<< i)) c
    | none => .bad s

end Sys2Proof.Machine
end

