-- ==== Sys2Proof/Machine/Ops.lean ====
section
/-! DEFINITION. The named operations over the state that every chapter uses: one accessor and one update per
table, islands and their stamps, events and completions, fences, faults, the system alarm. -/

namespace Sys2Proof.Machine

open Host (Outcome)

/-- The answer of a meaning. -/
abbrev Answer := Outcome State Fault Refusal

/-! ### Time -/

/-- A command falls at device time `t`; DT never runs backward (R35). -/
def State.at (s : State) (t : Time) : State := { s with dt := max s.dt t }

/-- One millisecond and one microsecond in ns. -/
def ms : Nat := 1000000
def us : Nat := 1000

/-- The maximum clock of an island in kHz (Table 01.1). -/
def topKhz (i : Nat) : Nat :=
  [400000, 800000, 1200000, 1600000, 1200000, 1200000, 1600000, 1600000, 1600000, 1600000, 800000, 800000,
   1000000, 800000, 400000, 491520].getD i 400000

/-- F_TOP of an island in MHz (chapter 14, Ageing). -/
def fTop (i : Nat) : Nat := topKhz i / 1000

/-- An island as PORST_N leaves it: its clock limit is its maximum clock. -/
def Island.init (i : Nat) : Island := { limit := fTop i, top := fTop i }

/-- A function as PORST_N leaves it: a PF reads STATE 2 (FN_STATUS) and holds 16 queue contexts (R60, notes/assumptions/9.md). -/
def Func.init (i : Nat) : Func :=
  { state := if i < 2 then 2 else 0, qids := if i < 2 then (List.range 16).map (· + 16 * i) else [] }

/-! ### Accessors -/

def State.island (s : State) (i : Nat) : Island := look s.isl i (Island.init i)
def State.modIsl (s : State) (i : Nat) (f : Island → Island) : State := { s with isl := put s.isl i (f (s.island i)) }
def State.fnc (s : State) (i : Nat) : Func := look s.fns i (Func.init i)
def State.modFn (s : State) (i : Nat) (f : Func → Func) : State := { s with fns := put s.fns i (f (s.fnc i)) }
/-- Queue `q` of function `fn` has key 16 fn + q. -/
def qkey (fn q : Nat) : Nat := 16 * fn + q
def State.que (s : State) (fn q : Nat) : Queue := look s.queues (qkey fn q) {}
def State.modQ (s : State) (fn q : Nat) (f : Queue → Queue) : State :=
  { s with queues := put s.queues (qkey fn q) (f (s.que fn q)) }
def State.port (s : State) (p : Nat) : Port := look s.ports p {}
def State.modPort (s : State) (p : Nat) (f : Port → Port) : State := { s with ports := put s.ports p (f (s.port p)) }
def State.head (s : State) (h : Nat) : Head := look s.heads h {}
def State.modHead (s : State) (h : Nat) (f : Head → Head) : State := { s with heads := put s.heads h (f (s.head h)) }
def State.slotOf (s : State) (n : Nat) : Slot := look s.slots n {}
def State.modSlot (s : State) (n : Nat) (f : Slot → Slot) : State := { s with slots := put s.slots n (f (s.slotOf n)) }
def State.safeOf (s : State) (h : Nat) : SafeHead := look s.safe h {}
def State.modSafe (s : State) (h : Nat) (f : SafeHead → SafeHead) : State := { s with safe := put s.safe h (f (s.safeOf h)) }
def State.pair (s : State) (p : Nat) : Pair := look s.pairs p {}
def State.modPair (s : State) (p : Nat) (f : Pair → Pair) : State := { s with pairs := put s.pairs p (f (s.pair p)) }
def State.modWl (s : State) (f : Watchlamp → Watchlamp) : State := { s with wl := f s.wl }
def State.ruleSt (s : State) (r : Nat) : RuleSt := look s.wl.rules r {}
def State.sigOf (s : State) (n : Nat) : Sig := look s.wl.sigs n {}
def State.ctx (s : State) (c : Nat) : Ctx := look s.chand.ctxs c {}
def State.modCtx (s : State) (c : Nat) (f : Ctx → Ctx) : State :=
  { s with chand := { s.chand with ctxs := put s.chand.ctxs c (f (s.ctx c)) } }
def State.modChand (s : State) (f : Chand → Chand) : State := { s with chand := f s.chand }
def State.taper (s : State) (t : Nat) : Taper := look s.chand.tapers t {}
def State.modTaper (s : State) (t : Nat) (f : Taper → Taper) : State :=
  { s with chand := { s.chand with tapers := put s.chand.tapers t (f (s.taper t)) } }
def State.chan (s : State) (c : Nat) : Chan := look s.mem.chans c {}
def State.modChan (s : State) (c : Nat) (f : Chan → Chan) : State :=
  { s with mem := { s.mem with chans := put s.mem.chans c (f (s.chan c)) } }
def State.modMem (s : State) (f : Mem → Mem) : State := { s with mem := f s.mem }
def State.part (s : State) (p : Nat) : Part := look s.mem.parts p {}
def State.modPart (s : State) (p : Nat) (f : Part → Part) : State :=
  { s with mem := { s.mem with parts := put s.mem.parts p (f (s.part p)) } }
def State.modFab (s : State) (f : Fabric → Fabric) : State := { s with fab := f s.fab }
def State.target (s : State) (t : Nat) : Target := look s.fab.targets t {}
def State.modTarget (s : State) (t : Nat) (f : Target → Target) : State :=
  { s with fab := { s.fab with targets := put s.fab.targets t (f (s.target t)) } }
def State.slotTab (s : State) (i : Nat) : SlotTable := look s.fab.slots i {}
def State.modSlotTab (s : State) (i : Nat) (f : SlotTable → SlotTable) : State :=
  { s with fab := { s.fab with slots := put s.fab.slots i (f (s.slotTab i)) } }
def State.lock (s : State) (n : Nat) : Lock := look s.fab.locks n {}
def State.modLock (s : State) (n : Nat) (f : Lock → Lock) : State :=
  { s with fab := { s.fab with locks := put s.fab.locks n (f (s.lock n)) } }
def State.csi (s : State) (p : Nat) : Csi := look s.media.csi p {}
def State.modCsi (s : State) (p : Nat) (f : Csi → Csi) : State :=
  { s with media := { s.media with csi := put s.media.csi p (f (s.csi p)) } }
def State.modNet (s : State) (f : Net → Net) : State := { s with net := f s.net }
def State.ptp (s : State) (d : Nat) : Ptp := look s.net.ptp d {}
def State.modPtp (s : State) (d : Nat) (f : Ptp → Ptp) : State :=
  { s with net := { s.net with ptp := put s.net.ptp d (f (s.ptp d)) } }
def State.eport (s : State) (p : Nat) : EPort := look s.net.ports p {}
def State.modEport (s : State) (p : Nat) (f : EPort → EPort) : State :=
  { s with net := { s.net with ports := put s.net.ports p (f (s.eport p)) } }
def State.gcl (s : State) (p : Nat) : Gcl := look s.net.gcl p {}
def State.modGcl (s : State) (p : Nat) (f : Gcl → Gcl) : State :=
  { s with net := { s.net with gcl := put s.net.gcl p (f (s.gcl p)) } }
def State.can (s : State) (n : Nat) : Can := look s.net.can n {}
def State.modCan (s : State) (n : Nat) (f : Can → Can) : State :=
  { s with net := { s.net with can := put s.net.can n (f (s.can n)) } }
def State.modAudio (s : State) (f : Audio → Audio) : State := { s with audio := f s.audio }
def State.tdm (s : State) (p : Nat) : Tdm := look s.audio.tdm p {}
def State.modTdm (s : State) (p : Nat) (f : Tdm → Tdm) : State :=
  { s with audio := { s.audio with tdm := put s.audio.tdm p (f (s.tdm p)) } }
def State.safeLoad (s : State) (fn : Nat) : SafeLoad := look s.audio.safe fn {}
def State.modSafeLoad (s : State) (fn : Nat) (f : SafeLoad → SafeLoad) : State :=
  { s with audio := { s.audio with safe := put s.audio.safe fn (f (s.safeLoad fn)) } }
def State.panel (s : State) (p : Nat) : Panel := look s.sense.panels p {}
def State.modPanel (s : State) (p : Nat) (f : Panel → Panel) : State :=
  { s with sense := { s.sense with panels := put s.sense.panels p (f (s.panel p)) } }
def State.obj (s : State) (o : Nat) : ScObj := look s.sense.objs o {}
def State.modObj (s : State) (o : Nat) (f : ScObj → ScObj) : State :=
  { s with sense := { s.sense with objs := put s.sense.objs o (f (s.obj o)) } }
def State.hap (s : State) (n : Nat) : Hap := look s.sense.haps n {}
def State.modHap (s : State) (n : Nat) (f : Hap → Hap) : State :=
  { s with sense := { s.sense with haps := put s.sense.haps n (f (s.hap n)) } }
def State.mbox (s : State) (m : Nat) : Mbox := look s.lan.mbs m {}
def State.modMbox (s : State) (m : Nat) (f : Mbox → Mbox) : State :=
  { s with lan := { s.lan with mbs := put s.lan.mbs m (f (s.mbox m)) } }
def State.modLan (s : State) (f : Lantern → Lantern) : State := { s with lan := f s.lan }
def State.modFlt (s : State) (f : Faults → Faults) : State := { s with flt := f s.flt }
def State.modPwr (s : State) (f : Power → Power) : State := { s with pwr := f s.pwr }
def State.rail (s : State) (r : Nat) : Rail := look s.pwr.rails r {}
def State.modRail (s : State) (r : Nat) (f : Rail → Rail) : State :=
  { s with pwr := { s.pwr with rails := put s.pwr.rails r (f (s.rail r)) } }
def State.modBoot (s : State) (f : Boot → Boot) : State := { s with boot := f s.boot }
def State.emit (s : State) (o : Output) : State := { s with out := s.out ++ [o] }
/-- Draw a free value (notes/assumptions/2.md). -/
def State.free (s : State) : Nat := Config.draw s.draws
def State.drawn (s : State) : State := { s with draws := s.draws + 1 }

/-! ### Islands -/

/-- An island answers: released, not in reset, ON or CLOCK_GATED (R572, R576). -/
def State.up (s : State) (i : Nat) : Bool :=
  (s.island i).live && !(s.island i).inReset && (s.island i).power ≤ 1

/-- The clock of an island in kHz: its maximum, less the bins lost and the thermal limit (R584, R587). -/
def State.clockKhz (s : State) (i : Nat) : Nat :=
  let l := s.island i
  if min l.limit l.top = fTop i then topKhz i else 1000 * min l.limit l.top

/-- A DT stamp taken in an island: its counter, quantised downward to its clock period (R39, R40). -/
def State.stamp (s : State) (i : Nat) : Time :=
  let now := (s.dt : Int) + look s.time.skew i 0
  now.toNat * s.clockKhz i / 1000000 * 1000000 / s.clockKhz i

/-- The Mantle island of a head (Table 03.1). -/
def mantleOf (h : Nat) : Nat := if h < 6 then 10 else 11

/-- The renderer pair of a head (chapter 5, Renderer pairs). -/
def pairOf (h : Nat) : Nat := if h < 6 then 0 else 1

/-! ### Functions -/

/-- The port of a function (R53): port B is 1. -/
def State.portOf (s : State) (fn : Nat) : Nat :=
  if fn < 2 then fn
  else match s.img with
    | some im => match im.vfPort.find? (·.1 = fn) with
      | some e => b2n e.2
      | none => 2
    | none => 2

/-- The safety guest (Table 06.7). -/
def State.isSafety (s : State) (fn : Nat) : Bool :=
  match s.img with
  | some im => im.safetyFn.val = fn
  | none => false

/-- How many queues a function has: 16 for a PF (R60), else the granted count. -/
def State.nQueues (s : State) (fn : Nat) : Nat := if fn < 2 then 16 else (s.fnc fn).grant.queues

/-- How many MSI-X vectors a function has (R82). -/
def State.nVectors (s : State) (fn : Nat) : Nat := if fn < 2 then 32 else (s.fnc fn).grant.vectors

/-- A feature bit is accepted: the acceptance binds once FEATURES_OK is kept (R64-R66). -/
def State.accepts (s : State) (fn b : Nat) : Bool :=
  (s.fnc fn).featOk && !(s.fnc fn).deciding && (s.fnc fn).accept.testBit b

/-- The owner of a head: the function whose record names it in HEAD_OWN (Table 02.10). -/
def State.headOwner (s : State) (h : Nat) : Option Nat :=
  (List.range 64).find? fun i => (i < 2 || (s.fnc i).state != 0) && (s.fnc i).grant.headOwn.testBit h

/-! ### Completion rings, events and interrupts (R73-R83) -/

/-- The ring is full (R647). -/
def State.cqFull (s : State) (fn q : Nat) : Bool :=
  let c := s.que fn q
  if s.accepts fn 1 then c.cqW ≥ 2 ^ c.cqLog2 else c.cqW + 1 ≥ 2 ^ c.cqLog2

/-- Send an MSI-X message, or set its pending bit while the vector is masked (R52, R82). -/
def sendIrq (s : State) (fn vec : Nat) : State :=
  let m := look (s.fnc fn).msix vec {}
  if (look (s.fnc fn).msix vec {}).ctrl.getLsbD 0 then
    s.modFn fn fun f => { f with msix := put f.msix vec { m with pend := true } }
  else s.emit (.msix fn vec)

/-- Count a written completion toward the interrupt (R83). -/
def gather (s : State) (fn q : Nat) : State :=
  let c := s.que fn q
  if c.gathered + 1 ≥ max c.coalN 1 || c.coalT = 0 then
    sendIrq (s.modQ fn q fun c => { c with gathered := 0, since := none }) fn c.vector
  else s.modQ fn q fun c => { c with gathered := c.gathered + 1, since := some (c.since.getD s.dt) }

/-- Write one entry of a completion ring (R74, R75, Table 02.6), then count it toward the interrupt. -/
def writeEntry (s : State) (fn q : Nat) (h : Held) : State :=
  let c := s.que fn q
  let qid := (s.fnc fn).qids.getD q 0
  let w := [h.tag, h.status + 2 ^ 16 * qid + 2 ^ 31 * b2n c.phase, lo32 h.dt, hi32 h.dt] ++ h.pay
  let wrap := c.cqNext + 1 ≥ 2 ^ c.cqLog2
  let s1 := (s.modQ fn q fun c => { c with
      cqNext := if wrap then 0 else c.cqNext + 1, phase := if wrap then !c.phase else c.phase, cqW := c.cqW + 1 }).emit
    (.completion fn q c.cqNext w)
  if h.noIrq then s1 else gather s1 fn q

/-- Write a completion, or let it wait in the queue context when the ring is full (R76). -/
def postEntry (s : State) (fn q : Nat) (h : Held) : State :=
  if (s.que fn q).held ≠ [] || s.cqFull fn q then s.modQ fn q fun c => { c with held := c.held ++ [h] }
  else writeEntry s fn q h

/-- The queue an event goes to (FN_CTRL.EVENT_QUEUE). -/
def State.eventQueue (s : State) (fn : Nat) : Nat :=
  if (s.fnc fn).eventQ < s.nQueues fn then (s.fnc fn).eventQ else 0

/-- Write EVENTS_LOST at the first free entry of an enabled event queue (R78). -/
def flushLost (s : State) (fn : Nat) : State :=
  let q := s.eventQueue fn
  if (s.fnc fn).lost = 0 || !s.up 2 || !(s.que fn q).enable || (s.que fn q).held ≠ [] || s.cqFull fn q then s
  else
    let n := (s.fnc fn).lost
    writeEntry (s.modFn fn fun f => { f with lost := 0 }) fn q ⟨0xFFFFFFFF, 0, s.stamp 2, [2, n % 2 ^ 32, 0, 0], false⟩

/-- Send an unsolicited event with a stamp (R77, R78). -/
def sendEventAt (s : State) (fn evCode d5 d6 d7 : Nat) (stamp : Time) : State :=
  if !s.up 2 || (fn ≥ 2 && (s.fnc fn).state = 0) then s
  else
    let s := flushLost s fn
    let q := s.eventQueue fn
    if !(s.que fn q).enable || (s.que fn q).held ≠ [] || s.cqFull fn q then
      s.modFn fn fun f => { f with lost := f.lost + 1 }
    else writeEntry s fn q ⟨0xFFFFFFFF, 0, stamp, [evCode, d5, d6, d7], false⟩

/-- Send an event stamped in an island. -/
def sendEvent (s : State) (isl fn evCode d5 d6 d7 : Nat) : State :=
  sendEventAt s fn evCode d5 d6 d7 (s.stamp isl)

/-- Send an event to both managers. -/
def sendManagers (s : State) (isl evCode d5 d6 d7 : Nat) : State :=
  sendEvent (sendEvent s isl 0 evCode d5 d6 d7) isl 1 evCode d5 d6 d7

/-- Send an event to an optional receiver; an event with no receiver is dropped. -/
def sendTo (s : State) (isl : Nat) (fn : Option Nat) (evCode d5 d6 d7 : Nat) : State :=
  match fn with
  | some f => sendEvent s isl f evCode d5 d6 d7
  | none => s

/-- Move waiting completions into freed entries, oldest first (R76). -/
def flushHeld (s : State) (fn q : Nat) : Nat → State
  | 0 => s
  | n + 1 =>
    match (s.que fn q).held with
    | [] => s
    | h :: r =>
      if s.cqFull fn q then s
      else flushHeld (writeEntry (s.modQ fn q fun c => { c with held := r }) fn q h) fn q n

/-! ### Fences (R79-R81) -/

def fkey (fn n : Nat) : Nat := 4096 * fn + n
def State.fence (s : State) (fn n : Nat) : Nat := look s.fab.fence (fkey fn n) 0
def State.setFence (s : State) (fn n v : Nat) : State :=
  let k := fkey fn n
  { s with fab := { s.fab with
      fence := put s.fab.fence k v, fenceAt := put s.fab.fenceAt k s.dt
      fenceWas := if look s.fab.fenceAt k 0 = s.dt then s.fab.fenceWas else put s.fab.fenceWas k (s.fence fn n) } }

/-- The value a fence showed before this instant (R190, R44). -/
def State.fenceBefore (s : State) (fn n : Nat) : Nat :=
  if look s.fab.fenceAt (fkey fn n) 0 < s.dt then s.fence fn n else look s.fab.fenceWas (fkey fn n) 0

/-- Set a fence to a greater value, or raise FENCE_REGRESS (R81). -/
def signalFence (s : State) (fn n v : Nat) : State :=
  if s.fence fn n < v then s.setFence fn n v else sendEvent s 2 fn 7 n 0 0

/-! ### Commands in flight -/

end Sys2Proof.Machine

namespace Sys2Proof

/-- Word i of a command's descriptors, a field of it, a bit of it, and words i and i + 1 as 64 bits (Table 02.4). -/
def Cmd.w (c : Cmd) (i : Nat) : Nat := Machine.wordAt c.words i
def Cmd.f (c : Cmd) (i lo n : Nat) : Nat := Machine.bits (c.w i) lo n
def Cmd.b (c : Cmd) (i k : Nat) : Bool := Machine.bit (c.w i) k
def Cmd.d (c : Cmd) (i : Nat) : Nat := Machine.word64 c.words i

end Sys2Proof

namespace Sys2Proof.Machine

/-- Table 02.8. -/
def stOk : Nat := 0
def stLate : Nat := 1
def stAbandoned : Nat := 2
def stTimedOut : Nat := 3
def stHeld : Nat := 4
def stDenied : Nat := 5
def stMalformed : Nat := 6
def stNoResource : Nat := 7
def stTorn : Nat := 8
def stIslandReset : Nat := 9
def stMemFrozen : Nat := 10
def stPartLost : Nat := 11
def stQuarantined : Nat := 12

/-- The signal of a command is valid (R81). -/
def State.signalOk (s : State) (c : Cmd) : Bool :=
  c.b 6 31 && c.f 6 0 20 < (s.fnc c.fn).grant.fences && s.accepts c.fn 2

/-- End a command: set its signal, write its completion, count it for a quiesce (R74, R81, R100, R101). -/
def finishCmd (s : State) (c : Cmd) (status : Nat) (pay : List Nat) (stamp : Time) : State :=
  let fn := c.fn.val
  if !s.up 2 || (fn ≥ 2 && (s.fnc fn).state = 5) then s
  else
    let s1 := if status ≠ stAbandoned && s.signalOk c then signalFence s fn (c.f 6 0 20) (c.d 8) else s
    let s2 := if status = stOk && c.b 0 16 then s1
      else postEntry s1 fn c.q ⟨c.w 1, status, stamp, pay, c.b 0 17⟩
    s2.modFn fn fun f => { f with quiesce := f.quiesce.map fun z =>
      if status = stAbandoned then { z with abandoned := z.abandoned + 1 } else { z with done := z.done + 1 } }

/-- The empty completion payload. -/
def noPay : List Nat := [0, 0, 0, 0]

def State.flight? (s : State) (id : Nat) : Option Flight := s.flights.find? (·.id = id)

/-- Complete a command in flight with a stamp of the island that finished it. -/
def completeAt (s : State) (id status : Nat) (pay : List Nat) (stamp : Time) : State :=
  match s.flight? id with
  | none => s
  | some fl => finishCmd { s with flights := s.flights.filter (·.id ≠ id) } fl.cmd status pay stamp

def complete (s : State) (id status : Nat) (pay : List Nat) : State :=
  match s.flight? id with
  | none => s
  | some fl => completeAt s id status pay (s.stamp fl.isl)

/-- Complete each of a list of commands. -/
def completeAll (s : State) (ids : List Nat) (status : Nat) (pay : List Nat) : State :=
  ids.foldl (fun s id => complete s id status pay) s

/-- The payload of a FLIP that ends before its turn: the latches it was passed over at, and the frame and latch of one
already applied; empty for any other command (R196). -/
def State.flipPay (s : State) (id : Nat) : List Nat :=
  ((List.range 12).findSome? fun h =>
    match (s.head h).done.find? (·.flight = id) with
    | some e => some e.pay
    | none => ((s.head h).pend.find? (·.flight = id)).map fun p => [0, p.passed, 0, 0]).getD noPay

/-- End each of a list of commands before it has done its work, by abandonment or a reset of its island. -/
def endAll (s : State) (ids : List Nat) (status : Nat) : State :=
  ids.foldl (fun s id => complete s id status (s.flipPay id)) s

/-- Forget commands in flight without a completion (R104, R642). -/
def State.forget (s : State) (p : Flight → Bool) : State := { s with flights := s.flights.filter fun f => !p f }

/-! ### The system alarm and Watchlamp's generation count (R279, R285, R289) -/

def bumpGen (s : State) : State := s.modWl fun w => { w with gen := (w.gen + 1) % 65536 }

/-- ALMOUT_N follows the rules and the system alarm once rules are evaluated (R289). -/
def updAlmout (s : State) : State :=
  if !s.wl.evaluated || s.wl.frozen || s.pwr.shut then s
  else
    let any := match s.img with
      | some im => im.rules.any fun e => e.2.almout && (s.ruleSt e.1).state ≠ 0
      | none => false
    s.modWl fun w => { w with almout := w.running && (any || w.sysAlarm) }

/-- The system alarm is about to change at this instant (R286). -/
def noteSys (s : State) : State :=
  s.modWl fun w => { w with sysWas := if w.sysMoved = s.dt then w.sysWas else w.sysAlarm, sysMoved := s.dt }

/-- The cadence of a tone is in its on phase at a sample: it starts with it, and TG3 sounds without one after a FATAL fault
(R286, R568). -/
def State.toneGate (s : State) (n k : Nat) : Bool :=
  match s.img with
  | none => false
  | some im =>
    let c := im.tones.toList.getD n ⟨0, 0, 0, 0⟩
    (n = 3 && s.wl.frozen) || c.onMs + c.offMs = 0 || k % (48 * (c.onMs + c.offMs)) < 48 * c.onMs

/-- The envelope of a tone at a sample, in 64ths: ramps of 64 samples from what sounded when it started or stopped (R286). -/
def State.toneEnv (s : State) (n k : Nat) : Nat :=
  let x := look s.wl.tones n {}
  let r := min (k - x.since + 1) 64
  if x.on then (if s.toneGate n (k - x.since) then x.env + (64 - x.env) * r / 64 else 0) else x.env * (64 - r) / 64

/-- A tone starts or stops now, from what sounds (R286). -/
def setTone (s : State) (n : Nat) (on : Bool) : State :=
  if (look s.wl.tones n {}).on = on then s
  else s.modWl fun w => { w with tones := put w.tones n { on := on, since := s.audio.sample, env := s.toneEnv n s.audio.sample } }

/-- Raise the system alarm; a raise while it is unacknowledged changes nothing (R285). -/
def raiseSysAlarm (s : State) : State :=
  if s.wl.sysAlarm || s.wl.frozen then s
  else updAlmout (bumpGen ((noteSys s).modWl fun w => { w with sysAlarm := true, sysSince := s.dt }))

/-! ### Faults (R554-R568) -/

/-- The class of a fault code (Tables 14.1 and 14.2); `loss` is the condition that makes it CLASS_A_LOSS:
0 CORRECTED, 1 DEGRADED, 2 CLASS_A_LOSS, 3 FATAL. -/
def faultClass (isl src : Nat) (loss : Bool) : Nat :=
  if src = 0x01 || src = 0x03 || src = 0x08 then 0
  else if src = 0x02 then (if isl ≤ 1 then 3 else 1)
  else if src = 0x07 then 3
  else if src = 0x04 || src = 0x0B then (if loss then 2 else 1)
  else if isl = 1 && (src = 0x10 || src = 0x11) then 3
  else if isl = 1 && src = 0x15 then 0
  else if (isl = 1 && src = 0x13) || ((isl = 10 || isl = 11) && src = 0x10) then (if loss then 2 else 1)
  else 1

/-- The hardware response to a FATAL fault of island 1 (R568). -/
def fatalResponse (s : State) : State :=
  (setTone s 3 true).modWl (fun w => { w with frozen := true, almout := true }) |>.modFlt fun f =>
    { f with wick := false, wickOn := false, coresUp := false, pin := true }

/-- An entry that became visible in Watch cycle `now` and that the true order puts after a fault (R557, R47). -/
def LogEntry.after (e : LogEntry) (now : Time) (fc : Nat) (stamp : Time) : Bool :=
  e.seen = now && (stamp < e.stamp || (stamp = e.stamp && fc < e.code))

/-- The log before a fault of Watch cycle `now`, and the entries of that cycle that come after it (R557). -/
def splitLog (l : List LogEntry) (now : Time) (fc : Nat) (stamp : Time) : List LogEntry × List LogEntry :=
  let late := (l.reverse.takeWhile fun e => e.after now fc stamp).reverse
  (l.take (l.length - late.length), late)

/-- Insert a log entry in its place (R557, R558). -/
def logInsert (f : Faults) (e : LogEntry) : Faults :=
  let put := fun (l : List LogEntry) => (splitLog l e.seen e.code e.stamp).1 ++ e :: (splitLog l e.seen e.code e.stamp).2
  if f.log.length < 64 then { f with log := put f.log }
  else match f.log.findIdx? (·.cls = 1) with
    | some i => { f with log := put (f.log.eraseIdx i) }
    | none => { f with lost := satInc f.lost 0xFFFF }

/-- The entry before a fault in the log makes it a repeat (R559). -/
def State.isRepeat (s : State) (fc : Nat) (stamp : Time) : Bool :=
  match (splitLog s.flt.log (s.stamp 1) fc stamp).1.getLast? with
  | some e => e.code = fc && e.stamp ≤ stamp && stamp < e.stamp + ms
  | none => false

/-- That entry counts one repeat more, and is open again if the cause of the repeat lasts. -/
def repeatNewest (f : Faults) (now : Time) (fc : Nat) (stamp : Time) (opn : Bool) : Faults :=
  let p := splitLog f.log now fc stamp
  match p.1.getLast? with
  | some e => { f with log := p.1.dropLast ++ { e with rep := satInc e.rep 0xFF, open_ := e.open_ || opn } :: p.2 }
  | none => f

/-- FAULT_RAISED goes to both managers and the safety guest (R591). -/
def faultEvents (s : State) (fc cls opn : Nat) (stamp : Time) : State :=
  let s1 := sendEventAt (sendEventAt s 0 0x0F84 fc cls opn stamp) 1 0x0F84 fc cls opn stamp
  match s.img with
  | some im => sendEventAt s1 im.safetyFn 0x0F84 fc cls opn stamp
  | none => s1

/-- A fault of class CORRECTED is counted for its island, WCH_FLT_CORR (Table 14.3). -/
def countCorrected (s : State) (isl : Nat) : State :=
  s.modFlt fun f => { f with corr := put f.corr isl (satInc (look f.corr isl 0) 0xFFFFFFFF) }

/-- Record a fault in its class (R555-R564): `loss` as in `faultClass`. -/
def reportAt (s : State) (isl src : Nat) (loss : Bool) (stamp : Time) : State :=
  let fc := 256 * isl + src
  let cls := faultClass isl src loss
  if cls = 0 then countCorrected s isl
  else
    let opn := cls = 2
    let rep := s.isRepeat fc stamp
    let s1 := if rep then s.modFlt (repeatNewest · (s.stamp 1) fc stamp opn)
      else s.modFlt fun f => logInsert f { code := fc, cls := cls, stamp := stamp, open_ := opn, seen := s.stamp 1 }
    let s2 := if cls = 2 then
        raiseSysAlarm (s1.modFlt fun f => { f with pin := true, needAck := true, lossAt := some (s.stamp 1), lossOut := f.lossOut ++ [fc] })
      else if cls = 3 then s1.modFlt fun f => { f with pin := true, fatal := true }
      else s1
    let s3 := if cls = 3 && isl = 1 && src ≠ 0x07 then fatalResponse s2 else s2
    if rep then s3 else faultEvents s3 fc cls (b2n opn) stamp

/-- Record a fault stamped in the island where it arose (R41, R556). -/
def report (s : State) (isl src : Nat) (loss : Bool := false) : State := reportAt s isl src loss (s.stamp isl)

/-- FAULT_N is released once no loss is open and the alarm is acknowledged (R561-R564). -/
def updFaultPin (s : State) : State :=
  if s.flt.kicked && !s.flt.fatal && !s.flt.needAck && s.flt.lossOut = [] then s.modFlt fun f => { f with pin := false }
  else s

/-- The cause of a CLASS_A_LOSS ends: its entries close (R560, R563). -/
def closeLoss (s : State) (fc : Nat) : State :=
  updFaultPin (s.modFlt fun f => { f with
    lossOut := f.lossOut.filter (· ≠ fc)
    log := f.log.map fun e => if e.code = fc then { e with open_ := false } else e })

/-- One of the causes under a code ends: its entries close when none of them lasts (R560, R563). -/
def closeOneLoss (s : State) (fc : Nat) : State :=
  if (s.flt.lossOut.erase fc).contains fc then s.modFlt fun f => { f with lossOut := f.lossOut.erase fc }
  else closeLoss s fc

/-- Acknowledge the system alarm (R282, R284, R563): a CLASS_A_LOSS recorded in the same Watch cycle is later, and raises
it again. -/
def ackSysAlarm (s : State) : State :=
  if !s.wl.sysAlarm then s
  else
    let s1 := updAlmout (bumpGen (((noteSys s).modWl fun w => { w with sysAlarm := false }).modFlt fun f => { f with needAck := false }))
    if s.flt.lossAt = some (s.stamp 1) then raiseSysAlarm (s1.modFlt fun f => { f with needAck := true }) else updFaultPin s1

/-! ### World violations, claims, drops -/

/-- Count and report a world violation (R520). -/
def worldViolation (s : State) (isl ini : Nat) : State :=
  report (s.modLan fun l => { l with viol := satInc l.viol 0xFFFFFF, violId := ini }) isl 0x03

/-- A claim covers a target (R532, Table 13.6). -/
def State.claimed (s : State) (tgt : Nat) : Bool := s.lan.claims.any fun c => c.2.valid && c.2.target = tgt

/-- A normal-world request on a claimed target is refused and counted (R533). -/
def State.heldBack (s : State) (fn tgt : Nat) : Bool := !(s.fnc fn).secure && s.claimed tgt

def countRefused (s : State) (ini : Nat) : State :=
  s.modLan fun l => { l with refused := satInc l.refused 0xFFFFFF, refusedId := ini }

/-- A PF may write a register group: the image grants it (R55). -/
def State.mayWrite (s : State) (fn grp : Nat) : Bool :=
  match s.img with
  | some im => (fn = 0 && (im.pfWrite.get 0).contains grp) || (fn = 1 && (im.pfWrite.get 1).contains grp)
  | none => false

/-- A write to a group window without write access is dropped and counted (R55). -/
def State.dropGroup (s : State) : State := { s with grpDrop := s.grpDrop + 1 }

/-- A function's registers answer: the Host island runs and the port is ready (R576, R607, R642). -/
def State.reach (s : State) (fn : Nat) : Bool :=
  s.up 2 && (s.port (s.portOf fn)).ready && (fn < 2 || (s.fnc fn).sriov || (s.fnc fn).state ≠ 0)

/-- The function is in the world that passes secure filters (R519). -/
def State.isSecure (s : State) (ini : Nat) : Bool :=
  if ini < 64 then (s.fnc ini).secure else ini = 0x40 || ini = 0x41

/-- A head's registers may be written by its owner or the Watch island (R154). -/
def State.ownsHead (s : State) (fn h : Nat) : Bool := s.headOwner h = some fn

def State.dropHead (s : State) : State := { s with hdDrop := s.hdDrop + 1 }

/-! ### Performance counters under secure work (R537, R538) -/

/-- The islands whose performance counters an island shares: the four Chandelier islands count together. -/
def perfIslands (i : Nat) : List Nat := if 6 ≤ i && i ≤ 9 then [6, 7, 8, 9] else [i]

/-- Work of a function becomes active in an island: a secure one holds the island's performance counters (R538). -/
def holdPerf (s : State) (i fn : Nat) : State :=
  if s.isSecure fn then (perfIslands i).foldl (fun s k => s.modIsl k fun x => { x with perfHold := true }) s else s

/-- The performance counters of an island hold their values (R538). -/
def State.perfHeld (s : State) (i : Nat) : Bool := (perfIslands i).any fun k => (s.island k).perfHold

/-- A function has work active in an island: a command that executes there, or an enabled layer slot (R537). -/
def State.workIn (s : State) (i fn : Nat) : Bool :=
  (s.flights.any fun f => f.stage = 1 && (perfIslands i).contains f.isl && f.cmd.fn.val = fn) ||
  (s.slots.any fun e => e.2.layer.enable && mantleOf e.2.head = i && e.2.fn = fn)

/-- VF_STATE goes to the manager of the VF's port at every change (R96). -/
def setFnState (s : State) (fn new : Nat) : State :=
  let old := (s.fnc fn).state
  if old = new then s
  else
    let s0 := s.modFn fn fun f => { f with state := new }
    let s1 := if new = 2 && s.isSafety fn then s0.modWl fun w => { w with hbFirst := true } else s0
    if s.portOf fn < 2 then sendEvent s1 2 (s.portOf fn) 3 fn old new else s1

/-- The Watch cores run: after a FATAL fault nothing is updated, evaluated or acknowledged (R568). -/
def State.watchUp (s : State) : Bool := s.flt.coresUp && !s.wl.frozen

end Sys2Proof.Machine
end

