-- ==== Sys2Proof/Machine/Dram.lean ====
section
/-! DEFINITION. Device memory: partitions and their placement (R57, R58, R91, R343-R346), the issuer's memory
(R56), reads and writes of data bytes with their check bytes (R344, R345, R348, R356), partition fills. -/

namespace Sys2Proof.Machine

/-- 64 MiB. -/
def unit64 : Nat := 67108864

/-- The channels of a partition, lowest first. -/
def Part.chans (p : Part) : List Nat := maskList p.mask 8

/-- The channels a partition still includes: those that have not failed out of it (R340, R341). -/
def Part.live (p : Part) : List Nat := p.chans.filter fun c => !p.gone.testBit c

/-- Raw bytes of a partition on each of its channels (S of R344). -/
def Part.perChan (p : Part) : Nat := p.size / p.chans.length * unit64

/-- Usable bytes: seven eighths of the raw size (chapter 2, Register space). -/
def Part.usable (p : Part) : Nat := p.size * unit64 / 8 * 7

/-- The device address of usable offset `a` (R344): bits [36:34] channel, [33:0] local offset. -/
def Part.devAddr (p : Part) (a : Nat) : Nat :=
  let n := p.chans.length
  let u := a / 256
  p.chans.getD (u % n) 0 * 2 ^ 34 + p.base * unit64 + u / n * 256 + a % 256

/-- The device address of the check byte of the data word at a local offset of a channel (R345). -/
def Part.chkAddr (p : Part) (da : Nat) : Nat :=
  let d := da % 2 ^ 34 / 8 * 8
  let b := p.base * unit64
  da / 2 ^ 34 * 2 ^ 34 + b + 7 * p.perChan / 8 + (d - b) / 8

/-- The partitions a function reaches, in ascending MP order: a VF's granted ones (R56), a PF's own ungranted
ones, each placed only if it fits below 64 GiB (R57, R58). -/
def State.window (s : State) (fn : Nat) : List Nat :=
  if fn < 2 then
    ((List.range 16).foldl (fun (acc : List Nat × Nat) p =>
      let x := s.part p
      if x.state ≠ 0 && x.creator = fn && x.holder = fn then
        if acc.2 + x.usable ≤ 2 ^ 36 then (acc.1 ++ [p], acc.2 + x.usable) else acc
      else acc) ([], 0)).1
  else (List.range 16).filter fun p => (s.fnc fn).grant.mpMask.testBit p && (s.part p).state ≠ 0 && (s.fnc fn).state ≠ 0

/-- The size of the mapped part of a function's memory. -/
def State.mapped (s : State) (fn : Nat) : Nat := (s.window fn).foldl (fun n p => n + (s.part p).usable) 0

/-- The partition and usable offset of an offset in a list of partitions placed end to end. -/
def placeIn (s : State) : List Nat → Nat → Option (Nat × Nat)
  | [], _ => none
  | p :: r, a => if a < (s.part p).usable then some (p, a) else placeIn s r (a - (s.part p).usable)

/-- The partition and usable offset of an offset in the issuer's memory (R56, R57). -/
def State.place (s : State) (fn a : Nat) : Option (Nat × Nat) := placeIn s (s.window fn) a

/-- The stored word at a device address of a partition, as its SECDED code reads it (R357). -/
def Part.word (p : Part) (m : List Host.Cell) (da : Nat) : Ecc :=
  eccRead (leNat (readBytes m (da / 8 * 8) 8)) (readByte m (p.chkAddr da)).toNat

/-- The data byte a read returns, corrected where its word can be (R357, R358). -/
def Part.dataByte (p : Part) (m : List Host.Cell) (da : Nat) : Byte :=
  if leNat (readBytes m (da / 8 * 8) 8) = 0 && readByte m (p.chkAddr da) = 0 then 0
  else match p.word m da with
    | .fixed d _ => BitVec.ofNat 8 (d / 256 ^ (da % 8))
    | _ => readByte m da

/-- A byte of the issuer's memory: zero beyond the mapped part (R57) and in a lost partition (R366). -/
def memByte (s : State) (fn a : Nat) : Byte :=
  match s.place fn a with
  | some (p, o) =>
    if (s.part p).state = 2 || (s.part p).state = 4 then (s.part p).dataByte s.mem.dram ((s.part p).devAddr o) else 0
  | none => 0

def memRead (s : State) (fn a n : Nat) : List Byte := (List.range n).map fun i => memByte s fn (a + i)

/-- A number read from the issuer's memory, little-endian. -/
def memNat (s : State) (fn a n : Nat) : Nat := leNat (memRead s fn a n)

/-- The range lies in the issuer's memory. -/
def State.inMem (s : State) (fn a n : Nat) : Bool := a + n ≤ s.mapped fn

/-- A partition the range touches is marked lost (R366). -/
def State.touchesLost (s : State) (fn a n : Nat) : Bool :=
  (s.window fn).any fun p => (s.part p).state = 3 &&
    (match (List.range 16).find? fun k => k = p with
      | some _ =>
        let before := ((s.window fn).takeWhile (· ≠ p)).foldl (fun m k => m + (s.part k).usable) 0
        a < before + (s.part p).usable && before < a + n
      | none => false)

/-- A line is in the memory-side cache. -/
def State.cached (s : State) (line : Nat) : Bool := s.mem.lines.any fun (e : Nat × Bool) => e.1 = line

/-- A request for a device address is answered: its channel is READY, or is frozen with the line in the memory-side
cache (R337, R350, R361). -/
def State.answers (s : State) (da : Nat) : Bool :=
  let c := s.chan (da / 2 ^ 34)
  c.state = 2 || (c.state = 3 && s.cached (da / 128))

/-- Two lines compete for the sixteen ways of one set: the half of their memory island, and the set of the half that
their address selects (chapter 8, Visibility; notes/assumptions/169.md). -/
def sameSet (a b : Nat) : Bool :=
  (a / 2 ^ 27 / 4 == b / 2 ^ 27 / 4) && (Config.cacheSet a % 8192 == Config.cacheSet b % 8192)

/-- A line enters the memory-side cache. In a full set it takes the way of a victim, which is no line of a frozen channel
while another way is free of such lines (R361); among those it is a free one. -/
def takeLine (s : State) (line : Nat) (dirty : Bool) : State :=
  if s.cached line then s.modMem fun m => { m with lines := put m.lines line (look m.lines line false || dirty) }
  else
    let ways := (s.mem.lines.filter fun (e : Nat × Bool) => sameSet e.1 line).map (·.1)
    if ways.length < 16 then s.modMem fun m => { m with lines := put m.lines line dirty }
    else
      let thawed := ways.filter fun l => (s.chan (l / 2 ^ 27)).state ≠ 3
      let from_ := if thawed = [] then ways else thawed
      let victim := from_.getD (s.free % from_.length) 0
      (s.modMem fun m => { m with lines := put (dropKeys m.lines (· = victim)) line dirty }).drawn

/-- The first channel that does not answer among those under a range of the issuer's memory. -/
def State.stallAt (s : State) (fn a n : Nat) : Option Nat :=
  if n = 0 then none
  else ((List.range ((a + n - 1) / 128 - a / 128 + 1)).filterMap fun i =>
    match s.place fn (max a ((a / 128 + i) * 128)) with
    | some (p, o) =>
      let da := (s.part p).devAddr o
      if (s.part p).state ≠ 3 && !s.answers da then some (da / 2 ^ 34) else none
    | none => none).head?

/-- The length of a fabric window, of a value of FAB_TIMEOUT. -/
def fabWindow (v : Nat) : Time := (if v = 0 then 20 else min v 1000) * 100 * us

/-- The end of the fabric window of a request issued at an instant: FAB_TIMEOUT applies to requests issued after its
write (R350). -/
def State.fabEnd (s : State) (issue : Time) : Time :=
  issue + fabWindow (if issue < s.fab.toAt then s.fab.toWas else s.fab.timeout)

/-- The end of the fabric window of a request issued now (R350, FAB_TIMEOUT). -/
def State.fabLimit (s : State) : Time := s.dt + fabWindow s.fab.timeout

/-- A command in flight waits for a channel until its window closes; `put` is the write it has left to do, with its
payload, where it is not run again once the channel answers. -/
def waitChan (s : State) (id c : Nat) (put : Option (Nat × List Byte × List Nat) := none) : State :=
  s.modMem fun m => { m with waits := m.waits ++ [{ flight := id, chan := c, limit := s.fabLimit, put := put }] }

/-! ### Freeze (R360) -/

/-- The memory island of a channel (R334). -/
def memIsl (c : Nat) : Nat := if c < 4 then 4 else 5

/-- A write of less than whole 64-bit words: the controller reads before it writes (R359). -/
def narrowReq (r : MemReq) : Bool := r.write && (r.addr % 8 != 0 || r.data.length % 8 != 0)

/-- COMMAND of MEM_FRZ_INFO. -/
def frzCommand (r : MemReq) : Nat := if r.wback then 2 else if narrowReq r then 1 else 0

/-- Entry `i` of a queue dump as MEM_FRZ_QDATA shows it. -/
def dumpWord (r : MemReq) : Nat := 1 + 2 * b2n r.write + 4 * (r.source % 256) + 2 ^ 10 * (r.row % 2 ^ 22)

/-- The dump of the bank queues: entry 8 x bank + position. -/
def queueDump (ch : Chan) : Tbl Nat :=
  (List.range 16).flatMap fun b =>
    ((look ch.banks b {}).queue.zipIdx).map fun (e : MemReq × Nat) => (8 * b + e.2, dumpWord e.1)

/-- A channel freezes on the read of a request, with syndrome `syn` (R360); a scrub that runs on it stops where it
stands and ends at its fabric timeout (R372). -/
def freezeChan (s : State) (c : Nat) (r : MemReq) (syn : Nat) : State :=
  let a := r.addr / 8 * 8
  let s1 := s.modChan c fun x => { x with
    state := 3, freezes := satInc x.freezes 0xFFFF, frzAddr := a, frzSyn := syn, frzSrc := r.source % 256
    frzSec := r.secure, frzCmd := frzCommand r, frzBank := r.bank.val
    frzQ := (List.range 16).foldl (fun n b => n + (look x.banks b {}).queue.length) 0
    qdump := queueDump x, frozeAt := s.dt, scrub := x.scrub.map fun k => { k with limit := some s.fabLimit } }
  sendManagers (report s1 (memIsl c) 0x10) (memIsl c) 0x0F80 c (syn + 256 * (r.source % 256)) (lo32 a)

/-! ### Reads and writes of the issuer's memory (R348, R358, R359) -/

/-- A write to the word of a device address is queued at its controller (R358). -/
def State.writeQueued (s : State) (da : Nat) : Bool :=
  s.mem.reqs.any fun (e : MemReq × Time) => e.1.write && e.1.addr / 8 = da / 8

/-- Write a word and its check byte at a device address. -/
def Part.store (p : Part) (m : List Host.Cell) (da data chk : Nat) : List Host.Cell :=
  writeByte (writeBytes m (da / 8 * 8) (leBytes 8 data)) (p.chkAddr da) (BitVec.ofNat 8 chk)

/-- The controller reads the word that holds an offset of the issuer's memory, unless its line is in the cache: a
correctable error is corrected, written back and counted (R358), an uncorrectable one freezes the channel (R360), with
a free bank. -/
def readWord (s : State) (fn a : Nat) (merge : Bool) : State :=
  match s.place fn a with
  | none => s
  | some (p, o) =>
    let x := s.part p
    let da := x.devAddr o
    let c := da / 2 ^ 34
    if (x.state ≠ 2 && x.state ≠ 4) || s.cached (da / 128) || (s.chan c).state ≠ 2 then s
    else match x.word s.mem.dram da with
      | .clean => s
      | .fixed d k =>
        let s1 := s.modChan c fun y => { y with ecc := satInc y.ecc 0xFFFFFFFF }
        if s.writeQueued da then s1 else s1.modMem fun m => { m with dram := x.store m.dram da d k }
      | .bad syn =>
        let r : MemReq := { id := 0, source := fn, secure := s.isSecure fn, write := merge, wback := false, addr := da
                            bank := Fin.ofNat 16 s.free, row := 0, issue := s.dt, data := if merge then [0] else [] }
        freezeChan s.drawn c r syn

/-- The offsets of the words under a range of the issuer's memory: its first byte, then the start of every later word. -/
def wordsOf (a n : Nat) : List Nat :=
  if n = 0 then [] else (List.range ((a + n - 1) / 8 - a / 8 + 1)).map fun i => max a ((a / 8 + i) * 8)

/-- The offsets of the lines under a range of the issuer's memory. -/
def linesOf (a n : Nat) : List Nat :=
  if n = 0 then [] else (List.range ((a + n - 1) / 128 - a / 128 + 1)).map fun i => max a ((a / 128 + i) * 128)

/-- The line of an offset enters the cache, clean, once it has been read. -/
def readLine (s : State) (fn a : Nat) : State :=
  match s.place fn a with
  | some (p, o) => if s.answers ((s.part p).devAddr o) then takeLine s ((s.part p).devAddr o / 128) false else s
  | none => s

/-- Read a range of the issuer's memory through the cache. -/
def readRange (s : State) (fn a n : Nat) : State :=
  (linesOf a n).foldl (fun s b => readLine s fn b) ((wordsOf a n).foldl (fun s b => readWord s fn b false) s)

/-- Let a command in flight read and write ranges of the issuer's memory: a lost partition ends it (R366), a channel that
does not answer, or that freezes on the read, makes it wait for its fabric timeout (R350, R361). -/
def withMem (s : State) (f : Flight) (reads writes : List (Nat × Nat)) (k : State → State) : State :=
  let fn := f.cmd.fn.val
  let stall := fun (s : State) => ((reads ++ writes).filterMap fun r => s.stallAt fn r.1 r.2).head?
  if (reads ++ writes).any fun r => s.touchesLost fn r.1 r.2 then complete s f.id stPartLost noPay
  else match stall s with
    | some c => waitChan s f.id c
    | none =>
      let s1 := reads.foldl (fun s r => readRange s fn r.1 r.2) s
      match stall s1 with
      | some c => waitChan s1 f.id c
      | none => k s1

/-- Write one data byte at a device address and the check byte of its word (R345, R356). -/
def writeDev (m : List Host.Cell) (p : Part) (da : Nat) (v : Byte) : List Host.Cell :=
  let m1 := writeByte m da v
  writeByte m1 (p.chkAddr da) (BitVec.ofNat 8 (checkByte (leNat (readBytes m1 (da / 8 * 8) 8))))

/-- Write a byte of the issuer's memory through the memory-side cache (R348): dropped beyond the mapped part
(R57) and in a lost partition (R366); where the channel does not answer the write waits and is not accepted (R361). -/
def memPut (s : State) (fn a : Nat) (v : Byte) : State :=
  match s.place fn a with
  | some (p, o) =>
    let x := s.part p
    if x.state = 2 && s.answers (x.devAddr o) then
      takeLine (s.modMem fun m => { m with dram := writeDev m.dram x (x.devAddr o) v }) (x.devAddr o / 128) true
    else s
  | none => s

/-- Write bytes of the issuer's memory from an offset on, byte by byte. -/
def memPuts (s : State) (fn a : Nat) : List Byte → State
  | [] => s
  | v :: r => memPuts (memPut s fn a v) fn (a + 1) r

/-- Write bytes of the issuer's memory from an offset on: the words at its ends that it fills in part are read first
(R359). -/
def memWrite (s : State) (fn a : Nat) (l : List Byte) : State :=
  let e := a + l.length
  let s1 := if l ≠ [] && (a % 8 ≠ 0 || e < a / 8 * 8 + 8) then readWord s fn a true else s
  let s2 := if l ≠ [] && e % 8 ≠ 0 && (e - 1) / 8 ≠ a / 8 then readWord s1 fn (e - 1) true else s1
  memPuts s2 fn a l

/-- A command in flight writes bytes of the issuer's memory and completes OK; where a channel does not answer it waits with
them (R350, R361). -/
def withWrite (s : State) (f : Flight) (a : Nat) (l : List Byte) (pay : List Nat) : State :=
  let fn := f.cmd.fn.val
  if s.touchesLost fn a l.length then complete s f.id stPartLost noPay
  else match s.stallAt fn a l.length with
    | some c => waitChan s f.id c (some (a, l, pay))
    | none => complete (memWrite s fn a l) f.id stOk pay

/-- Zero the raw range of a partition on every channel, data and check bytes (R346), and drop its cached lines (R349). -/
def fillDram (m : Mem) (p : Part) : Mem :=
  p.live.foldl (fun m c =>
    let a := c * 2 ^ 34 + p.base * unit64
    { m with dram := zeroRange m.dram a p.perChan
             lines := dropKeys m.lines fun l => a ≤ l * 128 && l * 128 < a + p.perChan }) m

/-- Start a fill of a partition (R346); `after` is the STATE that follows, `fl` the command that waits. -/
def startFill (s : State) (p after : Nat) (fl : Option Nat) : State :=
  (s.modMem fun m => fillDram m (s.part p)).modPart p fun x =>
    { x with state := if after = 2 || x.state = 1 then 1 else x.state, filling := true, after := after, flight := fl, unfill := false }

/-- Mark a partition lost (R351, R364, R640): a quarantined one stays quarantined. -/
def markLost (s : State) (p : Nat) (unfilled : Bool) : State :=
  s.modPart p fun x => { x with state := if x.state = 4 then 4 else 3, unfill := unfilled }

/-- PARTITION_LOST to the holder of a partition (R648). -/
def lostEvent (s : State) (p c : Nat) : State := sendEvent s 3 (s.part p).holder 5 p c 0

/-- Mark partitions lost and tell their holders, once each (R648); one already lost stays as it is. -/
def loseParts (s : State) (ps : List Nat) (chan : Nat → Nat) (unfilled : Bool) : State :=
  ps.foldl (fun s p => if (s.part p).state = 0 || (s.part p).state = 3 then s else lostEvent (markLost s p unfilled) p (chan p)) s

/-- The partitions that exist and include a channel. -/
def State.partsOn (s : State) (c : Nat) : List Nat :=
  (List.range 16).filter fun p => (s.part p).state ≠ 0 && (s.part p).live.contains c

/-- A channel is in service for partitions (R340, R341). -/
def State.chanOk (s : State) (c : Nat) : Bool := (s.chan c).state ≠ 0 && (s.chan c).state ≠ 5

/-- Destroy every pipeline of every function and tell those that held one (R364, Table 08.6). -/
def losePipelines (s : State) (c : Nat) : State :=
  let fns := (List.range 64).filter fun f => s.chand.pipes.any (·.fn = f)
  fns.foldl (fun s f => sendEvent s 4 f 0x0F82 c 0 0) (s.modChand fun x => { x with pipes := [] })

end Sys2Proof.Machine
end

