-- ==== Sys2Proof/Machine/Operands.lean ====
section
/-! DEFINITION. The operand forms of ring commands: the descriptor fields of Table 02.4, reserved fields,
opcodes and their engines (Table 02.7), grant records (Table 02.10). -/

namespace Sys2Proof

open Machine

/-- Fields of the first descriptor (Table 02.4). -/
def Cmd.op (c : Cmd) : Nat := c.f 0 0 16
def Cmd.barrier (c : Cmd) : Bool := c.b 0 18
def Cmd.chain (c : Cmd) : Nat := c.f 0 24 8
def Cmd.tag (c : Cmd) : Nat := c.w 1
def Cmd.waitValid (c : Cmd) : Bool := c.b 2 31
def Cmd.waitFence (c : Cmd) : Nat := c.f 2 0 20
def Cmd.waitValue (c : Cmd) : Nat := c.d 4
def Cmd.signalValid (c : Cmd) : Bool := c.b 6 31
def Cmd.signalFence (c : Cmd) : Nat := c.f 6 0 20
def Cmd.signalValue (c : Cmd) : Nat := c.d 8

/-- The slots a command takes: a bad CHAIN takes one (R70). -/
def Cmd.slots (c : Cmd) : Nat := if 1 ≤ c.chain ∧ c.chain ≤ 16 then c.chain else 1

/-- Bits [lo + n - 1 : lo] of word i are zero (a reserved field). -/
def Cmd.z (c : Cmd) (i lo n : Nat) : Bool := c.f i lo n == 0

/-- Words i to j are zero (reserved words). -/
def Cmd.zw (c : Cmd) (i j : Nat) : Bool := (List.range (j + 1 - i)).all fun k => c.w (i + k) == 0

/-- The reserved fields of DW0-DW9 are zero (R70, Table 02.4). -/
def Cmd.headZero (c : Cmd) : Bool := c.z 0 19 5 && c.z 2 20 11 && c.w 3 == 0 && c.z 6 20 11 && c.w 7 == 0

/-- The payload bytes: DW10-DW15 of the first descriptor and every word after it (R68). -/
def Cmd.payload (c : Cmd) : List Byte := wordBytes (c.words.drop 10)

namespace Machine

/-- The opcodes of Tables 02.7 and 02.11. -/
def knownOps : List Nat :=
  [0x0001, 0x0010, 0x0011, 0x0100, 0x0101, 0x0102, 0x0103, 0x0104, 0x0200, 0x0201, 0x0202, 0x0300, 0x0301,
   0x0302, 0x0400, 0x0401, 0x0402, 0x0500, 0x0501, 0x0502, 0x0600, 0x0601, 0x0F00, 0x0F01, 0x0F02, 0x0F03,
   0x0F04, 0x0F05, 0x0F06, 0x0F07]

/-- The ENGINE codes of Q_CFG: 0 general to 6 network, and 15 management for PFs only (R61). -/
def engineOk (fn e : Nat) : Bool := e ≤ 6 || (e = 15 && fn < 2)

/-- The grant record in a VF_CREATE command (Table 02.10). -/
def grantOf (c : Cmd) : Grant :=
  { fn := c.f 10 0 6, queues := c.f 10 16 4, mpMask := c.f 11 0 16, fences := c.f 12 0 16, chdShare := c.f 12 16 8
    chdCtx := c.f 12 24 8, headOwn := c.f 13 0 12, layerRight := c.f 13 12 12, vectors := c.f 14 0 6
    codec := c.f 14 8 8, csiMask := c.f 14 16 8, hapticMask := c.f 14 24 8, tpMask := c.f 15 0 4
    scMask := c.f 15 4 24, slotMask := c.d 16, ainMask := c.d 18 + 2 ^ 64 * c.d 20
    aoutMask := c.d 22 + 2 ^ 64 * c.w 24, netQueues := c.f 25 0 8, filters := c.f 25 8 11 }

/-- The 32 words of a grant record as the function page shows it at offset 0x4000 (Table 02.2, R650). -/
def grantWords (g : Grant) : List Nat :=
  [g.fn + 2 ^ 16 * g.queues, g.mpMask, g.fences + 2 ^ 16 * g.chdShare + 2 ^ 24 * g.chdCtx,
   g.headOwn + 2 ^ 12 * g.layerRight,
   g.vectors + 2 ^ 8 * g.codec + 2 ^ 16 * g.csiMask + 2 ^ 24 * g.hapticMask, g.tpMask + 2 ^ 4 * g.scMask,
   lo32 g.slotMask, hi32 g.slotMask, lo32 g.ainMask, hi32 g.ainMask, lo32 (g.ainMask / 2 ^ 64),
   hi32 (g.ainMask / 2 ^ 64), lo32 g.aoutMask, hi32 g.aoutMask, lo32 (g.aoutMask / 2 ^ 64),
   g.netQueues + 2 ^ 8 * g.filters]

end Machine

end Sys2Proof
end

