-- ==== Sys2Proof/Machine/Rings.lean ====
section
/-! DEFINITION. Chapter 2, rings: features (R63-R67), queues (R60-R62, R644), doorbells (R71-R73, R646), the start,
check, fence wait and execution of a command (R68-R70, R79-R85), interrupts (R83), and the general opcodes. -/

namespace Sys2Proof.Machine

/-! ### Features -/

/-- The offer of Table 02.3: feature bit `b` to function `fn`. -/
def State.offers (s : State) (fn b : Nat) : Bool :=
  let g := (s.fnc fn).grant
  let pf := decide (fn < 2)
  let secureVf := !pf && (s.fnc fn).secure
  let chd := g.chdShare != 0 || g.chdCtx != 0
  let audio := g.ainMask != 0 || g.aoutMask != 0
  (pf || (s.fnc fn).state != 0) &&
  match b with
  | 0 => true
  | 1 => true
  | 2 => true
  | 3 => g.layerRight != 0 || chd || g.codec != 0
  | 4 => chd || g.codec != 0
  | 5 => chd
  | 6 => chd
  | 7 => chd && g.layerRight != 0
  | 8 => g.csiMask != 0 && (g.headOwn != 0 || g.layerRight != 0)
  | 9 => popCount g.headOwn 12 ≥ 2
  | 10 => secureVf
  | 11 => secureVf
  | 12 => audio
  | 13 => audio
  | 14 => g.tpMask != 0
  | 15 => g.hapticMask != 0
  | 16 => g.netQueues != 0
  | 17 => s.boot.memcfg && [4, 5, 6, 7].all fun c => (s.chan c).state != 5
  | 18 => pf || secureVf
  | 19 => pf
  | _ => false

/-- The offer as a number. -/
def State.offer (s : State) (fn : Nat) : Nat := listMask ((List.range 128).filter (s.offers fn))

/-- Why an acceptance is refused, the lowest reason first (R64, FEAT_CTRL.REFUSE_REASON); 0 when it is kept. -/
def State.featReason (s : State) (fn : Nat) : Nat :=
  let a := (s.fnc fn).accept
  if (List.range 128).any fun b => a.testBit b && !s.offers fn b then 1
  else if !a.testBit 0 || (fn < 2 && !a.testBit 19) then 2
  else if (a.testBit 4 && !a.testBit 3) || (a.testBit 7 && !a.testBit 2) || (a.testBit 11 && !a.testBit 10) then 3
  else 0

/-- FEATURES_OK (R63): the driver writes 1. -/
def execFeaturesOk (t : Time) (fn : Fin 64) (s : State) : Answer :=
  let s := s.at t
  if !s.reach fn || (s.fnc fn).deciding || (s.fnc fn).featOk then .next s
  else .next (s.modFn fn fun f => { f with featOk := true, deciding := true, reason := 0 })

/-- FEATURE_DECISION (R64): the decision on the set as it stood at the write. -/
def execFeatureDecision (t : Time) (fn : Fin 64) (s : State) : Answer :=
  let s := s.at t
  if !(s.fnc fn).deciding then .next s
  else
    let r := s.featReason fn
    let s1 := s.modFn fn fun f => { f with featOk := r = 0, deciding := false, reason := r }
    .next (if r = 0 && (s.fnc fn).state = 1 then setFnState s1 fn 2 else s1)

/-! ### Queues -/

/-- Pending slots of a submission ring (R71, R72). -/
def State.pendingSlots (s : State) (fn q : Nat) : Nat :=
  let u := s.que fn q
  let n := 2 ^ u.sqLog2
  if s.accepts fn 1 then (b2n u.prodGen * n + u.prod + 2 * n - (b2n u.consGen * n + u.cons)) % (2 * n)
  else (u.prod + n - u.cons) % n

/-- The commands of a queue in flight, oldest first. -/
def State.queueFlights (s : State) (fn q : Nat) : List Flight :=
  s.flights.filter fun f => f.cmd.fn.val = fn && f.cmd.q.val = q

/-- The checks of R61 on the settings a write of ENABLE = 1 leaves. -/
def State.enableOk (s : State) (fn q : Nat) (u : Queue) : Bool :=
  u.sqBase % 4096 = 0 && u.cqBase % 4096 = 0 && 4 ≤ u.sqLog2 && u.sqLog2 ≤ 12 && 4 ≤ u.cqLog2 && u.cqLog2 ≤ 13 &&
  engineOk fn u.engine && u.vector < s.nVectors fn && (s.fnc fn).state = 2 &&
  (s.queueFlights fn q).isEmpty && u.held.isEmpty

/-- Both rings afresh (R644). The spec does not say what becomes of completions gathered toward an interrupt that has not
been sent when a queue is disabled and enabled again (R83): the model drops the count and its hold (notes/assumptions/146.md,
DESIGN CHOICE). -/
def Queue.afresh (u : Queue) : Queue :=
  { u with enable := true, cfgErr := false, cons := 0, consGen := false, prod := 0, prodGen := false, cqCons := 0,
           cqGen := false, cqW := 0, cqNext := 0, phase := true, gathered := 0, since := none }

/-- The fields of Q_CFG that a write sets while ENABLE is 0. -/
def Queue.withCfg (u : Queue) (w : Word) : Queue :=
  { u with sqLog2 := fld w 0 4, cqLog2 := fld w 4 4, engine := fld w 8 4, priority := fld w 12 4, waitTo := fld w 16 8 }

/-- QUEUE_ENABLE (R61, R62, R644): a write of Q_CFG with ENABLE = 1. -/
def execQueueEnable (t : Time) (fn : Fin 64) (q : Fin 16) (cfg : Word) (s : State) : Answer :=
  let s := s.at t
  if !s.reach fn || q.val ≥ s.nQueues fn || !cfg.getLsbD 31 then .next s
  else if (s.que fn q).enable then
    .next (s.modQ fn q fun u => { u with priority := fld cfg 12 4, waitTo := fld cfg 16 8 })
  else
    let u := (s.que fn q).withCfg cfg
    if s.enableOk fn q u then
      .next (flushLost ((s.modQ fn q fun _ => u.afresh).modFn fn fun f => { f with hostReset := false }) fn)
    else .next (s.modQ fn q fun _ => { u with cfgErr := true })

/-- QUEUE_DISABLE (R62): a write of Q_CFG with ENABLE = 0 while the queue is enabled; fetched commands go on. -/
def execQueueDisable (t : Time) (fn : Fin 64) (q : Fin 16) (cfg : Word) (s : State) : Answer :=
  let s := s.at t
  if !s.reach fn || q.val ≥ s.nQueues fn || cfg.getLsbD 31 || !(s.que fn q).enable then .next s
  else .next (s.modQ fn q fun u => { u with enable := false, priority := fld cfg 12 4, waitTo := fld cfg 16 8 })

/-! ### Doorbells -/

/-- Discard a doorbell, count it and report it (R73). -/
def discardDoorbell (s : State) (fn q : Nat) (cq : Bool) (w : Word) : State :=
  sendEvent (s.modFn fn fun f => { f with discards := satInc f.discards 0xFFFF }) 2 fn 1 (q + 2 ^ 16 * b2n cq) w.toNat 0

/-- The number of pending slots a submission doorbell would leave (R71, R72). -/
def State.doorbellSlots (s : State) (fn q index : Nat) (gen : Bool) : Nat :=
  let u := s.que fn q
  let n := 2 ^ u.sqLog2
  if s.accepts fn 1 then (b2n gen * n + index + 2 * n - (b2n u.consGen * n + u.cons)) % (2 * n)
  else (index + n - u.cons) % n

/-- SQ_DOORBELL (R71-R73, R99). A VF has queues 0-7: beyond them its page has reserved offsets (R12). -/
def execSqDoorbell (t : Time) (fn : Fin 64) (q : Fin 16) (w : Word) (s : State) : Answer :=
  let s := s.at t
  let u := s.que fn q
  let index := fld w 0 16
  let gen := w.getLsbD 16
  if !s.reach fn || (fn.val ≥ 2 && q.val ≥ 8) then .next s
  else if !u.enable || (s.fnc fn).state ≠ 2 then .next (discardDoorbell s fn q false w)
  else if index = u.prod && (!s.accepts fn 1 || gen = u.prodGen) then .next s
  else if index ≥ 2 ^ u.sqLog2 || s.doorbellSlots fn q index gen > 2 ^ u.sqLog2 then .next (discardDoorbell s fn q false w)
  else .next (s.modQ fn q fun u => { u with prod := index, prodGen := gen })

/-- The entries a completion doorbell frees (R646). -/
def State.freedEntries (s : State) (fn q index : Nat) (gen : Bool) : Nat :=
  let u := s.que fn q
  let n := 2 ^ u.cqLog2
  if s.accepts fn 1 then (b2n gen * n + index + 2 * n - (b2n u.cqGen * n + u.cqCons)) % (2 * n)
  else (index + n - u.cqCons) % n

/-- CQ_DOORBELL (R73, R76, R78, R646): entries are freed and waiting completions written. -/
def execCqDoorbell (t : Time) (fn : Fin 64) (q : Fin 16) (w : Word) (s : State) : Answer :=
  let s := s.at t
  let u := s.que fn q
  let index := fld w 0 16
  let gen := w.getLsbD 16
  if !s.reach fn || (fn.val ≥ 2 && q.val ≥ 8) then .next s
  else if !u.enable || (s.fnc fn).state ≠ 2 then .next (discardDoorbell s fn q true w)
  else if index = u.cqCons && (!s.accepts fn 1 || gen = u.cqGen) then .next s
  else if index ≥ 2 ^ u.cqLog2 || s.freedEntries fn q index gen > u.cqW then .next (discardDoorbell s fn q true w)
  else
    let n := s.freedEntries fn q index gen
    let s1 := s.modQ fn q fun u => { u with cqCons := index, cqGen := gen, cqW := u.cqW - n }
    let s2 := flushHeld s1 fn q u.held.length
    .next (if s.eventQueue fn = q.val then flushLost s2 fn else s2)

/-- IRQ_COALESCE_TIMEOUT (R83): COAL_TIME has passed since the first gathered completion. -/
def execIrqCoalesceTimeout (t : Time) (fn : Fin 64) (q : Fin 16) (s : State) : Answer :=
  let s := s.at t
  let u := s.que fn q
  match u.since with
  | some t0 =>
    if s.dt ≥ t0 + u.coalT * us then
      .next (sendIrq (s.modQ fn q fun u => { u with gathered := 0, since := none }) fn u.vector)
    else .next s
  | none => .next s

/-! ### Starting a command -/

/-- What a chapter says of one opcode: its engine, its CHAIN, its checks in the order of R85, the island that
serves it, and its execution. -/
structure OpSpec where
  op        : Nat
  engine    : Option Nat := none
  chain     : Cmd → Nat := fun _ => 1
  malformed : State → Cmd → Bool := fun _ _ => false
  denied    : State → Cmd → Bool := fun _ _ => false
  quar      : State → Cmd → Bool := fun _ _ => false
  nores     : State → Cmd → Bool := fun _ _ => false
  held      : State → Cmd → Bool := fun _ _ => false
  isl       : State → Cmd → Nat := fun _ _ => 2
  run       : State → Flight → State

/-- MALFORMED (R70, R86): unknown opcode, CHAIN, reserved field, payload field out of range. -/
def State.malformed (s : State) (p : OpSpec) (c : Cmd) : Bool :=
  c.op ≠ p.op || c.chain = 0 || c.chain > 16 || !c.headZero || c.chain ≠ p.chain c || p.malformed s c

/-- A fence number that is not granted, or fences not accepted (R66, R79, R81). -/
def State.fenceDenied (s : State) (c : Cmd) : Bool :=
  (c.waitValid && !(c.waitFence < (s.fnc c.fn).grant.fences && s.accepts c.fn 2)) ||
  (c.signalValid && !s.signalOk c)

/-- DENIED (R84, R66, R79). -/
def State.denied (s : State) (p : OpSpec) (c : Cmd) : Bool :=
  (match p.engine with
    | some e => (s.que c.fn c.q).engine ≠ e
    | none => false) || s.fenceDenied c || p.denied s c

/-- The island that serves a command is OFF or in RETENTION (R576). -/
def State.islandOut (s : State) (p : OpSpec) (c : Cmd) : Bool := (s.island (p.isl s c)).power ≥ 2

/-- The first of DENIED, QUARANTINED, NO_RESOURCE and HELD that applies (R85). -/
def State.verdict (s : State) (p : OpSpec) (c : Cmd) : Option Nat :=
  if s.denied p c then some stDenied
  else if p.quar s c then some stQuarantined
  else if s.islandOut p c || p.nores s c then some stNoResource
  else if p.held s c then some stHeld
  else none

/-- A refusal with HELD is counted (R533). -/
def countHeld (s : State) (c : Cmd) (st : Nat) : State := if st = stHeld then countRefused s c.fn else s

/-- The queue may start its next command now: fetching, enough slots before the producer index (R69), fewer than
16 completions waiting (R76), no earlier command waiting on a fence (R69) or for an output slot (R402), and, for a command with BARRIER and
FENCE_SIGNAL, none unfinished (R85). -/
def State.startable (s : State) (c : Cmd) : Bool :=
  s.up 2 && (s.que c.fn c.q).enable && (s.fnc c.fn).state = 2 && (s.que c.fn c.q).held.length < 16 &&
  c.slots ≤ s.pendingSlots c.fn c.q &&
  (s.queueFlights c.fn c.q).all (fun f => f.stage ≠ 0 && !f.holds) &&
  (!(c.barrier || c.op = 0x0010) || (s.queueFlights c.fn c.q).isEmpty)

/-- Consume the slots of a command (R68, R70). -/
def consume (s : State) (c : Cmd) : State :=
  s.modQ c.fn c.q fun u =>
    let n := 2 ^ u.sqLog2
    let wraps := u.cons + c.slots ≥ n
    { u with cons := (u.cons + c.slots) % n, consGen := if wraps then !u.consGen else u.consGen }

/-- Execute a command that has passed its checks; an island in reset ends it with ISLAND_RESET (R30). -/
def execute (s : State) (p : OpSpec) (f : Flight) : State :=
  if (s.island f.isl).inReset || !(s.island f.isl).live then complete s f.id stIslandReset noPay
  else p.run (holdPerf s f.isl f.cmd.fn) f

/-- The end of the fence wait (R80): FENCE_WAIT has its own limit (Table 02.7), 0 means no limit. -/
def State.waitLimit (s : State) (c : Cmd) : Option Time :=
  if c.op = 0x0011 && c.w 10 ≠ 0 then some (s.dt + c.w 10 * us)
  else if (s.que c.fn c.q).waitTo = 0 then none
  else some (s.dt + (s.que c.fn c.q).waitTo * 10 * ms)

/-- The fence value a command awaits is reached (R80). -/
def State.fenceMet (s : State) (c : Cmd) : Bool := !c.waitValid || s.fence c.fn c.waitFence ≥ c.waitValue

/-- The queue processors start a command (R69, R85). A command that cannot start now stays in its ring. -/
def startCmd (s : State) (p : OpSpec) (c : Cmd) : State :=
  if !s.startable c || (c.op ≠ p.op && knownOps.contains c.op) then s
  else
    let s := consume s c
    if s.malformed p c then finishCmd s c stMalformed noPay (s.stamp 2)
    else match s.verdict p c with
      | some st => finishCmd (countHeld s c st) c st noPay (s.stamp 2)
      | none =>
        let f : Flight := { id := s.nextId, op := p.op, cmd := c, stage := if s.fenceMet c then 1 else 0, start := s.dt,
                            limit := if s.fenceMet c then none else s.waitLimit c, isl := p.isl s c }
        let s1 := { s with flights := s.flights ++ [f], nextId := s.nextId + 1 }
        if s.fenceMet c then execute s1 p f else s1

/-- Judge a command again just before it executes (R85), and execute it or complete it. -/
def recheck (s : State) (p : OpSpec) (f : Flight) : State :=
  match s.verdict p f.cmd with
  | some st => complete (countHeld s f.cmd st) f.id st noPay
  | none => execute s p f

/-- Replace the record of a flight. -/
def State.modFlight (s : State) (id : Nat) (g : Flight → Flight) : State :=
  { s with flights := s.flights.map fun f => if f.id = id then g f else f }

/-- A command whose fence wait has ended leaves the head of its queue (R69). -/
def resume (s : State) (p : OpSpec) (f : Flight) : State :=
  recheck (s.modFlight f.id fun f => { f with stage := 1, limit := none }) p f

/-- WAIT_TIMEOUT (R80): the limit passes before the fence reaches its value, and the command does not run. -/
def execWaitTimeout (t : Time) (fn : Fin 64) (q : Fin 16) (s : State) : Answer :=
  let s := s.at t
  match (s.queueFlights fn q).find? (·.stage = 0) with
  | some f =>
    match f.limit with
    | some l => if s.dt ≥ l && !s.fenceMet f.cmd then .next (completeAt s f.id stTimedOut noPay (s.stamp 2)) else .next s
    | none => .next s
  | none => .next s

/-! ### The general opcodes (Table 02.7) -/

def specNop : OpSpec := { op := 0x0001, run := fun s f => complete s f.id stOk noPay }

def specFenceSignal : OpSpec :=
  { op := 0x0010, run := fun s f => complete s f.id stOk noPay }

def specFenceWait : OpSpec :=
  { op := 0x0011, run := fun s f => complete s f.id stOk noPay }

/-- NOP completes OK. -/
def execNop (t : Time) (c : Cmd) (s : State) : Answer := .next (startCmd (s.at t) specNop c)

/-- FENCE_SIGNAL starts after every earlier command of its queue and signals through DW6-DW9 (R81). -/
def execFenceSignal (t : Time) (c : Cmd) (s : State) : Answer := .next (startCmd (s.at t) specFenceSignal c)

/-- FENCE_WAIT waits through DW2-DW5 (R80). -/
def execFenceWait (t : Time) (c : Cmd) (s : State) : Answer := .next (startCmd (s.at t) specFenceWait c)

end Sys2Proof.Machine
end

