-- ==== Sys2Proof/Machine/Modes.lean ====
section
/-! DEFINITION. The mode ROM (Table 03.3) and the DisplayPort link rates (Table 03.2, R130). -/

namespace Sys2Proof.Machine

/-- A row of Table 03.3: active and total size, pixel clock in kHz, single-link and dual-link LVDS, safety plane. -/
structure Mode where
  w      : Nat
  h      : Nat
  ht     : Nat
  vt     : Nat
  khz    : Nat
  single : Bool
  dual   : Bool
  safety : Bool
  deriving DecidableEq, Repr

def modeRom0 : List Mode :=
  [⟨640, 480, 800, 525, 25175, true, false, true⟩,
   ⟨800, 600, 1056, 628, 40000, true, false, true⟩,
   ⟨1024, 768, 1344, 806, 65000, true, true, true⟩,
   ⟨1280, 720, 1650, 750, 74250, true, true, true⟩,
   ⟨1280, 720, 1980, 750, 74250, true, true, true⟩,
   ⟨1280, 768, 1440, 790, 68250, true, true, true⟩,
   ⟨1280, 800, 1440, 823, 71000, true, true, true⟩,
   ⟨1280, 960, 1800, 1000, 108000, true, true, true⟩,
   ⟨1280, 1024, 1688, 1066, 108000, true, true, true⟩,
   ⟨1366, 768, 1792, 798, 85500, true, true, true⟩,
   ⟨1400, 1050, 1560, 1080, 101000, true, true, true⟩,
   ⟨1440, 900, 1600, 926, 88750, true, true, true⟩,
   ⟨1600, 900, 1800, 1000, 108000, true, true, true⟩,
   ⟨1600, 1200, 2160, 1250, 162000, false, true, true⟩,
   ⟨1680, 1050, 1840, 1080, 119000, false, true, true⟩,
   ⟨1920, 1080, 2200, 1125, 148500, false, true, true⟩]

def modeRom1 : List Mode :=
  [⟨1920, 1080, 2640, 1125, 148500, false, true, true⟩,
   ⟨1920, 1080, 2200, 1125, 74250, true, true, false⟩,
   ⟨1920, 1080, 2640, 1125, 74250, true, true, false⟩,
   ⟨1920, 1080, 2750, 1125, 74250, true, true, false⟩,
   ⟨1920, 1200, 2080, 1235, 154000, false, true, true⟩,
   ⟨2560, 1440, 2640, 1481, 234590, false, false, true⟩,
   ⟨2560, 1600, 2720, 1646, 268500, false, false, true⟩,
   ⟨3840, 2160, 5500, 2250, 297000, false, false, false⟩,
   ⟨3840, 2160, 5280, 2250, 297000, false, false, false⟩,
   ⟨3840, 2160, 4400, 2250, 297000, false, false, false⟩,
   ⟨3840, 2160, 5280, 2250, 594000, false, false, true⟩,
   ⟨3840, 2160, 4400, 2250, 594000, false, false, true⟩,
   ⟨4096, 2160, 4400, 2250, 594000, false, false, true⟩,
   ⟨1920, 1080, 2640, 1125, 297000, false, false, true⟩,
   ⟨1920, 1080, 2200, 1125, 297000, false, false, true⟩,
   ⟨848, 480, 1088, 517, 33750, true, false, true⟩]

def modeRom2 : List Mode :=
  [⟨1920, 1080, 2000, 1157, 333216, false, false, true⟩,
   ⟨2560, 1440, 2640, 1525, 483120, false, false, true⟩,
   ⟨2560, 1440, 2640, 1543, 586587, false, false, true⟩,
   ⟨3840, 2160, 4400, 2250, 1188000, false, false, true⟩,
   ⟨3840, 2160, 5280, 2250, 1188000, false, false, true⟩,
   ⟨5120, 2880, 5200, 2962, 924144, false, false, true⟩,
   ⟨5120, 2880, 5200, 2948, 766480, false, false, true⟩,
   ⟨5120, 2880, 5200, 2921, 455676, false, false, false⟩,
   ⟨7680, 4320, 11000, 4500, 1188000, false, false, false⟩,
   ⟨7680, 4320, 10800, 4400, 1188000, false, false, false⟩,
   ⟨7680, 4320, 9000, 4400, 1188000, false, false, false⟩,
   ⟨3840, 2160, 3920, 2314, 1306207, false, false, true⟩,
   ⟨3840, 2160, 3920, 2222, 522614, false, false, true⟩,
   ⟨3440, 1440, 3520, 1481, 312787, false, false, true⟩,
   ⟨3440, 1440, 3520, 1510, 531520, false, false, true⟩,
   ⟨2560, 1080, 2640, 1111, 175982, false, true, true⟩]

def modeRom3 : List Mode :=
  [⟨3840, 1080, 3920, 1111, 261307, false, false, true⟩,
   ⟨3840, 1200, 3920, 1235, 290472, false, false, true⟩,
   ⟨1920, 720, 2000, 741, 88920, true, true, true⟩,
   ⟨1920, 540, 2000, 556, 66720, true, true, true⟩,
   ⟨1280, 480, 1360, 494, 40310, true, false, true⟩,
   ⟨1920, 1200, 2000, 1229, 122900, false, true, true⟩,
   ⟨1280, 800, 1360, 819, 55692, true, true, true⟩,
   ⟨1920, 1200, 2000, 1271, 305040, false, false, true⟩,
   ⟨1920, 1080, 2000, 1119, 167850, false, true, true⟩,
   ⟨2048, 1536, 2128, 1580, 201734, false, true, true⟩,
   ⟨2048, 2048, 2128, 2107, 269022, false, false, true⟩,
   ⟨2560, 2560, 2640, 2633, 417067, false, false, true⟩,
   ⟨1280, 1024, 1688, 1066, 135000, false, true, true⟩,
   ⟨1024, 768, 1312, 800, 78750, true, true, true⟩,
   ⟨2560, 1600, 2640, 1694, 536659, false, false, true⟩,
   ⟨1920, 1080, 2000, 1111, 133320, false, true, true⟩]

/-- Table 03.3. -/
def modeRom : List Mode := modeRom0 ++ modeRom1 ++ modeRom2 ++ modeRom3

/-- A mode by number (R113). -/
def modeOf (n : Nat) : Mode := modeRom.getD n ⟨640, 480, 800, 525, 25175, true, false, true⟩

/-- The frame period in ns, rounded down. -/
def Mode.period (m : Mode) : Nat := m.ht * m.vt * 1000000 / m.khz

/-- The line time in ns, rounded down. -/
def Mode.line (m : Mode) : Nat := m.ht * 1000000 / m.khz

/-- H0-H7 are DisplayPort heads (Table 03.1). -/
def isDp (h : Nat) : Bool := h < 8

/-- Table 03.2: payload per lane in Mbit/s. -/
def lanePayload (code : Nat) : Nat := [0, 1296, 2160, 4320, 6480, 9697, 13091].getD code 0

/-- Output bits per component of BPC (Table 03.4). -/
def bpcBits (b : Nat) : Nat := [6, 8, 10].getD b 10

/-- A link configuration carries a mode (chapter 3, DisplayPort links). -/
def carries (m : Mode) (bpc lanes rate : Nat) : Bool := lanes * lanePayload rate * 95 * 10 ≥ m.khz * 3 * bpcBits bpc

/-- The candidate list of R130: most lanes first, within one lane count the lowest rate first. -/
def candidates (m : Mode) (bpc maxRate maxLanes sinkRate sinkLanes : Nat) : List (Nat × Nat) :=
  ([4, 2, 1].flatMap fun l => [1, 2, 3, 4, 5, 6].map fun r => (l, r)).filter fun c =>
    c.2 ≤ maxRate && c.2 ≤ sinkRate && c.1 ≤ maxLanes && c.1 ≤ sinkLanes && carries m bpc c.1 c.2

/-- An LVDS head runs a mode in the link use chosen (R115, Table 03.3). -/
def lvdsOk (m : Mode) (dual : Bool) : Bool := if dual then m.dual else m.single

end Sys2Proof.Machine
end

