-- ==== Sys2Proof/Machine/Pixels.lean ====
section
/-! DEFINITION. Layers and composition (R156-R184): source pixels, block-compressed surfaces, scaling, blending,
coverage, fetch demand. -/

namespace Sys2Proof.Machine

/-- A composed pixel: 10-bit components and 8-bit alpha (R161). -/
structure Px where
  r : Nat
  g : Nat
  b : Nat
  a : Nat := 255
  deriving DecidableEq, Repr

/-- Widen an n-bit component to 10 bits by bit replication (R161). -/
def widen (n c : Nat) : Nat := c * 2 ^ (10 - n) + c / 2 ^ (2 * n - 10)

/-- A packed pixel: B in [9:0], G in [19:10], R in [29:20] (MNT_BG, R228). -/
def packPx (p : Px) : Nat := p.b + 2 ^ 10 * p.g + 2 ^ 20 * p.r
def unpackPx (n : Nat) : Px := { b := bits n 0 10, g := bits n 10 10, r := bits n 20 10 }

/-- round(x / 255), halves up (R175). -/
def div255 (x : Nat) : Nat := roundDiv x 255

/-! ### Source pixels -/

/-- Bytes per pixel of a format (Table 04.1). -/
def formatBytes (f : Nat) : Nat := [2, 2, 3, 4, 4, 4, 4].getD f 4

/-- The format carries alpha (Table 04.1). -/
def formatAlpha (f : Nat) : Bool := f = 4 || f = 5 || f = 6

/-- The luma coefficients of R, G and B in ten-thousandths: CSC 0 and 2 BT.709, 1 and 3 BT.601 (R162). The numbers are
those of the two recommendations (notes/assumptions/160.md, PRESUMED). -/
def lumaCoef (csc : Nat) : Int × Int × Int := if csc % 2 = 0 then (2126, 7152, 722) else (2990, 5870, 1140)

/-- The black level and the spans of luma and chroma of a 10-bit range: CSC 0 and 1 limited, 2 and 3 full (R162). -/
def yuvRange (csc : Nat) : Int × Int × Int := if csc < 2 then (64, 876, 896) else (0, 1023, 1023)

/-- A YUV pixel in RGB, clamped to 0-1023 (R162); how a result that is no whole number is rounded is free. -/
def yuvPx (csc y cb cr a : Nat) : Px :=
  let (kr, kg, kb) := lumaCoef csc
  let (black, ySpan, cSpan) := yuvRange csc
  let lum : Int := (y - black) * cSpan * 10000
  let dr : Int := 2 * (10000 - kr) * (cr - 512) * ySpan
  let db : Int := 2 * (10000 - kb) * (cb - 512) * ySpan
  let den : Int := ySpan * cSpan * 10000
  let c := fun (i : Nat) (num den : Int) =>
    (clampI (num / den + (if num % den ≠ 0 && Config.yuvUp csc i y cb cr then 1 else 0)) 0 1023).toNat
  { r := c 0 (1023 * (lum + dr)) den, g := c 1 (1023 * (lum * kg - db * kb - dr * kr)) (den * kg)
    b := c 2 (1023 * (lum + db)) den, a := a }

/-- The Cb and Cr bytes of pixel x of a YUYV line, whose byte i is `rd i` and whose last pixel pair starts
at `last`: an odd pixel takes the mean of its even neighbours, or its left neighbour's at the end (R163). -/
def yuyvChroma (rd : Nat → Nat) (x last : Nat) : Nat × Nat :=
  let p := x / 2
  let cb := rd (4 * p + 1)
  let cr := rd (4 * p + 3)
  if x % 2 = 0 || p ≥ last then (cb, cr) else (roundDiv (cb + rd (4 * p + 5)) 2, roundDiv (cr + rd (4 * p + 7)) 2)

/-- One pixel of a line whose byte i is `rd i`, in a linear format (Table 04.1). -/
def linePx (rd : Nat → Nat) (f csc x last : Nat) : Px :=
  let n := formatBytes f
  let v := rd (n * x) + 256 * rd (n * x + 1) + 65536 * rd (n * x + 2) + 16777216 * rd (n * x + 3)
  match f with
  | 0 => { b := widen 5 (bits v 0 5), g := widen 6 (bits v 5 6), r := widen 5 (bits v 11 5) }
  | 1 =>
    let c := yuyvChroma rd x last
    yuvPx csc (widen 8 (rd (4 * (x / 2) + 2 * (x % 2)))) (widen 8 c.1) (widen 8 c.2) 255
  | 2 => { b := widen 8 (bits v 0 8), g := widen 8 (bits v 8 8), r := widen 8 (bits v 16 8) }
  | 3 => { b := widen 8 (bits v 0 8), g := widen 8 (bits v 8 8), r := widen 8 (bits v 16 8) }
  | 4 => { b := widen 8 (bits v 0 8), g := widen 8 (bits v 8 8), r := widen 8 (bits v 16 8), a := bits v 24 8 }
  | 5 => { b := bits v 0 10, g := bits v 10 10, r := bits v 20 10, a := bits v 30 2 * 85 }
  | _ => yuvPx csc (bits v 10 10) (bits v 20 10) (bits v 0 10) (bits v 30 2 * 85)

/-! ### Block-compressed surfaces (R166-R171) -/

/-- A block's 64 pixels as (B, G, R, A) codes; none for a block that R171 decodes as transparent black. -/
def bcsBlock (hdr : Nat) (pay : List Byte) : Option (List (Nat × Nat × Nat × Nat)) :=
  let size := bits hdr 0 4
  if size = 0 then
    some (List.replicate 64 (bits hdr 8 8, bits hdr 16 8, bits hdr 24 8, bits hdr 4 4 * 17))
  else if size > 8 || bits hdr 5 27 ≠ 0 || (hdr.testBit 4 && size ≠ 8) then none
  else if hdr.testBit 4 then
    some ((List.range 64).map fun p =>
      let g := fun i => (pay.getD (4 * p + i) 0).toNat
      (g 0, g 1, g 2, g 3))
  else
    let mins := (List.range 4).map fun i => (pay.getD i 0).toNat
    let ww := leNat ((pay.drop 4).take 2)
    let ws := (List.range 4).map fun i => bits ww (4 * i) 4
    let sum := ws.foldl (· + ·) 0
    if ws.any (· > 8) || size ≠ ceilDiv (6 + 8 * sum) 32 then none
    else
      let stream := leNat (pay.drop 6)
      let comp := fun c p =>
        let w := ws.getD c 0
        min 255 (mins.getD c 0 + bits stream (64 * (ws.take c).foldl (· + ·) 0 + p * w) w)
      some ((List.range 64).map fun p => (comp 0 p, comp 1 p, comp 2 p, comp 3 p))

/-- The block of a BCS layer that holds surface pixel (x, y): its number (R166). -/
def Layer.blockOf (l : Layer) (x y : Nat) : Nat := y / 4 * ceilDiv l.pitch 16 + x / 16

/-- The bytes of the payload that a block's header names (R167). -/
def payloadLen (s : State) (fn : Nat) (l : Layer) (b : Nat) : Nat :=
  let n := bits (memNat s fn (l.hdrBase + 4 * b) 4) 0 4
  if n > 8 then 0 else 32 * n

/-- A block of a BCS layer as it stands in memory. -/
def layerBlock (s : State) (fn : Nat) (l : Layer) (b : Nat) : Option (List (Nat × Nat × Nat × Nat)) :=
  bcsBlock (memNat s fn (l.hdrBase + 4 * b) 4) (memRead s fn (l.base + 256 * b) (payloadLen s fn l b))

/-- A pixel of a BCS layer. -/
def bcsPx (s : State) (fn : Nat) (l : Layer) (x y : Nat) : Px :=
  match layerBlock s fn l (l.blockOf x y) with
  | none => { r := 0, g := 0, b := 0, a := 0 }
  | some ps =>
    let p := ps.getD (16 * (y % 4) + x % 16) (0, 0, 0, 0)
    { b := widen 8 p.1, g := widen 8 p.2.1, r := widen 8 p.2.2.1, a := if l.format = 4 then p.2.2.2 else 255 }

/-! ### Line rings (R181-R184) -/

/-- The ring of a head's Mantle island that is bound to a camera port (R181, R183). -/
def State.ringOf (s : State) (h p : Nat) : Option Bind :=
  match (s.csi p).ring with
  | some b => if (if mantleOf h = 10 then b.ring < 2 else b.ring ≥ 2) then some b else none
  | none => none

/-- The layer format of a camera output format (Table 09.2, Table 04.1). -/
def cameraFormat (f : Nat) : Nat := [1, 2, 6].getD f 1

/-- Start of active line k of the head's current frame, at the trimmed pixel clock (R139). -/
def State.lineStart (s : State) (h k : Nat) : Time :=
  let m := modeOf (s.head h).mode
  (s.head h).frameDt + k * m.ht * 1000000000000 / (m.khz * (1000000 + (s.head h).trim).toNat)

/-- The stamp of the latest camera frame that started before a head frame start (R183). -/
def State.cameraFrame (s : State) (p frame : Nat) : Nat :=
  if (s.csi p).startDt < frame then (s.csi p).startDt else (s.csi p).prevDt

/-- A source line of the ring that output line k may use (R183). -/
def State.ringLine (s : State) (h p src k : Nat) : Option RingLine :=
  match s.ringOf h p with
  | none => none
  | some b =>
    match s.media.rings.find? (·.1 = 64 * b.ring + src % 64) with
    | some (_, r) =>
      if r.src = src && r.frame = s.cameraFrame p (s.head h).frameDt && r.frame < (s.head h).frameDt
        && r.done + 2 * us ≤ s.lineStart h k then some r else none
    | none => none

/-! ### Scaling (R172, R173) -/

/-- The taps for a ratio src / dst (Table 04.3). -/
def taps (src dst : Nat) : Nat := if src = dst then 1 else if src < dst then 2 else ceilDiv src dst + 1

/-- The scaling limits of Table 04.3. -/
def scaleOk (l : Layer) : Bool :=
  1 ≤ l.srcW && l.srcW ≤ 4096 && 1 ≤ l.srcH && l.srcH ≤ 16384 && 1 ≤ l.dstW && 1 ≤ l.dstH &&
  l.dstW ≤ 8 * l.srcW && l.srcW ≤ 4 * l.dstW && l.dstH ≤ 8 * l.srcH &&
  l.srcH ≤ (if l.srcW > 2048 then 3 else 6) * l.dstH &&
  taps l.srcH l.dstH ≤ 7 && taps l.srcW l.dstW ≤ 5 &&
  2 * max (ceilDiv l.srcH l.dstH) 1 + 2 ≤ (if l.srcW > 2048 then 8 else 16)

/-- Position of output pixel d in the source, in 1/65536 pixel (R173). -/
def scalePos (src dst d : Nat) : Nat :=
  let inc := src * 65536 / dst
  if src = dst then d * 65536 else Config.scaleStart inc + d * inc

/-- The source pixels that feed output pixel d, in order. -/
def tapList (src dst d : Nat) (nearest : Bool) : List Nat :=
  let base := scalePos src dst d / 65536
  let n := if nearest then 1 else taps src dst
  (List.range n).map fun i => min (base + i - (n - 1) / 2) (src - 1)

/-- One filtered component. -/
def filterTaps (src dst d : Nat) (nearest : Bool) (top : Nat) (vals : List Nat) : Nat :=
  if nearest || src = dst then vals.getD 0 0
  else min top (Config.polyphase (scalePos src dst d % 65536 / 1024) vals)

/-- The bytes of a linear line that pixel x takes: their offset and how many (Table 04.1, R163). -/
def pixelReach (f x last : Nat) : Nat × Nat :=
  if f = 1 then (4 * (x / 2), if x % 2 = 0 || x / 2 ≥ last then 4 else 8) else (formatBytes f * x, formatBytes f)

/-- A range of the issuer's memory can be fetched now: no channel under it keeps the fetch waiting (R361, R362). -/
def State.fetchable (s : State) (fn a n : Nat) : Bool := (s.stallAt fn a n).isNone

/-- The header and the payload of a block can be fetched now. -/
def blockFetchable (s : State) (fn : Nat) (l : Layer) (b : Nat) : Bool :=
  s.fetchable fn (l.hdrBase + 4 * b) 4 && s.fetchable fn (l.base + 256 * b) (payloadLen s fn l b)

/-- A source pixel at (x, y) of the crop of a layer; none when its ring line is not usable (R184) or its channel is frozen
(R362). The end of a line of R163 is the end of the crop of a memory layer, and the end of the camera line of a ring layer
(notes/assumptions/159.md, DESIGN CHOICE). -/
def sourcePx (s : State) (h : Nat) (sl : PicLayer) (k x y : Nat) : Option Px :=
  let l := sl.layer
  if l.lineLock then
    match s.ringOf h l.csi, s.ringLine h l.csi (l.srcY + y) k with
    | some b, some r =>
      some (linePx (fun i => (r.bytes.getD i 0).toNat) (cameraFormat b.fmt) l.csc (l.srcX + x) ((b.width - 1) / 2))
    | _, _ => none
  else if l.bcs then
    if blockFetchable s sl.fn l (l.blockOf (l.srcX + x) (l.srcY + y)) then some (bcsPx s sl.fn l (l.srcX + x) (l.srcY + y))
    else none
  else
    let row := l.base + (l.srcY + y) * l.pitch
    let last := (l.srcX + l.srcW - 1) / 2
    let r := pixelReach l.format (l.srcX + x) last
    if s.fetchable sl.fn (row + r.1) r.2 then
      some (linePx (fun i => (memByte s sl.fn (row + i)).toNat) l.format l.csc (l.srcX + x) last)
    else none

/-- The scaled pixel of a layer for output (dx, dy) of its destination; none when a source pixel of it is missing. -/
def layerPx (s : State) (h : Nat) (sl : PicLayer) (k dx dy : Nat) : Option Px :=
  let l := sl.layer
  let ys := tapList l.srcH l.dstH dy l.nearest
  let xs := tapList l.srcW l.dstW dx l.nearest
  let grid := ys.map fun y => xs.map fun x => sourcePx s h sl k x y
  if grid.any fun row => row.any (·.isNone) then none
  else
    let comp := fun (f : Px → Nat) (top : Nat) =>
      let cols := (List.range xs.length).map fun i =>
        filterTaps l.srcH l.dstH dy l.nearest top (grid.map fun row => match row.getD i none with
          | some p => f p
          | none => 0)
      filterTaps l.srcW l.dstW dx l.nearest top cols
    some { r := comp Px.r 1023, g := comp Px.g 1023, b := comp Px.b 1023, a := comp Px.a 255 }

/-! ### Blending (R175) -/

/-- Blend a layer's pixel over a composed pixel (R175). -/
def blendPx (l : Layer) (src dst : Px) : Px :=
  let a := div255 ((if l.ignAlpha then 255 else src.a) * l.alpha)
  let f := fun c d => min 1023 (if l.premult then div255 (c * l.alpha + d * (255 - a)) else div255 (c * a + d * (255 - a)))
  { r := f src.r dst.r, g := f src.g dst.g, b := f src.b dst.b }

/-- The head whose layers a head shows: a clone shows its source's (R126). -/
def State.layerHead (s : State) (h : Nat) : Nat := if (s.head h).role = 2 then (s.head h).cloneSrc else h

/-- The enabled slots bound to a head. -/
def State.slotsOn (s : State) (h : Nat) : List Nat :=
  (List.range 64).filter fun n => (s.slotOf n).layer.enable && (s.slotOf n).head = h

/-- The clipped destination span of a layer on an output line, as [start, end) (R174). -/
def Layer.span (l : Layer) (m : Mode) (y : Nat) : Option (Nat × Nat) :=
  let x0 := l.dstX.toNat
  let x1 := (min (l.dstX + l.dstW) m.w).toNat
  if l.enable && l.dstY ≤ y && (y : Int) < l.dstY + l.dstH && y < m.h && x0 < x1 then some (x0, x1) else none

/-- The settings of a layer make a pixel of the given alpha opaque: what lies below it does not show. -/
def hidesBelow (l : Layer) (p : Px) : Bool := div255 ((if l.ignAlpha then 255 else p.a) * l.alpha) = 255

/-- One composed pixel (R175); none when a pixel that shows in it is missing: it then repeats the last good pixel of the
line, layers above it included (R184, R362; notes/assumptions/158.md, DEDUCED). -/
def composePx (s : State) (h x y : Nat) : Option Px :=
  let lh := s.layerHead h
  (s.head lh).pic.layers.foldl (fun acc sl =>
    match sl.layer.span (modeOf (s.head h).mode) y with
    | some (x0, x1) =>
      if x0 ≤ x && x < x1 then
        match layerPx s lh sl y (x - sl.layer.dstX).toNat (y - sl.layer.dstY).toNat, acc with
        | some p, some q => some (blendPx sl.layer p q)
        | some p, none => if hidesBelow sl.layer p then some (blendPx sl.layer p { r := 0, g := 0, b := 0 }) else none
        | none, _ => none
      else acc
    | none => acc) (some (unpackPx (s.head lh).pic.bg))

/-- A composed line: `ready` pixels are composed in time, the others repeat the last good one (R143). -/
def composeLine (s : State) (h y ready : Nat) : List Px :=
  let first : Px := if y = 0 then { r := 0, g := 0, b := 0 } else unpackPx (s.head h).lastPix
  ((List.range (modeOf (s.head h).mode).w).foldl (fun (acc : Px × List Px) x =>
    let p := if x < ready then (composePx s h x y).getD acc.1 else acc.1
    (p, p :: acc.2)) (first, [])).2.reverse

/-! ### Coverage (R177-R180) -/

/-- A layer is opaque (chapter 4, Coverage). -/
def Layer.isOpaque (l : Layer) (fmt : Nat) : Bool := l.enable && l.alpha = 255 && (!formatAlpha fmt || l.ignAlpha)

/-- The format in effect: the ring's for a line-locked layer (MNT_SLOT_STAT.FORMAT). -/
def State.formatOf (s : State) (n : Nat) : Nat :=
  let sl := s.slotOf n
  if sl.layer.lineLock then
    match s.ringOf sl.head sl.layer.csi with
    | some b => cameraFormat b.fmt
    | none => 1
  else sl.layer.format

/-- A line-locked layer is opaque whatever its format carries (chapter 4, Line-locked camera layers). -/
def State.slotOpaque (s : State) (n : Nat) : Bool :=
  (s.slotOf n).layer.isOpaque (if (s.slotOf n).layer.lineLock then 0 else s.formatOf n)

/-- The union of spans contains [x, e): grow x over the spans until nothing more is added. -/
def spansCover (spans : List (Nat × Nat)) (e : Nat) : Nat → Nat → Bool
  | 0, x => x ≥ e
  | n + 1, x =>
    if x ≥ e then true
    else match spans.find? fun p => p.1 ≤ x && x < p.2 with
      | some p => spansCover spans e n p.2
      | none => false

/-- A layer is covered on an output line (R177). -/
def State.coveredAt (s : State) (n y : Nat) : Bool :=
  let sl := s.slotOf n
  let m := modeOf (s.head sl.head).mode
  match sl.layer.span m y with
  | none => false
  | some (x0, x1) =>
    let above := (s.slotsOn sl.head).filter fun k => s.slotOpaque k && (s.slotOf k).layer.z > sl.layer.z
    let spans := above.filterMap fun k => (s.slotOf k).layer.span m y
    spansCover spans x1 (spans.length + 1) x0

/-- Coverage of a slot on the lines of its clipped destination, worked out at a latch (R180). -/
def State.coverOf (s : State) (n : Nat) : List Bool :=
  (List.range (modeOf (s.head (s.slotOf n).head).mode).h).map fun y => s.coveredAt n y

/-- The enabled layers of a head in z-order, Z 0 first, each with its coverage for the frame to come (R158, R180). -/
def State.zOrder (s : State) (h : Nat) : List PicLayer :=
  (List.range 8).flatMap fun z => ((s.slotsOn h).filter fun n => (s.slotOf n).layer.z = z).map fun n =>
    { slot := n, fn := (s.slotOf n).fn, layer := (s.slotOf n).layer, cover := s.coverOf n }

/-- The output lines of the active area on which a layer shows something. -/
def Layer.shownLines (l : Layer) (m : Mode) : List Nat := (List.range m.h).filter fun y => (l.span m y).isSome

/-- The output lines on which a layer of a picture shows uncovered. -/
def PicLayer.bareLines (p : PicLayer) (m : Mode) : List Nat := (p.layer.shownLines m).filter fun y => !p.cover.getD y false

/-- The source lines of the crop that output lines need (R174). -/
def linesFor (l : Layer) (ys : List Nat) : List Nat :=
  (ys.flatMap fun (y : Nat) => tapList l.srcH l.dstH ((y : Int) - l.dstY).toNat l.nearest).eraseDups

/-- The source columns of the crop that the clipped destination needs, first and last (R174): an odd YUYV pixel takes the
chroma of its right neighbour too (R163). -/
def Layer.cols (l : Layer) (m : Mode) : Nat × Nat :=
  let x0 := (-l.dstX).toNat
  let x1 := (min (l.dstX + l.dstW) m.w - l.dstX).toNat
  let lo := (tapList l.srcW l.dstW x0 l.nearest).headD 0
  let hi := (tapList l.srcW l.dstW (x1 - 1) l.nearest).getLastD 0
  (lo, if l.format = 1 && !l.bcs && (l.srcX + hi) % 2 = 1 then min (l.srcW - 1) (hi + 1) else hi)

/-! ### Fetch demand (R201-R203) -/

/-- The peak demand of a layer in bytes per millisecond (R201): SRC_W' × B × max(rv, 1) / t_line. -/
def layerDemand (m : Mode) (l : Layer) : Rat :=
  if !l.enable || l.lineLock then 0
  else
    let w := if l.bcs then ceilDiv l.srcW 16 * 16 else l.srcW
    let bytes256 := if l.bcs then 4 * 260 else formatBytes l.format * 256
    ((w * bytes256 * max l.srcH l.dstH * m.khz : Nat) : Rat) / ((256 * l.dstH * m.ht : Nat) : Rat)

/-- A head's demand (R202). -/
def State.headDemand (s : State) (h : Nat) : Rat :=
  (s.slotsOn h).foldl (fun n k => n + layerDemand (modeOf (s.head h).mode) (s.slotOf k).layer) 0

/-- An island's demand (R202). -/
def State.islandDemand (s : State) (isl : Nat) : Rat :=
  ((List.range 12).filter fun h => mantleOf h = isl).foldl (fun n h => n + s.headDemand h) 0

/-- The fetch ceiling of an island: 50 GB/s (R203). -/
def fetchCeiling : Rat := 50000000

end Sys2Proof.Machine
end

