-- ==== Sys2Proof/Machine/Plane.lean ====
section
/-! DEFINITION. The Watchlamp store (R205-R208), display-list primitives and their drawing (R209-R217), and the
validation of a bank (R248, R249). -/

namespace Sys2Proof.Machine

/-! ### The store (R205, R207) -/

/-- Copy A (false) or B (true) of the store: its bytes and check bits. -/
def Store.cells (st : Store) (b : Bool) : List Host.Cell := if b then st.memB else st.memA
def Store.check (st : Store) (b : Bool) (i : Nat) : Nat := look (if b then st.chkB else st.chkA) i 0

/-- A word of a copy as a read gives it, corrected; the flag marks an uncorrectable word (R207, R219). -/
def Store.word (st : Store) (b : Bool) (i : Nat) : Nat × Bool :=
  let d := leNat (readBytes (st.cells b) (8 * i) 8)
  match eccRead d (st.check b i) with
  | .clean => (d, false)
  | .fixed x _ => (x, false)
  | .bad _ => (d, true)

/-- A byte of a copy, and a little-endian number of n bytes. -/
def Store.byte (st : Store) (b : Bool) (a : Nat) : Nat := bits (st.word b (a / 8)).1 (8 * (a % 8)) 8
def Store.nat (st : Store) (b : Bool) (a n : Nat) : Nat :=
  (List.range n).foldl (fun v i => v + st.byte b (a + i) * 256 ^ i) 0

/-- Write a word of a copy with its check bits. -/
def Store.putWord (st : Store) (b : Bool) (i d : Nat) : Store :=
  if b then { st with memB := writeBytes st.memB (8 * i) (leBytes 8 d), chkB := put st.chkB i (checkByte d) }
  else { st with memA := writeBytes st.memA (8 * i) (leBytes 8 d), chkA := put st.chkA i (checkByte d) }

/-- Write a byte of a copy. -/
def Store.putByte (st : Store) (b : Bool) (a : Nat) (v : Nat) : Store :=
  let d := (st.word b (a / 8)).1
  st.putWord b (a / 8) (d - st.byte b a * 256 ^ (a % 8) + v % 256 * 256 ^ (a % 8))

/-- Write bytes to both copies (R205, R247). -/
def Store.write (st : Store) (a : Nat) : List Byte → Store
  | [] => st
  | v :: r => Store.write ((st.putByte false a v.toNat).putByte true a v.toNat) (a + 1) r

/-- The words of a list that a copy holds with a correctable error, and with an uncorrectable one. -/
def Store.fixable (st : Store) (b : Bool) (ws : List Nat) : List Nat :=
  ws.filter fun i => match eccRead (leNat (readBytes (st.cells b) (8 * i) 8)) (st.check b i) with
    | .fixed _ _ => true
    | _ => false
def Store.broken (st : Store) (b : Bool) (ws : List Nat) : Bool := ws.any fun i => (st.word b i).2

/-- Every word that a copy lists data or check bits for: all others are zero with valid check bits (R347). -/
def Store.listed (st : Store) (b : Bool) : List Nat :=
  ((st.cells b).map (fun (c : Host.Cell) => c.1 / 8) ++ (if b then st.chkB else st.chkA).map (fun (c : Nat × Nat) => c.1)).eraseDups

/-- Correct, write back and count the single-bit errors among words read from a copy (R207). -/
def fixStore (s : State) (b : Bool) (ws : List Nat) : State :=
  (s.store.fixable b ws).foldl (fun s i =>
    report { s with store := s.store.putWord b i (s.store.word b i).1 } 1 0x15) s

/-! ### Layout (Tables 05.1 and 06.6) -/

/-- Base of the own list drawn by a safety head: 0 guest, 1 fallback, 2 boot. -/
def ownBase (h shown bank : Nat) : Nat :=
  if shown = 0 then 0x10000 + h * 0x10000 + bank * 0x4000
  else if shown = 1 then 0x100000 + h * 0x10000
  else 0x100000 + h * 0x10000 + 0x8000

/-- Base of the relocated list of a head: 0 guest, 1 fallback. -/
def relocBase (h shown bank : Nat) : Nat :=
  if shown = 0 then 0x10000 + h * 0x10000 + 0x8000 + bank * 0x4000 else 0x100000 + h * 0x10000 + 0x4000

/-- Base of a palette. -/
def paletteBase (h shown bank : Nat) (night : Bool) : Nat :=
  (if shown = 0 then 0xD0000 + h * 0x1000 + bank * 0x800 else 0x100000 + h * 0x10000 + 0xC000) + 0x400 * b2n night

/-- Where a list takes glyphs, icons and strings from: the guest's regions or the fallback region (R290). -/
structure Assets where
  glyphs : Nat
  nGlyph : Nat
  atlas  : Nat
  atlasN : Nat
  icons  : Nat
  nIcon  : Nat
  pix    : Nat
  pixN   : Nat
  pool   : Nat
  nPool  : Nat
  deriving DecidableEq, Repr

def assets (fallback : Bool) : Assets :=
  if fallback then ⟨0x1C0000, 256, 0x1C4000, 114688, 0x1C0800, 64, 0x1E0000, 131072, 0x1C1000, 4096⟩
  else ⟨0xE0000, 4096, 0x200000, 2097152, 0xE8000, 1024, 0x400000, 4194304, 0xF0000, 32768⟩

/-- A bitmap in the store: address, width, height, advance. -/
structure Bitmap where
  addr : Nat
  w    : Nat
  h    : Nat
  adv  : Nat
  deriving DecidableEq, Repr

/-- A glyph by its descriptor; none where the descriptor is not valid. -/
def Store.glyph (st : Store) (b : Bool) (x : Assets) (i : Nat) : Option Bitmap :=
  let w0 := st.nat b (x.glyphs + 8 * i) 4
  let w1 := st.nat b (x.glyphs + 8 * i + 4) 4
  let w := bits w1 0 8
  let h := bits w1 8 8
  if i < x.nGlyph && w0 < 2 ^ 21 && w1 < 2 ^ 24 && w ≥ 1 && h ≥ 1 && w0 + w * h ≤ x.atlasN then
    some ⟨x.atlas + w0, w, h, bits w1 16 8⟩
  else none

/-- An icon by its descriptor. -/
def Store.icon (st : Store) (b : Bool) (x : Assets) (i : Nat) : Option Bitmap :=
  let w0 := st.nat b (x.icons + 8 * i) 4
  let w1 := st.nat b (x.icons + 8 * i + 4) 4
  let w := bits w1 0 12
  let h := bits w1 16 12
  if i < x.nIcon && w0 < 2 ^ 22 && bits w1 12 4 = 0 && bits w1 28 4 = 0 && 1 ≤ w && w ≤ 2048 && 1 ≤ h && h ≤ 2048 &&
    w0 + w * h ≤ x.pixN then some ⟨x.pix + w0, w, h, 0⟩
  else none

/-- The raw pool entries of a string; none beyond the pool. -/
def Store.string (st : Store) (b : Bool) (x : Assets) (start n : Nat) : Option (List Nat) :=
  if start + n ≤ x.nPool then some ((List.range n).map fun i => st.nat b (x.pool + 2 * (start + i)) 2) else none

/-! ### Primitives (Tables 05.2 and 05.3) -/

/-- A primitive of a display list: its four words. -/
structure Prim where
  w0 : Nat
  w1 : Nat
  w2 : Nat
  w3 : Nat
  deriving DecidableEq, Repr

def Prim.type (p : Prim) : Nat := bits p.w0 0 4
def Prim.blink (p : Prim) : Nat := bits p.w0 4 2
def Prim.blinkInv (p : Prim) : Bool := p.w0.testBit 6
def Prim.colour (p : Prim) : Nat := bits p.w0 8 8
def Prim.aux (p : Prim) : Nat := bits p.w0 16 8
def Prim.condEn (p : Prim) : Bool := p.w0.testBit 24
def Prim.rule (p : Prim) : Nat := bits p.w0 25 7
def Prim.x (p : Prim) : Nat := bits p.w1 0 13
def Prim.y (p : Prim) : Nat := bits p.w1 16 13
def Prim.lo (p : Prim) : Nat := bits p.w2 0 13
def Prim.hi (p : Prim) : Nat := bits p.w2 16 13

/-- The string a text primitive names: start and count. -/
def Prim.text (p : Prim) : Nat × Nat :=
  if p.type = 5 then (bits p.w3 0 15, bits p.w2 0 7) else if p.type = 7 then (bits p.w2 0 15, bits p.w2 16 4) else (0, 0)

/-- Fields of a NUMERIC. -/
def Prim.signal (p : Prim) : Nat := bits p.w3 0 8
def Prim.digits (p : Prim) : Nat := bits p.w3 8 4
def Prim.decimals (p : Prim) : Nat := bits p.w3 12 3
def Prim.isSigned (p : Prim) : Bool := p.w3.testBit 15
def Prim.zeroPad (p : Prim) : Bool := p.w3.testBit 16

/-- Tables 05.2 and 05.3 hold, unnamed fields being 0 (R209, R210). -/
def Prim.ok (p : Prim) : Bool :=
  let onlyWH := fun w => bits w 13 3 = 0 && bits w 29 3 = 0
  !p.w0.testBit 7 && p.blink ≠ 3 && bits p.w1 13 3 = 0 && bits p.w1 29 3 = 0 &&
  match p.type with
  | 0 => p.aux = 0 && p.w2 = 0 && p.w3 = 0
  | 1 => p.aux = 0 && onlyWH p.w2 && p.lo ≥ 1 && p.hi ≥ 1 && p.w3 = 0
  | 2 => p.aux ≥ 1 && onlyWH p.w2 && 2 * p.aux ≤ p.lo && 2 * p.aux ≤ p.hi && p.w3 = 0
  | 3 => p.aux ≥ 1 && bits p.w2 13 19 = 0 && p.lo ≥ 1 && p.w3 = 0
  | 4 => p.aux ≥ 1 && bits p.w2 0 16 = 0 && bits p.w2 29 3 = 0 && p.hi ≥ 1 && p.w3 = 0
  | 5 => p.aux = 0 && bits p.w2 7 25 = 0 && 1 ≤ bits p.w2 0 7 && bits p.w2 0 7 ≤ 64 && bits p.w3 15 17 = 0
  | 6 => p.aux = 0 && p.colour = 0 && p.w2 = 0 && bits p.w3 10 22 = 0
  | 7 => !p.w2.testBit 15 && bits p.w2 20 12 = 0 && 1 ≤ p.digits && p.digits ≤ 12 && p.decimals < p.digits &&
         bits p.w3 17 15 = 0
  | _ => false

/-- The primitives of a list up to its END (R209), an END that breaks R210 included. -/
def Store.prims (st : Store) (b : Bool) (base : Nat) : Nat → List Prim
  | 0 => []
  | n + 1 =>
    let a := base + 16 * (1024 - (n + 1))
    let p : Prim := ⟨st.nat b a 4, st.nat b (a + 4) 4, st.nat b (a + 8) 4, st.nat b (a + 12) 4⟩
    if p.type = 0 then (if p.ok then [] else [p]) else p :: Store.prims st b base n

/-- Width of a text from its pen position on, and the height of its tallest glyph. -/
def Store.textSize (st : Store) (b : Bool) (x : Assets) (gs : List Nat) (pen : Nat) : Nat × Nat :=
  let r := gs.foldl (fun (acc : Nat × Nat × Nat) g =>
    match st.glyph b x (g % 4096) with
    | some m => (acc.1 + m.adv, max acc.2.1 (acc.1 + m.w), max acc.2.2 m.h)
    | none => acc) (pen, pen, 0)
  (r.2.1, r.2.2)

/-- The box of a primitive: x, y, width, height (Table 05.3). -/
def Store.box (st : Store) (b : Bool) (x : Assets) (p : Prim) : Nat × Nat × Nat × Nat :=
  let str := (st.string b x p.text.1 p.text.2).getD []
  match p.type with
  | 1 => (p.x, p.y, p.lo, p.hi)
  | 2 => (p.x, p.y, p.lo, p.hi)
  | 3 => (p.x, p.y, p.lo, p.aux)
  | 4 => (p.x, p.y, p.aux, p.hi)
  | 5 =>
    let z := st.textSize b x str 0
    (p.x, p.y, z.1, z.2)
  | 6 => match st.icon b x (bits p.w3 0 10) with
    | some m => (p.x, p.y, m.w, m.h)
    | none => (p.x, p.y, 0, 0)
  | 7 => match st.glyph b x 0x30 with
    | some z =>
      let cells := b2n p.isSigned + p.digits + b2n (p.decimals ≠ 0)
      (p.x, p.y, (st.textSize b x str (cells * z.adv)).1, z.h)
    | none => (p.x, p.y, 0, 0)
  | _ => (p.x, p.y, 0, 0)

/-! ### Drawing (R211-R216) -/

/-- What a renderer knows when it draws: copy, assets, palette, blink instant, signals and rules. -/
structure Draw where
  copy   : Bool
  asset  : Assets
  pal    : Nat
  blink  : Time
  value  : Nat → Int
  stale  : Nat → Bool
  active : Nat → Bool

/-- One pixel step of R213: plane word, colour C, shape alpha s. -/
def overPlane (w c s : Nat) : Nat :=
  let a := div255 (bits c 24 8 * s)
  let f := fun k => div255 (bits c k 8 * a) + div255 (bits w k 8 * (255 - a))
  (a + div255 (bits w 24 8 * (255 - a))) * 2 ^ 24 + f 16 * 2 ^ 16 + f 8 * 2 ^ 8 + f 0

/-- The ink of a bitmap row on line y, top left at (x, top): positions and bytes. -/
def Store.row (st : Store) (b : Bool) (m : Bitmap) (x top y : Nat) : List (Nat × Nat) :=
  if top ≤ y && y < top + m.h then
    (List.range m.w).map fun i => (x + i, st.byte b (m.addr + (y - top) * m.w + i))
  else []

/-- The glyph of each cell of a NUMERIC field, 0 for a blank cell (R211). -/
def numericCells (p : Prim) (v : Int) : List Nat :=
  let n := v.natAbs
  let wide := n ≥ 10 ^ p.digits || (v < 0 && !p.isSigned)
  let cell := fun k => if wide then 0x2D
    else if k ≤ p.decimals || n ≥ 10 ^ k || p.zeroPad then 0x30 + n / 10 ^ k % 10 else 0
  let digits := (List.range p.digits).reverse.flatMap fun k =>
    if k + 1 = p.decimals then [0x2E, cell k] else [cell k]
  (if p.isSigned then [if v < 0 then 0x2D else 0] else []) ++ digits

/-- The ink of a run of glyphs in colour c; each step is a glyph and its pen advance. -/
def Store.inkRun (st : Store) (d : Draw) (c y top : Nat) : List (Option Bitmap × Nat) → Nat → List (Nat × Nat × Nat)
  | [], _ => []
  | (g, adv) :: r, pen =>
    (match g with
      | some m => (st.row d.copy m pen top y).map fun e => (e.1, c, e.2)
      | none => []) ++ Store.inkRun st d c y top r (pen + adv)

/-- The ink of a primitive on line y: position, colour and shape alpha of each pixel (Table 05.3, R212). -/
def Store.ink (st : Store) (d : Draw) (p : Prim) (y : Nat) : List (Nat × Nat × Nat) :=
  let pal := fun i => st.nat d.copy (d.pal + 4 * i) 4
  let c := pal p.colour
  let box := st.box d.copy d.asset p
  let span : Nat → Nat → List (Nat × Nat × Nat) := fun x n => (List.range n).map fun i => (x + i, c, 255)
  let inBox := box.2.1 ≤ y && y < box.2.1 + box.2.2.2
  let glyph := fun i => st.glyph d.copy d.asset i
  let units := ((st.string d.copy d.asset p.text.1 p.text.2).getD []).map fun g =>
    (glyph (g % 4096), match glyph (g % 4096) with | some m => m.adv | none => 0)
  if !p.ok || (p.condEn && !d.active p.rule) then []
  else if (p.blink = 1 && decide (d.blink % 1000000000 < 500000000) = p.blinkInv) ||
          (p.blink = 2 && decide (d.blink % 500000000 < 250000000) = p.blinkInv) then []
  else match p.type with
  | 2 => if !inBox then []
    else if p.y + p.aux ≤ y && y + p.aux < p.y + p.hi then span p.x p.aux ++ span (p.x + p.lo - p.aux) p.aux
    else span p.x p.lo
  | 5 => st.inkRun d c y p.y units p.x
  | 6 => match st.icon d.copy d.asset (bits p.w3 0 10) with
    | some m => (st.row d.copy m p.x p.y y).map fun e => (e.1, pal e.2, 255)
    | none => []
  | 7 =>
    let adv := match glyph 0x30 with | some z => z.adv | none => 0
    let cells := (numericCells p (d.value p.signal)).map fun g => (if g = 0 then none else glyph g, adv)
    st.inkRun d c y p.y (cells ++ units) p.x ++
      (if d.stale p.signal && inBox then
        ((List.range box.2.2.1).filter fun i => (box.1 + i + y) % 8 < 2).map fun i => (box.1 + i, pal p.aux, 255)
      else [])
  | _ => if inBox then span box.1 box.2.2.1 else []

/-- Draw the primitives of a list on a line (R213). -/
def Store.drawList (st : Store) (d : Draw) (base y : Nat) (line : List Nat) : List Nat :=
  (st.prims d.copy base 1024).foldl (fun line p =>
    (st.ink d p y).foldl (fun line e => line.modify e.1 fun w => overPlane w e.2.1 e.2.2) line) line

/-! ### What a head draws -/

/-- The safety heads whose relocated list is drawn on a head (R240, R242). -/
def State.relocatedOn (s : State) (p : Nat) : List Nat :=
  (List.range 12).filter fun h => (s.safeOf h).safety && (s.safeOf h).reloc && (s.safeOf h).partner = p

/-- The list set a safety head draws by the mode of Watchlamp (Table 06.1, R291): 0 guest, 1 fallback, 2 boot. -/
def State.shownSet (s : State) : Nat :=
  if s.wl.mode = 0 then 0
  else if s.wl.mode = 1 && s.wl.bootPage then
    match s.img, s.boot.loadAt with
    | some im, some t0 => if s.dt < t0 + im.bootPageMs * ms then 2 else 1
    | _, _ => 1
  else 1

/-- The lists to draw on a head: list base, palette base, fallback assets; own list first (R213, R264). -/
def State.planeLists (s : State) (h : Nat) (night : Bool) : List (Nat × Nat × Bool) :=
  if !(s.safeOf h).safety then []
  else
    let k := s.shownSet
    let r := min k 1
    (ownBase h k (s.safeOf h).bankL, paletteBase h k (s.safeOf h).bankL night, k ≠ 0) ::
      (s.relocatedOn h).map fun o =>
        (relocBase o r (s.safeOf o).bankL, paletteBase o r (s.safeOf o).bankL night, k ≠ 0)

/-- A signal is STALE at an instant (R274). -/
def State.staleAt (s : State) (n : Nat) (t : Time) : Bool :=
  match s.img with
  | none => true
  | some im =>
    match im.signals.find? (·.1 = n), (s.sigOf n).stamp with
    | some e, some st => !(st ≤ t && t < st + e.2 * ms)
    | _, _ => true

/-- What the renderers of a pair use for a line of a head, from one copy (R215-R217); in a frozen plane every
signal is STALE (R568). -/
def State.drawFor (s : State) (pic : Pic) (copy : Bool) (pal : Nat) (fb : Bool) : Draw :=
  { copy := copy, asset := assets fb, pal := pal, blink := pic.blink
    value := fun n => (s.sigOf n).value
    stale := fun n => s.wl.frozen || s.staleAt n s.dt
    active := fun r => (s.ruleSt r).state ≠ 0 }

/-- Line y of the plane of a picture `w` pixels wide as a renderer renders it from its copy: premultiplied ARGB8888 words. -/
def State.planeLine (s : State) (pic : Pic) (w y : Nat) (copy : Bool) : List Nat :=
  pic.lists.foldl (fun line l => s.store.drawList (s.drawFor pic copy l.2.1 l.2.2) l.1 y line) (List.replicate w 0)

/-- The store ranges that a primitive's drawing on a line reads. -/
def Store.rangesOf (st : Store) (d : Draw) (p : Prim) (y : Nat) : List (Nat × Nat) :=
  let pool := (d.asset.pool + 2 * p.text.1, 2 * p.text.2)
  let glyphs := ((st.string d.copy d.asset p.text.1 p.text.2).getD []).map (· % 4096) ++
    (if p.type = 7 then 0x30 :: numericCells p (d.value p.signal) else [])
  let row := fun (m : Option Bitmap) => match m with
    | some m => if p.y ≤ y && y < p.y + m.h then [(m.addr + (y - p.y) * m.w, m.w)] else []
    | none => []
  match p.type with
  | 5 => pool :: glyphs.flatMap fun g => (d.asset.glyphs + 8 * g, 8) :: row (st.glyph d.copy d.asset g)
  | 7 => pool :: glyphs.flatMap fun g => (d.asset.glyphs + 8 * g, 8) :: row (st.glyph d.copy d.asset g)
  | 6 => (d.asset.icons + 8 * bits p.w3 0 10, 8) :: row (st.icon d.copy d.asset (bits p.w3 0 10))
  | _ => []

/-- The store words under ranges of addresses. -/
def storeWords (ranges : List (Nat × Nat)) : List Nat :=
  (ranges.flatMap fun r => (List.range ((r.1 + r.2 + 7) / 8 - r.1 / 8)).map (r.1 / 8 + ·)).eraseDups

/-- The range of a list that is read to its END. -/
def Store.listRange (st : Store) (b : Bool) (base : Nat) : Nat × Nat := (base, 16 * min 1024 ((st.prims b base 1024).length + 1))

/-- The store words that a renderer reads for a line of a picture. -/
def State.lineWords (s : State) (pic : Pic) (y : Nat) (copy : Bool) : List Nat :=
  storeWords (pic.lists.flatMap fun l =>
    s.store.listRange copy l.1 :: (l.2.1, 1024) ::
      (s.store.prims copy l.1 1024).flatMap fun p => s.store.rangesOf (s.drawFor pic copy l.2.1 l.2.2) p y)

/-! ### Validation (R248, R249) -/

/-- Spans that a primitive adds to line y (R249). -/
def Store.spans (st : Store) (x : Assets) (p : Prim) (y : Nat) : Nat :=
  let b := st.box false x p
  if b.2.1 ≤ y && y < b.2.1 + b.2.2.2 then
    (if p.type = 2 && p.y + p.aux ≤ y && y + p.aux < p.y + p.hi then 2 else 1)
  else 0

/-- An entry breaks Table 05.2, Table 05.3, a region or the active area (R248). -/
def Store.entryBad (st : Store) (x : Assets) (m : Mode) (p : Prim) : Bool :=
  let str := st.string false x p.text.1 p.text.2
  let need := (str.getD []) ++ (if p.type = 7 then (List.range 10).map (· + 0x30) ++ [0x2D] ++
    (if p.decimals ≠ 0 then [0x2E] else []) else [])
  let b := st.box false x p
  !p.ok ||
  ((p.type = 5 || p.type = 7) && (str.isNone || need.any fun g => g ≥ 4096 || (st.glyph false x g).isNone)) ||
  (p.type = 6 && (st.icon false x (bits p.w3 0 10)).isNone) ||
  (p.type ≠ 0 && (b.1 + b.2.2.1 > m.w || b.2.1 + b.2.2.2 > m.h))

/-- A primitive carries a line past 64 spans, after the primitives before it (R248, R249). -/
def Store.over (st : Store) (x : Assets) (m : Mode) (before : List Prim) (p : Prim) : Bool :=
  (List.range m.h).any fun y =>
    st.spans x p y ≠ 0 && (before.foldl (fun n q => n + st.spans x q y) (st.spans x p y)) > 64

/-- The first offending entry of a list: one that breaks a table, a region or the active area, or one that carries a line
past 64 spans with those before it and those of other lists (R248, R249). -/
def Store.firstBad (st : Store) (x : Assets) (m : Mode) (others mine : List Prim) : Option Nat :=
  (mine.zipIdx.find? fun (e : Prim × Nat) => st.entryBad x m e.1 || st.over x m (others ++ mine.take e.2) e.1).map (·.2)

/-- The mode in use on a safety head. -/
def State.modeInUse (s : State) (h : Nat) : Mode := modeOf (s.head h).mode

/-- The relocated lists that name a head as partner, in the active banks, but for one head's. -/
def State.relocPrims (s : State) (p but : Nat) : List Prim :=
  ((List.range 12).filter fun k => (s.safeOf k).safety && (s.safeOf k).partner = p && k ≠ but).flatMap fun k =>
    s.store.prims false (relocBase k 0 (s.safeOf k).bankL) 1024

/-- The lists that a validation of the shadow bank of a head reads (R248, R249). -/
def State.validateBases (s : State) (h : Nat) : List Nat :=
  let o := s.safeOf h
  let active := fun (k : Nat) => (s.safeOf k).bankL
  [ownBase h 0 (1 - o.bankL), relocBase h 0 (1 - o.bankL), ownBase o.partner 0 (active o.partner)] ++
    ((List.range 12).filter fun k => (s.safeOf k).safety && ((s.safeOf k).partner = h || (s.safeOf k).partner = o.partner) && k ≠ h).map
      fun k => relocBase k 0 (active k)

/-- The first offending entry of the shadow bank of a head: own entries 0-1023, relocated entries from 1024 on. -/
def State.validateBank (s : State) (h : Nat) : Option Nat :=
  let o := s.safeOf h
  let bank := 1 - o.bankL
  let x := assets false
  let own := s.store.prims false (ownBase h 0 bank) 1024
  let rel := s.store.prims false (relocBase h 0 bank) 1024
  match s.store.firstBad x (s.modeInUse h) (s.relocPrims h h) own with
  | some i => some i
  | none =>
    (s.store.firstBad x (s.modeInUse o.partner)
      (s.store.prims false (ownBase o.partner 0 (s.safeOf o.partner).bankL) 1024 ++ s.relocPrims o.partner h) rel).map (1024 + ·)

/-! ### Entries in use (R245) -/

/-- The bases of every active and shadow list of the safety heads. -/
def State.allBases (s : State) : List Nat :=
  ((List.range 12).filter fun k => (s.safeOf k).safety).flatMap fun k =>
    [0, 1].flatMap fun b => [ownBase k 0 b, relocBase k 0 b]

/-- Every primitive of every active and shadow list of the safety heads. -/
def State.allPrims (s : State) : List Prim := s.allBases.flatMap fun b => s.store.prims false b 1024

/-- The glyphs a list primitive refers to, through its string or its digits. -/
def Store.glyphsOf (st : Store) (p : Prim) : List Nat :=
  ((st.string false (assets false) p.text.1 p.text.2).getD []).map (· % 4096) ++
    (if p.type = 7 then (List.range 10).map (· + 0x30) ++ [0x2D] ++ (if p.decimals ≠ 0 then [0x2E] else []) else [])

/-- The store ranges that validating or looking through primitives reads: strings and descriptors. -/
def Store.refRanges (st : Store) (p : Prim) : List (Nat × Nat) :=
  let x := assets false
  if p.type = 5 || p.type = 7 then (x.pool + 2 * p.text.1, 2 * p.text.2) :: (st.glyphsOf p).map fun g => (x.glyphs + 8 * g, 8)
  else if p.type = 6 then [(x.icons + 8 * bits p.w3 0 10, 8)] else []

/-- The Watch island reads lists of the store, from copy A, with what their primitives refer to: what it can correct it
corrects, writes back and counts (R207; notes/assumptions/162.md). -/
def readLists (s : State) (bases : List Nat) : State :=
  fixStore s false (storeWords (bases.flatMap fun b =>
    s.store.listRange false b :: (s.store.prims false b 1024).flatMap s.store.refRanges))

/-- A write of [start, start + n) entries of target 4-8 touches something in use (R245). -/
def State.targetInUse (s : State) (target start n : Nat) : Bool :=
  let ps := s.allPrims
  let texts := ps.filter fun p => p.type = 5 || p.type = 7
  let glyphs := texts.flatMap s.store.glyphsOf
  let icons := (ps.filter (·.type = 6)).map fun p => bits p.w3 0 10
  let hit := fun i => start ≤ i && i < start + n
  let overlap := fun (a len : Nat) => a < 64 * (start + n) && 64 * start < a + len
  n ≠ 0 &&
  match target with
  | 4 => glyphs.any hit
  | 5 => icons.any hit
  | 6 => texts.any fun p => (List.range p.text.2).any fun i => hit ((p.text.1 + i) / 32)
  | 7 => glyphs.any fun g => match s.store.glyph false (assets false) g with
    | some m => overlap (m.addr - 0x200000) (m.w * m.h)
    | none => false
  | 8 => icons.any fun i => match s.store.icon false (assets false) i with
    | some m => overlap (m.addr - 0x400000) (m.w * m.h)
    | none => false
  | _ => false

end Sys2Proof.Machine
end

