-- ==== Sys2Proof/Machine/Relocate.lean ====
section
/-! DEFINITION. Relocation of a safety head's content to its partner (R124, R135, R225, R233, R240-R244). -/

namespace Sys2Proof.Machine

/-- The head's timing runs and its frames are shown: frame starts, latches and blanking starts fall (R134). -/
def State.framing (s : State) (h : Nat) : Bool :=
  s.up (mantleOf h) && (s.head h).running && (s.head h).applied.isNone

/-- A renderer of a pair takes part on a head: it is in service and, after a rebuild, back on that head (R223). -/
def State.takes (s : State) (h : Nat) (b : Bool) : Bool :=
  let p := s.pair (pairOf h)
  if b then p.stB = 0 && !p.backB.contains h else p.stA = 0 && !p.backA.contains h

/-- The feeding and the checking renderer on a head (R221, R222): true for renderer B. -/
def State.feeding (s : State) (h : Nat) : Bool :=
  if s.takes h false then false else if s.takes h true then true else (s.pair (pairOf h)).feedB
def State.checking (s : State) (h : Nat) : Bool :=
  if s.takes h false && s.takes h true then true else s.feeding h

/-- SAFETY_RELOCATED goes to the owners of a head and of its partner (R253). -/
def sendSafety (s : State) (h p d7 : Nat) : State :=
  ([s.headOwner h, s.headOwner p].filterMap id).eraseDups.foldl (fun s f => sendEvent s 1 f 0x0284 h p d7) s

/-- The recorded loss of an earlier relocation of the head no longer counts as a cause (R560). -/
def dropLoss (s : State) (h : Nat) : State :=
  if (s.safeOf h).loss then s.modFlt fun f => { f with lossOut := f.lossOut.erase (256 * mantleOf h + 0x10) } else s

/-- Relocate a safety head (R240, R243): cause as DW7 of SAFETY_RELOCATED. A fault during a mode change makes the
relocation one that a fault caused; any other fault of a relocated head changes nothing (notes/assumptions/31.md). -/
def relocate (s : State) (h cause : Nat) : State :=
  let o := s.safeOf h
  if !o.safety || !s.flt.coresUp || s.wl.frozen || (o.fault && !(o.cause = 3 && cause ≠ 3)) then s
  else
    let p := o.partner
    let loss := (s.head p).role = 0 || (s.safeOf p).fault || (cause = 5 && pairOf h = pairOf p)
    let s1 := (dropLoss s h).modSafe h fun o =>
      { o with fault := true, cause := cause, loss := loss, restore := false, goodRun := 0 }
    sendSafety (raiseSysAlarm (report s1 (mantleOf h) 0x10 loss)) h p (cause + 0x100)

/-- The relocation of a safety head ends (R244); its list leaves the partner at the partner's next latch. -/
def endRelocation (s : State) (h : Nat) : State :=
  let o := s.safeOf h
  let s1 := s.modSafe h fun o => { o with fault := false, loss := false, restore := false, goodRun := 0 }
  sendSafety (if o.loss then closeOneLoss s1 (256 * mantleOf h + 0x10) else s1) h o.partner o.cause

/-- A link that carries a safety plane leaves UP (R135). -/
def linkLost (s : State) (h : Nat) : State :=
  if (s.safeOf h).safety then relocate (report s (mantleOf h) 0x11) h 2 else s

end Sys2Proof.Machine
end

