-- ==== Sys2Proof/Machine/Lists.lean ====
section
/-! DEFINITION. Chapter 5: SAFETY_LIST_UPDATE (R245-R250), the store scrub (R208), line rendering and renderer
rebuilds (R218-R225). -/

namespace Sys2Proof.Machine

/-- Fields of SAFETY_LIST_UPDATE (Table 05.4). -/
def slHead (c : Cmd) : Nat := c.f 10 0 4
def slTarget (c : Cmd) : Nat := c.f 10 4 4
def slCommit (c : Cmd) : Bool := c.b 10 8
def slRestore (c : Cmd) : Bool := c.b 10 9
def slStart (c : Cmd) : Nat := c.f 11 0 24
def slCount (c : Cmd) : Nat := c.f 12 0 24

/-- Entries or blocks of a target, and the bytes of one (Tables 05.1 and 05.4). -/
def slSize (target : Nat) : Nat × Nat :=
  [(1024, 16), (1024, 16), (256, 4), (256, 4), (4096, 8), (1024, 8), (1024, 64), (32768, 64), (65536, 64)].getD target (0, 1)

/-- Where a target starts in the store: the shadow bank of the head for targets 0 to 3. -/
def slBase (h bank target : Nat) : Nat :=
  match target with
  | 0 => ownBase h 0 bank
  | 1 => relocBase h 0 bank
  | 2 => paletteBase h 0 bank false
  | 3 => paletteBase h 0 bank true
  | 4 => 0xE0000
  | 5 => 0xE8000
  | 6 => 0xF0000
  | 7 => 0x200000
  | _ => 0x400000

/-- The data bytes as read from host memory. -/
def slData (c : Cmd) : List Byte := (List.range (slCount c * (slSize (slTarget c)).2)).map fun i => c.data.getD i 0

/-- MALFORMED (R246). -/
def listMalformed (_ : State) (c : Cmd) : Bool :=
  slTarget c > 8 || !c.z 10 10 22 || !c.z 11 24 8 || !c.z 12 24 8 || slStart c + slCount c > (slSize (slTarget c)).1 ||
  c.d 14 % 64 ≠ 0 || crc32c (slData c) ≠ c.w 13

/-- A function owns a safety head. -/
def State.ownsSafety (s : State) (fn : Nat) : Bool :=
  (List.range 12).any fun h => (s.safeOf h).safety && (s.fnc fn).grant.headOwn.testBit h

/-- DENIED (R245, R84). -/
def listDenied (s : State) (c : Cmd) : Bool :=
  let fn := c.fn.val
  let h := slHead c
  !(fn ≥ 2 && (s.fnc fn).secure && s.accepts fn 10 && s.isSafety fn) ||
  ((slTarget c ≤ 3 || slCommit c || slRestore c) && !((s.fnc fn).grant.headOwn.testBit h && (s.safeOf h).safety)) ||
  !s.ownsSafety fn || s.wl.mode = 1 || s.targetInUse (slTarget c) (slStart c) (slCount c)

/-- The bytes of the Directory for a head: active bank, partner, two zero bytes, and the lengths of its four lists in
primitives, own bank 0 and 1, relocated bank 0 and 1. Table 05.1 names the contents; their places are the model's
(notes/assumptions/164.md, DESIGN CHOICE). -/
def State.directoryOf (s : State) (h : Nat) : List Byte :=
  let n := fun (base : Nat) => (s.store.prims false base 1024).length
  [BitVec.ofNat 8 (s.safeOf h).bankL, BitVec.ofNat 8 (s.safeOf h).partner, 0, 0] ++
    [ownBase h 0 0, ownBase h 0 1, relocBase h 0 0, relocBase h 0 1].flatMap fun b => leBytes 2 (n b)

/-- The Watch island keeps the Directory of both copies up to date (R205, R206). -/
def fileDirectory (s : State) (h : Nat) : State := { s with store := s.store.write (16 * h) (s.directoryOf h) }

/-- Write bytes to both copies; a word written in part is read first, and corrected (R205, R207). -/
def writeStore (s : State) (a : Nat) (l : List Byte) : State :=
  let edge := (if l ≠ [] && a % 8 ≠ 0 then [a / 8] else []) ++
    (if l ≠ [] && (a + l.length) % 8 ≠ 0 then [(a + l.length) / 8] else [])
  let s1 := fixStore (fixStore s false edge) true edge
  { s1 with store := s1.store.write a l }

/-- What an update does when its turn has come (R247, R248). -/
def applyUpdate (s : State) (f : Flight) : State :=
  let c := f.cmd
  let h := slHead c
  let bank := 1 - (s.safeOf h).bankL
  let base := slBase h bank (slTarget c) + slStart c * (slSize (slTarget c)).2
  let s0 := writeStore s base (slData c)
  let s1 := if slTarget c ≤ 1 then fileDirectory s0 h else s0
  let restore := fun (s : State) =>
    if slRestore c && (s.safeOf h).fault then s.modSafe h fun o => { o with restore := true, goodRun := 0 } else s
  if slCommit c then
    let s2 := readLists s1 (s1.validateBases h)
    match s2.validateBank h with
    | some i => complete s2 f.id stMalformed [0, i, 0, 0]
    | none => restore (s2.modSafe h fun o => { o with commit := some (f.id, s.dt) })
  else complete (restore s1) f.id stOk noPay

/-- SAFETY_LIST_UPDATE as the queue processors start it: it takes its turn among the updates (R247). -/
def specListUpdate : OpSpec :=
  { op := 0x0202, engine := some 2, malformed := listMalformed, denied := listDenied, isl := fun _ _ => 1
    run := fun s f => { s with store := { s.store with queue := s.store.queue ++ [f.id] } } }

/-- An update waits behind a commit of its head that awaits its latch, and until the shadow bank holds the new lists. -/
def State.updateWaits (s : State) (f : Flight) : Bool :=
  let o := s.safeOf (slHead f.cmd)
  (slTarget f.cmd ≤ 3 || slCommit f.cmd || slRestore f.cmd) && (o.commit.isSome || o.refresh)

/-- Copy n bytes of a copy of the store, with their check bits. -/
def Store.copyRange (st : Store) (b : Bool) (src dst n : Nat) : Store :=
  let cells := (st.cells b).filter fun (c : Host.Cell) => src ≤ c.1 && c.1 < src + n
  let mem := cells.foldl (fun m (c : Host.Cell) => writeByte m (dst + (c.1 - src)) c.2) (zeroRange (st.cells b) dst n)
  let chk0 := if b then st.chkB else st.chkA
  let inside := fun (a k : Nat) => a / 8 ≤ k && k < (a + n) / 8
  let chk := dropKeys chk0 (inside dst) ++
    ((chk0.filter fun (e : Nat × Nat) => inside src e.1).map fun (e : Nat × Nat) => (e.1 - src / 8 + dst / 8, e.2))
  if b then { st with memB := mem, chkB := chk } else { st with memA := mem, chkA := chk }

/-- The ranges of one bank of a head's lists and palettes. -/
def bankRanges (h bank : Nat) : List (Nat × Nat) :=
  [(ownBase h 0 bank, 0x4000), (relocBase h 0 bank, 0x4000), (paletteBase h 0 bank false, 0x800)]

/-- The active bank of a head's lists and palettes is copied into the shadow bank, in both copies (R250). -/
def Store.refreshShadow (st : Store) (h bank : Nat) : Store :=
  ((bankRanges h bank).zip (bankRanges h (1 - bank))).foldl (fun st e =>
    (st.copyRange false e.1.1 e.2.1 e.1.2).copyRange true e.1.1 e.2.1 e.1.2) st

/-- Words of a copy that lie under ranges, among those it lists. -/
def Store.listedIn (st : Store) (b : Bool) (rs : List (Nat × Nat)) : List Nat :=
  (st.listed b).filter fun i => rs.any fun r => r.1 ≤ 8 * i && 8 * i < r.1 + r.2

/-- A bank of a head is still drawn by a frame in progress or to come: its lists are not overwritten before the last such
frame has passed (R192, R250; notes/assumptions/165.md). -/
def State.bankDrawn (s : State) (h bank : Nat) : Bool :=
  (List.range 12).any fun k =>
    s.framing k && ((s.head k).pic.lists ++ (s.head k).next.lists).any fun l => l.1 = ownBase h 0 bank || l.1 = relocBase h 0 bank

/-- After a commit is applied, the active bank of the head is copied into the shadow bank: the words read are corrected
where they can be (R207, R250). -/
def refreshBank (s : State) (h : Nat) : State :=
  let bank := (s.safeOf h).bankL
  if !(s.safeOf h).refresh || s.bankDrawn h (1 - bank) then s
  else
    let s1 := fixStore s false (s.store.listedIn false (bankRanges h bank))
    let s2 := fixStore s1 true (s1.store.listedIn true (bankRanges h bank))
    fileDirectory ({ s2 with store := s2.store.refreshShadow h bank }.modSafe h fun o => { o with refresh := false }) h

/-- Run updates one at a time in the order in which they started (R247). -/
def runUpdatesN (s : State) : Nat → State
  | 0 => s
  | n + 1 =>
    if !s.flt.coresUp || s.wl.frozen then s
    else match s.store.queue with
      | [] => s
      | id :: r =>
        let s1 : State := { s with store := { s.store with queue := r } }
        match s.flight? id with
        | none => runUpdatesN s1 n
        | some f => if s.updateWaits f then s else runUpdatesN (recheck s1 { specListUpdate with run := applyUpdate } f) n

/-- The Watch island's work on the store that has come due: shadow banks first, then waiting updates. -/
def runUpdates (s : State) : State :=
  let s1 := if !s.flt.coresUp || s.wl.frozen then s else (List.range 12).foldl refreshBank s
  runUpdatesN s1 s1.store.queue.length

/-- SAFETY_LIST_UPDATE. To judge a write of targets 4 to 8 the Watch island looks through every list (R245). -/
def execSafetyListUpdate (t : Time) (c : Cmd) (s : State) : Answer :=
  let s := s.at t
  let s1 := if 4 ≤ slTarget c && slTarget c ≤ 8 && slCount c ≠ 0 then readLists s s.allBases else s
  .next (runUpdates (startCmd s1 specListUpdate c))

/-! ### Renderer pairs -/

/-- The safety heads of a renderer pair. -/
def State.safeHeads (s : State) (p : Nat) : List Nat :=
  (List.range 12).filter fun h => (s.safeOf h).safety && pairOf h = p

/-- An unresolved mismatch relocates every safety head of the pair (R225). -/
def unresolved (s : State) (p : Nat) : State := (s.safeHeads p).foldl (fun s h => relocate s h 5) s

/-- A self-faulted renderer goes out of service: where another one is in service, that one feeds every line from now on
(R222). With `new` 1 it is to be rebuilt, with 2 it is retired. -/
def outOfService (s : State) (p : Nat) (b : Bool) (new : Nat) : State :=
  s.modPair p fun x =>
    let x := { x with feedB := if (if b then x.stA else x.stB) = 0 then !b else x.feedB }
    if b then { x with stB := new } else { x with stA := new }

/-- A self-faulted renderer is rebuilt, or retired at a third rebuild within 10 s (R222-R224, Table 14.2); without
another one in service to mask it the heads of the pair are relocated first (notes/assumptions/52.md). With the Watch cores
held (R568) it only goes out of service: nothing rebuilds it, nothing is reported. -/
def rebuild (s : State) (p : Nat) (b : Bool) : State :=
  let x := s.pair p
  let st := if b then x.stB else x.stA
  let other := if b then x.stA else x.stB
  if st ≠ 0 then s
  else if !s.flt.coresUp || s.wl.frozen then outOfService s p b 1
  else
    let s0 := if other = 0 then s else unresolved s p
    let times := (if b then x.timesB else x.timesA).filter fun t => s.dt < t + 10000 * ms
    let retire := times.length ≥ 2
    let s1 := (outOfService s0 p b (if retire then 2 else 1)).modPair p fun x =>
      let x := { x with rebuilds := if retire then x.rebuilds else satInc x.rebuilds 0xFF }
      if b then { x with timesB := times ++ [s.dt] } else { x with timesA := times ++ [s.dt] }
    if retire then report s1 1 0x13 (other = 2) else report s1 1 0x12

/-- STORE_SCRUB (R207, R208): every word of both copies is read; an uncorrectable word faults the renderer of each
pair that reads the copy. -/
def execStoreScrub (t : Time) (s : State) : Answer :=
  let s := s.at t
  if !s.flt.coresUp || s.wl.frozen then .next s
  else
    let scrub := fun (s : State) (b : Bool) => fixStore s b (s.store.listed b)
    let s1 := scrub (scrub s false) true
    let bad := fun (b : Bool) => s1.store.broken b (s1.store.listed b)
    .next ([0, 1].foldl (fun s p =>
      if bad false && bad true then unresolved s p
      else if bad false then rebuild s p false
      else if bad true then rebuild s p true
      else s) s1)

/-- Both renderers of a pair render line y of a head in two passes, for the frame in progress or, with `nxt`, for the frame
to come; the CRCs are compared, and the line is held for the tail (R218-R222, R225). `d` disturbs the pass CRCs. A renderer
that is self-faulted is rebuilt also where the main passes agree (Table 05.5); both so, the mismatch is taken as unresolved
(notes/assumptions/163.md, DESIGN CHOICE). -/
def renderLine (s : State) (h y : Nat) (nxt : Bool) (d : PassFault) : State :=
  let p := pairOf h
  let pic := if nxt then (s.head h).next else (s.head h).pic
  let w := (modeOf (s.head h).mode).w
  let ta := s.takes h false
  let tb := s.takes h true
  let wa := s.lineWords pic y false
  let wb := s.lineWords pic y true
  let s1 := if ta then fixStore s false wa else s
  let s2 := if tb then fixStore s1 true wb else s1
  let la := s2.planeLine pic w y false
  let lb := s2.planeLine pic w y true
  let crc := fun (l : List Nat) (x : Word) => crc32c (l.flatMap (leBytes 4)) ^^^ x.toNat
  let fa := crc la d.mainA ≠ crc la d.checkA || s2.store.broken false wa
  let fb := crc lb d.mainB ≠ crc lb d.checkB || s2.store.broken true wb
  let differ := crc la d.mainA ≠ crc lb d.mainB
  let s3 :=
    if ta && tb then
      let s3 := if differ then s2.modPair p fun x => { x with misLines := satInc x.misLines 0xFFFF } else s2
      if fa && !fb then rebuild s3 p false else if fb && !fa then rebuild s3 p true
      else if differ || fa then unresolved s3 p else s3
    else if ta && fa then rebuild (unresolved s2 p) p false
    else if tb && fb then rebuild (unresolved s2 p) p true
    else s2
  let line := fun (b : Bool) => if b then lb else la
  let row : PlaneRow := { y := y, next := nxt, feed := line (s3.feeding h), check := line (s3.checking h) }
  s3.modHead h fun x => { x with rows := x.rows.filter (fun r => r.y ≠ y || r.next ≠ nxt) ++ [row] }

/-- At the render instant of a line the frame in progress is past it: the line belongs to the frame to come. -/
def State.rowNext (s : State) (h y : Nat) : Bool := !s.framing h || s.dt ≥ s.lineStart h y

/-- SAFETY_LINE_RENDER: the render instant of line y of a safety head, 8 us before the line starts (R217). -/
def execSafetyLineRender (t : Time) (h : Fin 12) (y : Nat) (d : PassFault) (s : State) : Answer :=
  let s := s.at t
  if !(s.safeOf h).safety || !s.up (mantleOf h) || !(s.head h).running || !(s.island 1).live ||
    y ≥ (modeOf (s.head h).mode).h then .next s
  else .next (renderLine s h y (s.rowNext h y) d)

/-- A line that reaches the tail has been rendered and compared before (R220): one whose render instant no command has
given is rendered now, undisturbed (notes/assumptions/166.md). -/
def readyRow (s : State) (h y : Nat) : State :=
  if !(s.safeOf h).safety || !(s.island 1).live || (s.head h).rows.any (fun r => r.y = y && !r.next) then s
  else renderLine s h y false {}

/-- Every word of the good copy is copied into the faulted one (R222). -/
def Store.rebuilt (st : Store) (b : Bool) : Store :=
  if b then { st with memB := st.memA, chkB := st.chkA } else { st with memA := st.memB, chkA := st.chkB }

/-- RENDERER_REBUILD_DONE (R222, R223): the renderer takes part again from the next frame start of each head. -/
def execRendererRebuildDone (t : Time) (pair : Fin 2) (b : Bool) (s : State) : Answer :=
  let s := s.at t
  let x := s.pair pair
  if (if b then x.stB else x.stA) ≠ 1 || !s.flt.coresUp then .next s
  else
    let hs := s.safeHeads pair
    let s1 := fixStore s (!b) (s.store.listed (!b))
    .next ({ s1 with store := s1.store.rebuilt b }.modPair pair fun x =>
      if b then { x with stB := 0, backB := hs } else { x with stA := 0, backA := hs })

end Sys2Proof.Machine
end

