-- ==== Sys2Proof/Machine/Heads.lean ====
section
/-! DEFINITION. Chapter 3 (heads, links, line-lock, tail, gamma, backlight, AUX) and the per-frame work of chapters 4
and 5 that falls at a head's frame start, latch, tail lines and blanking start. -/

namespace Sys2Proof.Machine

/-! ### Register access -/

/-- A write of a head register by a function or the Watch island, initiator 0x41 (R55, R151, R154, Table 13.1): `sec` marks a
secure-world target of safety heads. -/
def headWrite (s : State) (fn h : Nat) (sec : Bool) (k : State → State) : State :=
  if fn ≥ 64 then
    if !s.up (mantleOf h) then s else if fn = 0x41 then (if s.watchUp then k s else s) else s.dropHead
  else if !s.reach fn || !s.up (mantleOf h) then s
  else if fn < 2 && !s.mayWrite fn 4 then s.dropGroup
  else if sec && (s.safeOf h).safety && !s.isSecure fn then worldViolation s (mantleOf h) fn
  else if !s.ownsHead fn h then s.dropHead
  else k s

/-! ### HEAD_CONFIG (R117-R128) -/

/-- Fields of HEAD_CONFIG (Table 03.4). -/
def hcHead (c : Cmd) : Nat := c.f 10 0 4
def hcMode (c : Cmd) : Nat := c.f 10 8 6
def hcRole (c : Cmd) : Nat := c.f 10 16 2
def hcSrc (c : Cmd) : Nat := c.f 10 20 4
def hcBpc (c : Cmd) : Nat := c.f 10 24 2
def hcLockEn (c : Cmd) : Bool := c.b 11 0
def hcLockCsi (c : Cmd) : Nat := c.f 11 4 3
def hcDelay (c : Cmd) : Nat := c.f 11 16 16
def hcMaxRate (c : Cmd) : Nat := c.f 12 0 4
def hcMaxLanes (c : Cmd) : Nat := c.f 12 4 3
def hcDual (c : Cmd) : Bool := c.b 12 8

/-- Some head is a clone of a head (R125, R128). -/
def State.cloned (s : State) (h : Nat) : Bool :=
  (List.range 12).any fun k => k ≠ h && (s.head k).role = 2 && (s.head k).cloneSrc = h

/-- MALFORMED (R117, R125: a source stays an independent head; reserved fields of Table 03.4). -/
def headConfigMalformed (s : State) (c : Cmd) : Bool :=
  let h := hcHead c
  let m := modeOf (hcMode c)
  !c.z 10 4 4 || !c.z 10 14 2 || !c.z 10 18 2 || !c.z 10 27 5 || !c.z 11 1 3 || !c.z 11 7 9 || !c.z 12 11 21 || !c.zw 13 15 ||
  h > 11 || hcRole c = 3 || hcBpc c = 3 || hcMaxRate c > 6 || !([0, 1, 2, 4].contains (hcMaxLanes c)) ||
  (!isDp h && (!lvdsOk m (hcDual c) || hcBpc c = 2)) ||
  (hcLockEn c && hcRole c = 2) ||
  hcDelay c * 100 * m.khz ≥ m.ht * m.vt * 1000000 ||
  (hcRole c = 2 && (s.cloned h || hcSrc c > 11 || hcSrc c = h || mantleOf (hcSrc c) ≠ mantleOf h || (s.head (hcSrc c)).role ≠ 1 ||
    (s.head (hcSrc c)).mode ≠ hcMode c))

/-- DENIED (R118, R119, R128; R66 for clones). -/
def headConfigDenied (s : State) (c : Cmd) : Bool :=
  let h := hcHead c
  let fn := c.fn.val
  !(s.fnc fn).grant.headOwn.testBit h ||
  (hcLockEn c && !(s.accepts fn 8 && (s.fnc fn).grant.csiMask.testBit (hcLockCsi c))) ||
  (hcRole c = 2 && !s.accepts fn 9) ||
  ((s.safeOf h).safety && (!(s.isSafety fn && fn ≥ 2 && (s.fnc fn).secure) || hcRole c = 0 || hcRole c = 2 ||
    !(modeOf (hcMode c)).safety)) ||
  ((hcMode c ≠ (s.head h).mode || hcRole c = 0) && s.cloned h)

/-- The sum of the pixel clocks of all heads that run, in kHz, but for one head. -/
def State.clockSum (s : State) (but : Nat) : Nat :=
  (List.range 12).foldl (fun n k => if k ≠ but && (s.head k).role ≠ 0 then n + (modeOf (s.head k).mode).khz else n) 0

/-- NO_RESOURCE (R110). -/
def headConfigNores (s : State) (c : Cmd) : Bool :=
  hcRole c ≠ 0 && s.clockSum (hcHead c) + (modeOf (hcMode c)).khz > 7200000

/-- HELD: a normal-world request to turn a claimed head off (R533, Table 13.6). -/
def headConfigHeld (s : State) (c : Cmd) : Bool := hcRole c = 0 && s.heldBack c.fn (0x20 + hcHead c)

/-- HEAD_CONFIG (R120): its checks done, it waits for a blanking start of its head. -/
def specHeadConfig : OpSpec :=
  { op := 0x0201, engine := some 2, malformed := headConfigMalformed, denied := headConfigDenied, nores := headConfigNores
    held := headConfigHeld, isl := fun _ c => mantleOf (hcHead c)
    run := fun s f => s.modHead (hcHead f.cmd) fun d => { d with configs := d.configs ++ [f.id] } }

/-- HEAD_CONFIG starts. -/
def execHeadConfig (t : Time) (c : Cmd) (s : State) : Answer := .next (startCmd (s.at t) specHeadConfig c)

/-! ### Links (R129-R135) -/

/-- DW6 of HEAD_LINK and DW4 of the completion of HEAD_CONFIG carry link, rate and lanes. -/
def linkD6 (d : Head) : Nat := d.link + 2 ^ 4 * d.rate + 2 ^ 8 * d.lanes
def linkD4 (d : Head) : Nat := d.rate + 2 ^ 4 * d.lanes + 2 ^ 8 * d.link

/-- Set LINK_STATE; RATE and LANES read 0 unless a DisplayPort link is UP. When training ends, an owner's AUX transaction that
waited for it has its 400 us from then (R153). -/
def setLink (s : State) (h link rate lanes : Nat) : State :=
  s.modHead h fun d => { d with
    link := link, rate := rate, lanes := lanes, auxSince := if d.link = 2 && link ≠ 2 then s.dt else d.auxSince }

/-- What the output of a head sends (R121): a picture when its link is UP and a frame of the configuration has started. -/
def Head.sends (d : Head) (h : Nat) : Sends :=
  if d.role = 0 then .nothing
  else if isDp h then
    if d.link = 2 then .training else if d.link = 3 && d.running && d.applied.isNone then .picture else .idle
  else if d.applied.isSome then .blank else .picture

/-- Show a change of what the output of a head sends. -/
def showSends (old s : State) (h : Nat) : State :=
  if (old.head h).sends h = (s.head h).sends h then s else s.emit (.signal h ((s.head h).sends h))

/-- HEAD_LINK to the owner (R155). -/
def linkEvent (s : State) (h cause : Nat) : State :=
  sendTo s (mantleOf h) (s.headOwner h) 0x0280 h (linkD6 (s.head h)) cause

/-- The candidate list of a head (R130). -/
def State.headCands (s : State) (h : Nat) : List (Nat × Nat) :=
  let d := s.head h
  candidates (modeOf d.mode) d.bpc d.maxRate d.maxLanes d.sinkRate d.sinkLanes

/-- The timing generator starts, if it stands still; a safety head has BLENn asserted and its duty no lower than BL_FLOOR
from then on (R151), and its first frame draws the lists of the mode of Watchlamp (R291). -/
def startTiming (s : State) (h : Nat) : State :=
  let o := s.safeOf h
  let lists := if s.wl.frozen then (s.head h).next.lists else s.planeLists h (s.head h).night
  s.modHead h fun d =>
    if d.running then d
    else { d with running := true, runAt := s.dt, blOn := d.blOn || o.safety
                  blDutyA := if o.safety then max o.floor d.blDutyA else d.blDutyA
                  next := { d.next with lists := lists } }

/-- No candidate trains (R131): a HEAD_CONFIG ends and leaves the timing stopped; another head keeps its timing (R134). -/
def trainingFailed (s : State) (h : Nat) (flight : Option Nat) (attempts : Nat) : State :=
  let s1 := setLink (s.modHead h fun d => { d with training := none }) h 4 0 0
  match flight with
  | some id => linkEvent (complete s1 id stNoResource [linkD4 (s1.head h), attempts, 0, 0]) h 4
  | none => linkEvent s1 h 4

/-- Train a link through a candidate list (R130, R131). -/
def train (s : State) (h cause : Nat) (cands : List (Nat × Nat)) (flight : Option Nat) : State :=
  if cands = [] then trainingFailed s h flight 0
  else setLink (s.modHead h fun d => { d with
      training := some { cands := cands, cause := cause, limit := s.dt + 2000 * ms, flight := flight } }) h 2 0 0

/-- The attempt that the image gives a safety head ends (R600, R602): its timing starts whatever the outcome, and
after a failure training goes on through the candidate list. -/
def bootTrained (s : State) (h : Nat) (up : Option (Nat × Nat)) : State :=
  let s1 := startTiming (s.modHead h fun d => { d with training := none }) h
  match up with
  | some c => setLink s1 h 3 c.2 c.1
  | none => if (s.head h).hpd then train s1 h 1 (s1.headCands h) none else setLink s1 h 1 0 0

/-- A training ends without a link: the image's single attempt, or the whole list (R131, R600). -/
def trainingOver (s : State) (h : Nat) (tr : Training) (attempts : Nat) : State :=
  if tr.boot then bootTrained s h none else trainingFailed s h tr.flight attempts

/-- The candidate being trained has trained. -/
def trainedOn (s : State) (h : Nat) (tr : Training) (c : Nat × Nat) : State :=
  if tr.boot then bootTrained s h (some c)
  else
    let s1 := setLink (s.modHead h fun d => { d with training := none }) h 3 c.2 c.1
    match tr.flight with
    | some id => startTiming (s1.modHead h fun d => { d with applied := some (id, tr.attempts + 1) }) h
    | none => linkEvent s1 h tr.cause

/-- LINK_TRAINING_RESULT (R130, R131): the candidate trained within the limit, or the next one is tried; after the last the
training ends at once, without trying the list again until the limit (notes/assumptions/152.md, DESIGN CHOICE). -/
def execLinkTrainingResult (t : Time) (h : Fin 12) (ok : Bool) (s : State) : Answer :=
  let s := s.at t
  match (s.head h).training with
  | none => .next s
  | some tr =>
    if !s.up (mantleOf h) then .next s
    else match tr.cands with
      | [] => .next (showSends s (trainingOver s h tr tr.attempts) h)
      | c :: r =>
        if s.dt > tr.limit || (!ok && r = []) then .next (showSends s (trainingOver s h tr (tr.attempts + 1)) h)
        else if ok then .next (showSends s (trainedOn s h tr c) h)
        else .next (s.modHead h fun d => { d with training := some { tr with cands := r, attempts := tr.attempts + 1 } })

/-- LINK_TRAINING_TIMEOUT (R131, R600): the time for training has passed. -/
def execLinkTrainingTimeout (t : Time) (h : Fin 12) (s : State) : Answer :=
  let s := s.at t
  match (s.head h).training with
  | none => .next s
  | some tr =>
    if !s.up (mantleOf h) || s.dt < tr.limit then .next s
    else .next (showSends s (trainingOver s h tr (tr.attempts + 1)) h)

/-- A training that HPD does not disturb: that of a HEAD_CONFIG or of start-up (notes/assumptions/32.md). -/
def Head.configTraining (d : Head) : Bool :=
  match d.training with
  | some tr => tr.boot || tr.flight.isSome
  | none => false

/-- HPD_RISE (R132): the sink's declared capabilities come with it. -/
def execHpdRise (t : Time) (h : Fin 12) (sinkRate sinkLanes : Fin 8) (s : State) : Answer :=
  let s := s.at t
  if !isDp h then .next s
  else
    let s1 := s.modHead h fun d => { d with hpd := true, sinkRate := sinkRate, sinkLanes := sinkLanes }
    let d := s.head h
    if s.up (mantleOf h) && d.role ≠ 0 && (d.link = 1 || d.link = 4) && d.training.isNone && !d.hpd then
      .next (showSends s (train s1 h 1 (s1.headCands h) none) h)
    else .next s1

/-- HPD_UNPLUG (R133-R135). -/
def execHpdUnplug (t : Time) (h : Fin 12) (s : State) : Answer :=
  let s := s.at t
  if !isDp h then .next s
  else
    let d := s.head h
    let s1 := s.modHead h fun d => { d with hpd := false }
    if !s.up (mantleOf h) || d.role = 0 || d.configTraining || d.link = 1 then .next s1
    else
      let s2 := linkEvent (setLink (s1.modHead h fun d => { d with training := none }) h 1 0 0) h 2
      .next (showSends s (if d.link = 3 then linkLost s2 h else s2) h)

/-- IRQ_HPD (R133, R135): when lock is lost, retrain first in the configuration in use, then through the list. -/
def execIrqHpd (t : Time) (h : Fin 12) (lockLost : Bool) (s : State) : Answer :=
  let s := s.at t
  let d := s.head h
  if !isDp h || !s.up (mantleOf h) || d.link ≠ 3 || !lockLost then .next s
  else
    let cur := (d.lanes, d.rate)
    .next (showSends s (linkLost (train s h 3 (cur :: (s.headCands h).filter (· ≠ cur)) none) h) h)

/-! ### HEAD_CONFIG_APPLY (R120-R124, R131, R132, R197) -/

/-- A head is turned off: pending flips end with NO_RESOURCE and its slots are disabled (R197). -/
def turnOff (s : State) (h : Nat) : State :=
  let s1 := (s.head h).pend.foldl (fun s p => complete s p.flight stNoResource [0, p.passed, 0, 0]) s
  let s2 := (s.slotsOn h).foldl (fun s n => s.modSlot n fun x => { x with layer := { x.layer with enable := false } }) s1
  s2.modHead h fun d => { d with
    role := 0, link := 0, rate := 0, lanes := 0, running := false, training := none, pend := [], lock := 0, trim := 0
    lockEn := false, next := { d.next with layers := [] }, pic := { d.pic with layers := [] } }

/-- The settings of a HEAD_CONFIG enter a head; its timing restarts at the mode's own pixel clock. -/
def Head.configured (d : Head) (c : Cmd) (cam : Nat) : Head :=
  { d with
    mode := hcMode c, role := hcRole c, cloneSrc := hcSrc c, bpc := hcBpc c, dither := c.b 10 26, dual := hcDual c
    jeida := c.b 12 9, swap := c.b 12 10, ssc := c.b 12 7, lockEn := hcLockEn c, lockCsi := hcLockCsi c
    lockDelay := hcDelay c, lock := b2n (hcLockEn c), trim := 0, lockGood := 0, lockBad := 0, lockMiss := 0, camSeen := cam
    maxRate := if hcMaxRate c = 0 then 6 else hcMaxRate c, maxLanes := if hcMaxLanes c = 0 then 4 else hcMaxLanes c
    frames := if d.role = 0 then 0 else d.frames, nApplied := if d.role = 0 then 0 else d.nApplied
    undFrame := 0, running := false, training := none, applied := none }

/-- A head that becomes a clone uses no layer slot (R126). -/
def dropSlots (s : State) (h : Nat) : State :=
  ((s.slotsOn h).foldl (fun s n => s.modSlot n fun x => { x with layer := { x.layer with enable := false } }) s).modHead h
    fun d => { d with next := { d.next with layers := [] }, pic := { d.pic with layers := [] } }

/-- What a HEAD_CONFIG does at the blanking start where it takes effect. One with ROLE 0 has no frame start to come and
completes here (R122 is silent; notes/assumptions/151.md, DESIGN CHOICE). A link of a safety head that leaves UP is reported
(R135); where the mode changes too, the relocation is that of the mode change (R124). -/
def applyConfig (s : State) (f : Flight) : State :=
  let c := f.cmd
  let h := hcHead c
  let old := s.head h
  if hcRole c = 0 then linkEvent (complete (turnOff s h) f.id stOk noPay) h 0
  else
    let drops := (s.safeOf h).safety && old.link = 3 && isDp h
    let s0 := if hcRole c = 2 then dropSlots s h else s
    let s1 := s0.modHead h fun d => d.configured c (s.csi (hcLockCsi c)).starts
    let s2 := if (s.safeOf h).safety && old.mode ≠ hcMode c then
        relocate (if drops then report s1 (mantleOf h) 0x11 else s1) h 3
      else s1
    let s3 := if !isDp h then
        startTiming (setLink (s2.modHead h fun d => { d with applied := some (f.id, 0) }) h 3 0 0) h
      else if !(s2.head h).hpd then
        let s4 := startTiming (setLink s2 h 1 0 0) h
        linkEvent (complete s4 f.id stOk [linkD4 (s4.head h), 0, 0, 0]) h 0
      else train s2 h 0 (s2.headCands h) (some f.id)
    if drops && old.mode = hcMode c then linkLost s3 h else s3

/-- A HEAD_CONFIG of the head has taken effect and not completed: they run one at a time (R120). -/
def State.configBusy (s : State) (h : Nat) : Bool :=
  (match (s.head h).applied with
    | some a => (s.flight? a.1).isSome
    | none => false) ||
  (match (s.head h).training with
    | some tr => match tr.flight with
      | some id => (s.flight? id).isSome
      | none => false
    | none => false)

/-- HEAD_CONFIG_APPLY: the oldest HEAD_CONFIG of the head takes effect, judged again just before it (R85). -/
def execHeadConfigApply (t : Time) (h : Fin 12) (s : State) : Answer :=
  let s := s.at t
  if !s.up (mantleOf h) || s.configBusy h then .next s
  else match (s.head h).configs.filterMap s.flight? with
    | [] => .next (s.modHead h fun d => { d with configs := [] })
    | f :: r =>
      .next (showSends s
        (recheck (s.modHead h fun d => { d with configs := r.map (·.id) }) { specHeadConfig with run := applyConfig } f) h)

/-! ### Backlight (R151, R152) -/

/-- The frame period of a head with its trim, in ps (R139). -/
def Head.framePs (d : Head) : Nat :=
  let m := modeOf d.mode
  m.ht * m.vt * 1000000000000000 / (m.khz * (1000000 + d.trim).toNat)

/-- The PWM period that FREQ and SYNC give, in ns; an exact half between two whole numbers is rounded up (R152 says nearest
only; notes/assumptions/153.md, DESIGN CHOICE). -/
def pwmPeriod (d : Head) : Nat :=
  let f := fld d.blCfg 16 13
  let freq := if 10 ≤ f && f ≤ 4800 then f else 20
  if d.blCfg.getLsbD 2 then d.framePs / 1000 / max 1 (roundDiv (freq * 10 * d.framePs) 1000000000000)
  else 1000000000 / (freq * 10)

/-- A PWM period ends: the settings written take effect; a safety head keeps its floor and BLENn (R151). -/
def pwmEnd (s : State) (h : Nat) : State :=
  let o := s.safeOf h
  s.modHead h fun d =>
    let duty := if d.next.night then fld d.blDuty 16 12 else fld d.blDuty 0 12
    { d with
      blPeriod := pwmPeriod d, blStart := s.dt
      blDutyA := if o.safety then max o.floor duty else duty
      blOn := d.blCfg.getLsbD 0 || (o.safety && d.running) }

/-- PWM_PERIOD_END (R152): the period in progress is over. -/
def execPwmPeriodEnd (t : Time) (h : Fin 12) (s : State) : Answer :=
  let s := s.at t
  if s.up (mantleOf h) && s.dt ≥ (s.head h).blStart + (s.head h).blPeriod then .next (pwmEnd s h) else .next s

/-! ### FRAME_START (R111, R122, R139-R142, R223, R233, R235) -/

/-- The phase error reduced into [-T/2, T/2) (chapter 3, Line-lock). -/
def phaseError (e : Int) (T : Nat) : Int := if T = 0 then e else (e + T / 2) % T - T / 2

/-- The camera's fractional rate offset d from a mode's nominal frame rate, in ppm, for a camera frame of `cam` ns, and
whether |d| is below 0.005 (chapter 3, Line-lock). -/
def rateOffset (m : Mode) (cam : Nat) : Int :=
  if cam = 0 then 0 else (m.ht * m.vt * 1000000000000 / (cam * m.khz) : Nat) - 1000000
def lockable (m : Mode) (cam : Nat) : Bool :=
  cam = 0 || ((m.ht * m.vt * 1000000 : Nat) - (cam * m.khz : Nat) : Int).natAbs * 200 < cam * m.khz

/-- The trim a head steers for. Out of reach of the camera it is the limit nearest the camera rate (R142). Otherwise it leads
the camera rate by the most, toward closing the phase error, that steps of 500 ppm can take back before the error is closed;
the law is the model's (notes/assumptions/154.md, DESIGN CHOICE). -/
def trimTarget (m : Mode) (cam : Nat) (e : Int) : Int :=
  let d := rateOffset m cam
  if !lockable m cam then (if d < 0 then -5000 else 5000)
  else
    let lead := (Nat.sqrt (250000 + 4 * (e.natAbs * 1000000000 / max m.period 1)) - 500) / 2
    if e ≥ 0 then d + min (lead : Int) (5000 - d) else d - min (lead : Int) (5000 + d)

/-- The trim after a step of at most 500 ppm toward a target, within 5000 (R139). -/
def trimStep (trim target : Int) : Int := clampI (trim + clampI (target - trim) (-500) 500) (-5000) 5000

/-- The trim on its way back to 0 by at most 500 ppm (R139, R141). -/
def trimBack (trim : Int) : Int := if trim.natAbs ≤ 500 then 0 else if trim > 0 then trim - 500 else trim + 500

/-- A change of the line-lock state at a frame start, or when the camera returns, is told to the owner (R155); of a change
that HEAD_CONFIG makes Table 03.7 says nothing, and none is sent (notes/assumptions/41.md, DESIGN CHOICE). -/
def lockEvent (s : State) (h old : Nat) : State :=
  let d := s.head h
  if d.lock = old then s else sendTo s (mantleOf h) (s.headOwner h) 0x0281 h d.lock (code 32 d.trim)

/-- Line-lock at a frame start (R139-R142): no LOCKED with |d| at 0.005 or more. -/
def lineLock (s : State) (h : Nat) : State :=
  let d := s.head h
  let cam := s.csi d.lockCsi
  let m := modeOf d.mode
  if !d.lockEn then s
  else if cam.starts = d.camSeen then
    lockEvent (s.modHead h fun d => { d with
      lock := 3, lockMiss := d.lockMiss + 1, lockGood := 0, lockBad := 0
      trim := if d.lockMiss + 1 > 3 then trimBack d.trim else d.trim }) h d.lock
  else
    let e := phaseError ((d.frameDt : Int) - cam.startDt - d.lockDelay * 100) m.period
    let small := e.natAbs * m.khz < m.ht * 1000000
    let large := e.natAbs * m.khz ≥ 2 * m.ht * 1000000
    let good := if small then d.lockGood + 1 else 0
    let bad := if large then d.lockBad + 1 else 0
    let period := if cam.starts < 2 then 0 else cam.startDt - cam.prevDt
    let st := if !lockable m period then 1 else if d.lock ≠ 2 && good ≥ 4 then 2 else if d.lock = 2 && bad ≥ 2 then 1
      else if d.lock = 2 then 2 else 1
    lockEvent (s.modHead h fun d => { d with
      phase := e, lockGood := good, lockBad := bad, lockMiss := 0, camSeen := cam.starts, lock := st
      trim := trimStep d.trim (trimTarget m period e) }) h d.lock

/-- A camera frame start: a head in HOLDOVER that follows the port enters ACQUIRING (R141). -/
def camReturns (s : State) (port : Nat) : State :=
  (List.range 12).foldl (fun s h =>
    let d := s.head h
    if d.lockEn && d.lockCsi = port && d.lock = 3 && d.running && s.up (mantleOf h) then
      lockEvent (s.modHead h fun d => { d with lock := 1 }) h 3
    else s) s

/-- KIND of a check region's word: 3 acts as 0. -/
def ckKind (w : Word) : Nat := if fld w 0 2 = 3 then 0 else fld w 0 2

/-- How often every source has advanced that has advanced at all: slots 0-63, camera ports as 64-71. -/
def State.srcCounts (s : State) : Tbl Nat :=
  ((List.range 64).map fun n => (n, (s.slotOf n).flips)) ++ ((List.range 8).map fun p => (64 + p, (s.csi p).starts)) |>.filter
    fun e => e.2 ≠ 0

/-- The source of a LIVE region among those. -/
def ckSrc (w : Word) : Nat := if w.getLsbD 2 then 64 + fld w 3 6 % 8 else fld w 3 6

/-- A change of KIND, SRC_KIND or SRC clears a region's counts (R237). -/
def ckClear (k : Check) : Check := { k with count := 0, src := 0, lastSrc := 0, lastCrc := none }

/-- A check region at a frame start: the latched settings hold for the frame, its CRCs start, its source counts when it has
advanced since the previous frame start, whose totals are `was` (R235). -/
def ckStart (s : State) (was : Tbl Nat) (k : Check) : Check :=
  let k := if fld k.cfgL 0 9 = fld k.cfgA 0 9 then k else ckClear k
  { k with
    cfgA := k.cfgL, posA := k.posL, sizeA := k.sizeL, runCrc := 0xFFFFFFFF, runExp := 0xFFFFFFFF, clear := false
    src := if look s.srcCounts (ckSrc k.cfgL) 0 ≠ look was (ckSrc k.cfgL) 0 then k.src + 1 else k.src }

/-- Work on every check region of a head that has been written. -/
def mapChecks (s : State) (h : Nat) (g : Check → Check) : State :=
  s.modHead h fun d => { d with checks := d.checks.map fun (e : Nat × Check) => (e.1, g e.2) }

/-- The frame start of one head. `loopOk` is the serialiser's loopback comparison (R233). A clone's pixel clock has its source's
trim (R127). -/
def frameStart (s : State) (h : Nat) (loopOk : Bool) : State :=
    let stamp := s.stamp (mantleOf h)
    let was := (s.head h).applied
    let s1 := s.modHead h fun d => { d with
      frames := (d.frames + 1) % 2 ^ 32, frameDt := stamp, pic := d.next, applied := none, undFrame := 0
      rows := (d.rows.filter (·.next)).map fun r => { r with next := false }
      trim := if d.role = 2 then (s.head d.cloneSrc).trim else d.trim
      lead := min 2000 (max 50 (fld d.latchCfg 0 11)) }
    let s2 := match was with
      | some (id, n) => linkEvent (completeAt s1 id stOk [linkD4 (s1.head h), n, 0, 0] stamp) h 0
      | none => s1
    let s3 := lineLock s2 h
    let s4 := if (s3.head h).blCfg.getLsbD 2 then pwmEnd s3 h else s3
    let s5 := (mapChecks (showSends s s4 h) h (ckStart s4 (s.head h).srcAt)).modHead h fun d => { d with srcAt := s4.srcCounts }
    if !(s5.safeOf h).safety then s5
    else
      let s6 := (s5.modSafe h fun o => { o with gmActive := o.gmNext }).modPair (pairOf h) fun p =>
        let a := p.backA.filter (· ≠ h)
        { p with backA := a, backB := p.backB.filter (· ≠ h), feedB := if p.stA = 0 && a = [] then false else p.feedB }
      if loopOk then s6 else relocate s6 h 1

/-- The running clones of a head. -/
def State.clonesOf (s : State) (h : Nat) : List Nat :=
  (List.range 12).filter fun k => (s.head k).role = 2 && (s.head k).cloneSrc = h && (s.head k).running && s.up (mantleOf k)

/-- FRAME_START: the first pixel of active line 0 of a head and of its clones, whose frame starts lie within one pixel-clock
period of it (R127); a clone has no frame start but its source's (notes/assumptions/150.md). -/
def execFrameStart (t : Time) (h : Fin 12) (loopOk : Bool) (s : State) : Answer :=
  let s := s.at t
  if !s.up (mantleOf h) || !(s.head h).running || (s.head h).role = 2 then .next s
  else .next (runUpdates ((s.clonesOf h).foldl (fun s k => frameStart s k true) (frameStart s h loopOk)))

/-- FRAME_START_ABSENT (R233): two frame periods of the mode without a frame start of a safety head whose timing runs. -/
def execFrameStartAbsent (t : Time) (h : Fin 12) (s : State) : Answer :=
  let s := s.at t
  let d := s.head h
  if (s.safeOf h).safety && s.up (mantleOf h) && d.running && s.dt ≥ max d.frameDt d.runAt + 2 * (modeOf d.mode).period then
    .next (relocate s h 1)
  else .next s

/-! ### TAIL_LINE (R112, R143-R148, R214, R228-R231) -/

/-- A composed pixel with a plane pixel blended over it (R214). -/
def blendPlane (x : Px) (w : Nat) : Px :=
  let a := bits w 24 8
  let f := fun k c => min 1023 (widen 8 (bits w k 8) + div255 (c * (255 - a)))
  { r := f 16 x.r, g := f 8 x.g, b := f 0 x.b }

/-- Gamma of a head for the frame in progress (R147, R150). -/
def gammaPx (d : Head) (p : Px) : Px :=
  if !d.pic.gOn then p
  else
    let e := fun c => look d.pic.gamma (1024 * b2n d.pic.night + c) 0
    { r := bits (e p.r) 20 10, g := bits (e p.g) 10 10, b := bits (e p.b) 0 10 }

/-- Depth reduction of a component at (x, y) (R148). How the fixed pattern is applied is the model's: its threshold is added
before truncating, and the sum saturates at full scale (notes/assumptions/155.md, DESIGN CHOICE). -/
def depthOf (n : Nat) (dither : Bool) (x y c : Nat) : Nat :=
  if n ≥ 10 then c
  else if dither then min (2 ^ n - 1) ((c + Config.ditherThreshold n (x % 4) (y % 4) % 2 ^ (10 - n)) / 2 ^ (10 - n))
  else c / 2 ^ (10 - n)

/-- A pixel at the serialiser input, packed as R228 takes it. -/
def tailPx (d : Head) (x y : Nat) (p : Px) : Nat :=
  let q := gammaPx d p
  let f := depthOf (bpcBits d.bpc) d.dither x y
  packPx { r := f q.r, g := f q.g, b := f q.b }

/-- The plane lines of the feeding and of the checking renderer for line y of a head, as they hold it for the tail. -/
def State.planeAt (s : State) (h y : Nat) : List Nat × List Nat :=
  match (s.head h).rows.find? fun r => r.y = y && !r.next with
  | some r => (r.feed, r.check)
  | none => ([], [])

/-- A check region lies within the active area (R239). -/
def ckInside (m : Mode) (k : Check) : Bool :=
  let w := fld k.sizeA 0 13
  let h := fld k.sizeA 16 13
  1 ≤ w && 1 ≤ h && fld k.posA 0 13 + w ≤ m.w && fld k.posA 16 13 + h ≤ m.h

/-- Add an output line to a check region's CRCs (R228, R229, R231); `exp` is the checking renderer's line, and `mirror` the
head with the gamma banks that the Watch island mirrors (R230). -/
def ckLine (d mirror : Head) (y : Nat) (out exp : List Nat) (k : Check) : Check :=
  let x0 := fld k.posA 0 13
  let n := fld k.sizeA 0 13
  let kind := ckKind k.cfgA
  if kind = 0 || !ckInside (modeOf d.mode) k || y < fld k.posA 16 13 || y ≥ fld k.posA 16 13 + fld k.sizeA 16 13 then k
  else
    let cut := fun (l : List Nat) => (l.drop x0).take n
    let ps := cut exp
    let want := (ps.zipIdx).map fun (e : Nat × Nat) => tailPx mirror (x0 + e.2) y (blendPlane { r := 0, g := 0, b := 0 } e.1)
    { k with
      runCrc := crcRun k.runCrc ((cut out).flatMap (leBytes 4))
      runExp := if kind = 1 then crcRun k.runExp (want.flatMap (leBytes 4)) else k.runExp
      clear := k.clear || (kind = 1 && ps.any fun w => bits w 24 8 < 255) }

/-- The bits of one pixel clock on the data pairs of an LVDS link, seven for each pair, pair 0 lowest: 'b i', 'g i' and 'r i' are
bit i of the pixel's components, `v` the bits of DE, HSYNC and VSYNC (R136). The VESA and JEIDA mappings are those of the
industry (notes/assumptions/156.md, PRESUMED). -/
def lvdsBits (six jeida : Bool) (px v : Nat) : Nat :=
  let b := fun i => b2n (px.testBit i)
  let g := fun i => b2n (px.testBit (10 + i))
  let r := fun i => b2n (px.testBit (20 + i))
  let o := if jeida && !six then 2 else 0
  let hi := if jeida then 0 else 6
  let base := [r o, r (o + 1), r (o + 2), r (o + 3), r (o + 4), r (o + 5), g o,
    g (o + 1), g (o + 2), g (o + 3), g (o + 4), g (o + 5), b o, b (o + 1),
    b (o + 2), b (o + 3), b (o + 4), b (o + 5), v / 2 % 2, v / 4 % 2, v % 2]
  let pairs := if six then base else base ++ [r hi, r (hi + 1), g hi, g (hi + 1), b hi, b (hi + 1), 0]
  pairs.foldr (fun x n => x + 2 * n) 0

/-- The pixels of an active line as an LVDS output sends them: DE is 1, HSYNC and VSYNC are inactive. -/
def lvdsLine (d : Head) (l : List Nat) : List Nat := l.map fun px => lvdsBits (d.bpc = 0) d.jeida px 1

/-- The pixels of a line on the links of its output (R136, R137). -/
def onLinks (d : Head) (dp : Bool) (px : List Nat) : List (List Nat) :=
  let l := if dp then px else lvdsLine d px
  if dp || !d.dual then [l]
  else
    let even := (l.zipIdx.filter fun (e : Nat × Nat) => e.2 % 2 = 0).map fun (e : Nat × Nat) => e.1
    let odd := (l.zipIdx.filter fun (e : Nat × Nat) => e.2 % 2 = 1).map fun (e : Nat × Nat) => e.1
    if d.swap then [odd, even] else [even, odd]

/-- TAIL_LINE: one output line passes the tail. `ready` pixels were composed in time (R143); `fault` is a
disturbance of the output pixels by a fault of the tail, zero for none. -/
def execTailLine (t : Time) (h : Fin 12) (y : Nat) (ready : Nat) (fault : Word) (s : State) : Answer :=
  let s := s.at t
  let d := s.head h
  let w := (modeOf d.mode).w
  if !s.framing h || y ≥ (modeOf d.mode).h then .next s
  else
    let s := readyRow s h y
    let comp := composeLine s h y ready
    let plane := s.planeAt h y
    let blended := (comp.zipIdx).map fun (e : Px × Nat) => blendPlane e.1 (plane.1.getD e.2 0)
    let out := (blended.zipIdx).map fun (e : Px × Nat) => tailPx d e.2 y e.1 ^^^ fault.toNat % 2 ^ 30
    let rep := w - ready
    let s1 := s.modHead h fun d => { d with
      rows := d.rows.filter fun r => r.next || r.y > y
      lastPix := match comp.getLast? with
        | some p => packPx p
        | none => d.lastPix
      undPix := satAdd d.undPix rep 0xFFFFFFFF
      undLines := if rep = 0 then d.undLines else satInc d.undLines 0xFFFFFFFF
      undFrame := if rep = 0 then d.undFrame else d.undFrame + 1 }
    let mirror := { d with pic := { d.pic with gamma := (s.safeOf h).gmActive } }
    let s2 := mapChecks s1 h (ckLine d mirror y out plane.2)
    .next (if d.link = 3 then s2.emit (.line h y (onLinks d (isDp h) out)) else s2)

/-- UNDERRUN_CLR (R145). -/
def execUnderrunClr (t : Time) (ini : Fin 128) (h : Fin 12) (w : Word) (s : State) : Answer :=
  .next (headWrite (s.at t) ini h false fun s =>
    if w.getLsbD 0 then s.modHead h fun d => { d with undPix := 0, undLines := 0 } else s)

/-! ### BLANKING_START (R146, R179, R194-R196, R226, R231, R232, R236, R244, R250) -/

/-- Flips and commits judged at the latch before complete, then those that timed out (R194-R196, R250). -/
def completeDone (s : State) (h : Nat) : State :=
  let stamp := s.stamp (mantleOf h)
  let d := s.head h
  let s1 := s.modHead h fun d => { d with done := [], pend := d.pend.filter fun p => !p.timedOut }
  let s2 := d.done.foldl (fun s e => completeAt s e.flight e.status e.pay stamp) s1
  (d.pend.filter (·.timedOut)).foldl (fun s p => completeAt s p.flight stTimedOut [0, p.passed, 0, 0] stamp) s2

/-- CHECK_FROZEN goes to the owner of the head and, for a safety head, to the owner of its partner (R253). -/
def frozenEvent (s : State) (h k d7 : Nat) : State :=
  let told := if (s.safeOf h).safety then [s.headOwner h, s.headOwner (s.safeOf h).partner] else [s.headOwner h]
  (told.filterMap id).eraseDups.foldl (fun s f => sendEvent s (mantleOf h) f 0x0283 h k d7) s

/-- A check region with a field changed. -/
def State.modCheck (s : State) (h k : Nat) (g : Check → Check) : State :=
  s.modHead h fun d => { d with checks := put d.checks k (g (look d.checks k {})) }

/-- The freeze detector on one LIVE region at a blanking start (R236). -/
def freezeDetect (s : State) (h i : Nat) (k : Check) (crc : Nat) : State :=
  match k.lastCrc with
  | none => s.modCheck h i fun k => { k with crc := crc, skipped := false, lastCrc := some crc, lastSrc := k.src }
  | some last =>
    let adv := k.src ≠ k.lastSrc
    let same := if adv then (if crc = last then satInc k.count 0xFF else 0) else k.count
    let thaw := crc ≠ last && k.frozen
    let frz := k.frozen && !thaw
    let hit := same ≥ max 1 (fld k.cfgA 16 8) && !frz
    let s1 := if thaw then frozenEvent s h i 1 else s
    let s2 := if hit then frozenEvent s1 h i 0 else s1
    s2.modCheck h i fun k => { k with
      crc := crc, skipped := false, count := same, frozen := frz || hit, lastCrc := some crc, lastSrc := k.src }

/-- One check region at a blanking start (R228-R231, R235, R236, R239). -/
def ckEnd (s : State) (h i : Nat) (k : Check) : State :=
  let crc := k.runCrc ^^^ 0xFFFFFFFF
  let exp := k.runExp ^^^ 0xFFFFFFFF
  if ckKind k.cfgA = 0 then s.modCheck h i fun k => { k with expect := 0 }
  else if !ckInside (modeOf (s.head h).mode) k then s.modCheck h i fun k => { k with skipped := true }
  else if ckKind k.cfgA = 2 then freezeDetect (s.modCheck h i fun k => { k with expect := 0 }) h i k crc
  else if k.clear then s.modCheck h i fun k => { k with crc := crc, expect := exp, skipped := true, count := 0 }
  else s.modCheck h i fun k => { k with
    crc := crc, expect := exp, skipped := false, mismatch := crc ≠ exp, count := if crc = exp then 0 else satInc k.count 0xFF }

/-- Whether the SAFETY regions of the frame just ended were compared, and differed or matched: none when every one
of them was skipped; a head without one counts as matching (notes/assumptions/33.md). -/
def frameVerdict (d : Head) : Option Bool :=
  let ks := (d.checks.map fun (e : Nat × Check) => e.2).filter fun k => ckKind k.cfgA = 1
  let cmp := ks.filter fun k => !k.skipped
  if cmp.any (·.mismatch) then some false else if ks = [] || cmp ≠ [] then some true else none

/-- The comparison of a safety head's frame and what follows from it (R231, R232, R244). -/
def safetyFrame (s : State) (h : Nat) : State :=
  let o := s.safeOf h
  let end_ := fun (s : State) => if (s.safeOf h).fault then endRelocation s h else s
  match frameVerdict (s.head h) with
  | none => s.modSafe h fun o => { o with misRun := 0 }
  | some true =>
    let s1 := s.modSafe h fun o => { o with misRun := 0, goodRun := if o.restore then o.goodRun + 1 else 0 }
    if o.fault && (o.cause = 3 || (o.restore && o.goodRun + 1 ≥ 2)) && s.flt.coresUp then end_ s1 else s1
  | some false =>
    let s1 := s.modSafe h fun o => { o with misRun := o.misRun + 1, goodRun := 0, misFrames := satInc o.misFrames 0xFFFF }
    if o.misRun + 1 ≥ 2 then relocate s1 h 0 else s1

/-- BLANKING_START: the last active line has passed. `cmpOk` is the comparator's test in this blanking (R226). -/
def execBlankingStart (t : Time) (h : Fin 12) (cmpOk : Bool) (s : State) : Answer :=
  let s := s.at t
  if !s.framing h then .next s
  else
    let s1 := completeDone s h
    let d := s1.head h
    let s2 := if d.undFrame = 0 then s1
      else sendTo (s1.modHead h fun d => { d with undFrame := 0 }) (mantleOf h) (s1.headOwner h) 0x0282 h d.undFrame d.frames
    let s3 := d.checks.foldl (fun s (e : Nat × Check) => ckEnd s h e.1 e.2) s2
    let s4 := (List.range 64).foldl (fun s n =>
      if (s.slotOf n).head = h.val then s.modSlot n fun x => { x with hidden := d.pic.hidden.contains n } else s) s3
    if !(s.safeOf h).safety then .next s4
    else .next (safetyFrame (if cmpOk then s4 else report s4 1 0x14) h)

/-! ### LATCH (R149, R150, R180, R190-R199, R237, R240, R250) -/

/-- A pending flip is ready by itself (R190). With `tie` an event at this very instant counts (R195); with `late`
every part of it must lie before this instant (R199). -/
def State.flipReady (s : State) (p : PFlip) (tie late : Bool) : Bool :=
  (tie || p.arrive < s.dt) && (p.target = 0 || p.target < s.dt || (!late && p.target = s.dt)) &&
  p.entries.all fun e => !(e.enable && e.wait) ||
    (if tie then s.fence p.fn e.fence else s.fenceBefore p.fn e.fence) ≥ e.value

/-- The members of a flip group that have reached Mantle and are not yet let go (R198). -/
def State.groupOf (s : State) (p : PFlip) : List PFlip :=
  (List.range 12).flatMap fun h => (s.head h).pend.filter fun q => q.fn = p.fn && q.group = p.group && q.gid = p.gid && !q.timedOut

/-- Every member of the group has arrived and is ready (R199). -/
def State.groupReady (s : State) (p : PFlip) (tie : Bool) : Bool :=
  (s.groupOf p).length ≥ p.gsize && (s.groupOf p).all fun q => s.flipReady q tie true

/-- The members of every group that is ready are let go; each is applied at a latch of its own head. -/
def releaseGroups (s : State) : State :=
  (List.range 12).foldl (fun s' h => s'.modHead h fun d => { d with
    pend := d.pend.map fun p => if p.group ≠ 0 && !p.go && s.groupReady p false then { p with go := true } else p }) s

/-- A pending flip may be applied at this latch but for R191. -/
def State.latchReady (s : State) (p : PFlip) : Bool :=
  !p.timedOut && (if p.group = 0 then s.flipReady p false false else p.go)

/-- Disable a slot. -/
def disableSlot (s : State) (n : Nat) : State :=
  s.modSlot n fun x => { x with layer := { x.layer with enable := false }, dropAt := false }

/-- One entry of an applied flip (R192, R204, R235). An entry with ENABLE = 0 disables its slot at this latch even where
another head shows it; that head shows it until its own next latch (R157 is silent; notes/assumptions/161.md, DESIGN
CHOICE). -/
def applyEntry (fn h : Nat) (s : State) (e : Layer) : State :=
  if e.enable then
    (holdPerf s (mantleOf h) fn).modSlot e.slot fun x => { x with
      layer := e, head := h, fn := fn, flips := x.flips + 1, bcsErr := 0, ringMiss := 0, dropAt := false }
  else (disableSlot s e.slot).modSlot e.slot fun x => { x with flips := x.flips + 1 }

/-- The layers as a flip leaves them: REPLACE first, then its entries (Tables 04.4 and 04.5). -/
def applyLayers (s : State) (h : Nat) (p : PFlip) : State :=
  let named := p.entries.map (·.slot)
  let s1 := if p.replace then
      ((s.slotsOn h).filter fun n => (s.slotOf n).fn = p.fn && !named.contains n).foldl disableSlot s
    else s
  p.entries.foldl (applyEntry p.fn h) s1

/-- The flip keeps the limits of R193; `s1` is the state it leaves. -/
def flipFits (s s1 : State) (h : Nat) (p : PFlip) : Bool :=
  let isl := mantleOf h
  let zs := (s1.slotsOn h).map fun n => (s1.slotOf n).layer.z
  zs.length ≤ 8 && zs.eraseDups.length = zs.length &&
  (p.entries.all fun e => !e.enable ||
    (!((s.slotOf e.slot).layer.enable && (s.slotOf e.slot).head ≠ h) && (!e.lineLock || (s.ringOf h e.csi).isSome))) &&
  (s1.islandDemand isl ≤ fetchCeiling || s1.islandDemand isl ≤ s.islandDemand isl)

/-- Judge the pending flips of a head in the order in which they started (R191-R196); `blocked` lists the functions
with an earlier flip that is not ready. -/
def judge (h : Nat) (L : Time) : State → List PFlip → List Nat → State
  | s, [], _ => s
  | s, p :: r, blocked =>
    if blocked.contains p.fn || !s.latchReady p then
      let keep := { p with passed := p.passed + 1, due := p.due || (p.arrive < s.dt && (p.target = 0 || p.target ≤ s.dt)) }
      judge h L (s.modHead h fun d => { d with pend := d.pend ++ [keep] }) r (p.fn :: blocked)
    else
      let s1 := applyLayers s h p
      if flipFits s s1 h p && ((s.head h).role ≠ 2 || p.entries = []) then
        judge h L (s1.modHead h fun d => { d with
          nApplied := (d.nApplied + 1) % 65536
          night := if p.night = 2 then false else if p.night = 3 then true else d.night
          done := d.done ++ [{ flight := p.flight, status := if p.due then stLate else stOk
                               pay := [(d.frames + 1) % 2 ^ 32, p.passed, lo32 L, hi32 L] }] }) r blocked
      else judge h L (complete s p.flight stNoResource [0, p.passed + 1, 0, 0]) r blocked

/-- A commit whose validation ended before this latch is applied (R250). -/
def applyCommit (s : State) (h : Nat) (L : Time) : State :=
  match (s.safeOf h).commit with
  | some (id, tEnd) =>
    if !(s.safeOf h).safety || s.wl.frozen || tEnd ≥ s.dt then s
    else
      let bank := 1 - (s.safeOf h).bankL
      (fileDirectory (s.modSafe h fun o => { o with bankL := bank, commit := none, refresh := true }) h).modHead h fun d => { d with
        done := d.done ++ [{ flight := id, status := stOk, pay := [(d.frames + 1) % 2 ^ 32, 0, lo32 L, hi32 L] }] }
  | none => s

/-- At a latch of a head, the relocated lists that name it as partner enter or leave its plane (R240, R244). -/
def latchRelocated (s : State) (p : Nat) : State :=
  if s.wl.frozen then s
  else (List.range 12).foldl (fun s k =>
    if (s.safeOf k).safety && (s.safeOf k).partner = p then s.modSafe k fun o => { o with reloc := o.fault } else s) s

/-- A check region's shadows become active; a change of KIND, SRC_KIND or SRC clears its counts (R237). -/
def ckLatch (k : Check) : Check :=
  let k1 := { k with cfgL := k.cfg, posL := k.pos, sizeL := k.size }
  if fld k.cfg 0 9 = fld k.cfgL 0 9 then k1 else ckClear k1

/-- The slots of layers that are covered on every line they show (R179). -/
def hiddenIn (m : Mode) (ls : List PicLayer) : List Nat := (ls.filter fun p => (p.bareLines m).isEmpty).map (·.slot)

/-- The shadows due at a latch, the layers and the plane lists form the next frame's picture (R149, R150, R180, R192). -/
def latchPicture (s : State) (h : Nat) (L : Time) : State :=
  let d := s.head h
  let layers := s.zOrder h
  let lists := if s.wl.frozen then d.next.lists.map fun l => (l.1, l.2.1 / 0x800 * 0x800 + 0x400 * b2n d.night, l.2.2)
    else s.planeLists h d.night
  let commit := d.gCommit && decide (d.gCommitAt < s.dt)
  let pic : Pic := { layers := layers, bg := d.bg.toNat % 2 ^ 30, night := d.night, blink := L, lists := lists
                     gamma := if commit then d.gShadow else d.next.gamma, gOn := d.gEnable, hidden := hiddenIn (modeOf d.mode) layers }
  let s1 := if commit && (s.safeOf h).safety then s.modSafe h fun o => { o with gmNext := o.gmShadow } else s
  mapChecks (s1.modHead h fun d => { d with
    next := pic, nightP := d.nightW.isSome, gCommit := d.gCommit && !commit, lastLatch := s.dt }) h ckLatch

/-- A latch takes the last write of NIGHT before its instant (R44, R150). -/
def takeNight (s : State) (h : Nat) : State :=
  s.modHead h fun d => match d.nightW with
    | some w => if w.2 < s.dt then { d with night := w.1, nightW := none } else d
    | none => d

/-- The latch of a head (R190-R193). -/
def latchHead (s : State) (h : Nat) : State :=
  let L := s.stamp (mantleOf h)
  let s1 := ((s.slotsOn h).filter fun n => (s.slotOf n).dropAt).foldl disableSlot s
  let s2 := releaseGroups (takeNight s1 h)
  let s3 := judge h L (s2.modHead h fun d => { d with pend := [] }) (s2.head h).pend []
  runUpdates (latchPicture (latchRelocated (applyCommit s3 h L) h) h L)

/-! ### Gamma, night, AUX, reads -/

/-- GAMMA_DATA_WRITE (R149, R151, R230): one entry of the shadow of the bank addressed; INDEX increments and wraps. -/
def execGammaDataWrite (t : Time) (ini : Fin 128) (h : Fin 12) (w : Word) (s : State) : Answer :=
  .next (headWrite (s.at t) ini h true fun s =>
    let d := s.head h
    let k := 1024 * b2n d.gBank + d.gIndex
    (s.modHead h fun d => { d with gShadow := put d.gShadow k (w.toNat % 2 ^ 30), gIndex := (d.gIndex + 1) % 1024 }).modSafe h
      fun o => if o.safety then { o with gmShadow := put o.gmShadow k (w.toNat % 2 ^ 30) } else o)

/-- GAMMA_COMMIT (R149, R151): one already set stays as it was set. -/
def execGammaCommit (t : Time) (ini : Fin 128) (h : Fin 12) (s : State) : Answer :=
  .next (headWrite (s.at t) ini h true fun s => s.modHead h fun d =>
    if d.gCommit then d else { d with gCommit := true, gCommitAt := s.dt })

/-- NIGHT as an earlier write left it. -/
def Head.nightNow (d : Head) : Bool := (d.nightW.map (·.1)).getD d.night

/-- NIGHT_WRITE (R150): the shadow; a write of an earlier instant that no latch has taken yet stands for a latch at this one. -/
def execNightWrite (t : Time) (ini : Fin 128) (h : Fin 12) (night : Bool) (s : State) : Answer :=
  .next (headWrite (s.at t) ini h false fun s => s.modHead h fun d => { d with
    night := match d.nightW with
      | some w => if w.2 < s.dt then w.1 else d.night
      | none => d.night
    nightW := some (night, s.dt), nightP := true })

/-- A native AUX write (REQUEST 8, as DisplayPort defines it). -/
def auxNativeWrite (d : Head) : Bool := fld d.aux 0 4 = 8

/-- AUX_START (R151, R153): a native write on a safety head from the normal world is refused with RESULT 3; that its write
of the register was dropped and counted is REGISTER_WRITE's part (R521). -/
def execAuxStart (t : Time) (ini : Fin 128) (h : Fin 12) (s : State) : Answer :=
  .next (headWrite (s.at t) ini h false fun s =>
    if !isDp h || (s.head h).auxBusy then s
    else if (s.safeOf h).safety && !s.isSecure ini && (s.head h).auxShut then s.modHead h fun d => { d with auxRes := 3 }
    else if (s.safeOf h).safety && auxNativeWrite (s.head h) && !s.isSecure ini then
      worldViolation (s.modHead h fun d => { d with auxRes := 3 }) (mantleOf h) ini
    else s.modHead h fun d => { d with auxBusy := true, auxRun := d.aux, auxTries := 0, auxSince := s.dt })

/-- Bytes of an AUX read in the data registers, first byte in [7:0] of word 0. -/
def auxStore (d : Head) (n : Nat) (data : List Byte) : Head :=
  { d with auxData := (List.range n).foldl (fun tb i =>
      let w := look tb (i / 4) 0
      put tb (i / 4) (w - bits w (8 * (i % 4)) 8 * 2 ^ (8 * (i % 4)) + (data.getD i 0).toNat * 2 ^ (8 * (i % 4)))) d.auxData }

/-- A transaction of the owner is on the wire: not while the link trains (R153). -/
def State.auxLive (s : State) (h : Nat) : Bool := s.up (mantleOf h) && (s.head h).auxBusy && (s.head h).link ≠ 2

/-- AUX_REPLY: 0 ACK, 1 NACK, 2 DEFER; up to seven DEFERs are retried. -/
def execAuxReply (t : Time) (h : Fin 12) (reply : Fin 3) (data : List Byte) (s : State) : Answer :=
  let s := s.at t
  if !s.auxLive h then .next s
  else .next (s.modHead h fun d =>
    if reply = 2 && d.auxTries < 7 then { d with auxTries := d.auxTries + 1, auxSince := s.dt }
    else
      let d1 := { d with auxBusy := false, auxRes := reply.val }
      if reply = 0 && d.auxRun.getLsbD 0 then auxStore d1 (fld d.auxRun 24 4 + 1) data else d1)

/-- AUX_TIMEOUT: no reply for 400 us. -/
def execAuxTimeout (t : Time) (h : Fin 12) (s : State) : Answer :=
  let s := s.at t
  if s.auxLive h && s.dt ≥ (s.head h).auxSince + 400 * us then
    .next (s.modHead h fun d => { d with auxBusy := false, auxRes := 2 })
  else .next s

/-- An initiator's register read reaches an island: a function's through its port, any other directly. -/
def State.canRead (s : State) (ini isl : Nat) : Bool := s.up isl && (ini ≥ 64 || s.reach ini)

/-- FRAME_DT_LO_READ (R42): the stamp is captured for the reading initiator and its low word returned. -/
def execFrameDtLoRead (t : Time) (ini : Fin 128) (h : Fin 12) (s : State) : Answer :=
  let s := s.at t
  if !s.canRead ini (mantleOf h) then .next s
  else
    let v := (s.head h).frameDt
    .next ({ s with time := { s.time with snapFrame := put s.time.snapFrame (16 * ini.val + h.val) v } }.emit
      (.readData ini (lo32 v)))

end Sys2Proof.Machine
end

