-- ==== Sys2Proof/Machine/Spirv.lean ====
section
/-! DEFINITION. Chapter 7: what Table 07.8 accepts of a SPIR-V module (R317, R321), and the stages of a pipeline record
(Table 07.7). The layout of a module's words and the numbers of its capabilities are those of the SPIR-V standard
(notes/assumptions/149.md). -/

namespace Sys2Proof.Machine

/-- The capabilities of Table 07.8 in its order, by their numbers in the standard. -/
def spirvCaps : List Nat :=
  [1, 0, 9, 39, 22, 11, 4433, 4434, 4448, 4449, 4435, 50, 51, 42, 41, 29, 30, 5301, 5302, 4427, 4439,
   61, 62, 63, 64, 65, 66, 67, 68, 5345, 5347, 6019, 6018, 6022]

/-- The limits of Table 07.8: subgroup size, work group invocations, work group size in x, y and z, shared memory, image
size, push constants, descriptor sets, vertex bindings and attributes, vertex output components, colour attachments,
viewports, samples, anisotropy, storage buffer range. -/
def spirvLimits : List Nat :=
  [32, 1024, 1024, 1024, 64, 65536, 16384, 256, 8, 32, 32, 128, 8, 16, 4, 16, 2147483648]

/-- Word i of a module. -/
def moduleWord (m : List Byte) (i : Nat) : Nat := leNat ((m.drop (4 * i)).take 4)

/-- The header of a module: its magic number, and a version from 1.0 to 1.6. -/
def spirvHeader (m : List Byte) : Bool :=
  m.length % 4 = 0 && 20 ≤ m.length && moduleWord m 0 = 0x07230203 &&
  [0x10000, 0x10100, 0x10200, 0x10300, 0x10400, 0x10500, 0x10600].contains (moduleWord m 1)

/-- The OpCapability instructions, which come first in a module, from word i on. -/
def moduleCaps (m : List Byte) : Nat → Nat → List Nat
  | 0, _ => []
  | k + 1, i => if moduleWord m i = 0x20011 then moduleWord m (i + 1) :: moduleCaps m k (i + 2) else []

/-- A module is valid SPIR-V of an accepted version with nothing beyond Table 07.8 (R317, R321). -/
def moduleOk (rec m : List Byte) : Bool :=
  spirvHeader m && ((moduleCaps m (m.length / 8) 5).all fun c => spirvCaps.contains c) &&
  ((spirvLimits.zipIdx).all fun e => Config.limitUse rec m e.2 ≤ e.1) && Config.spirvValid m

/-- The stages of a record: as many as its stage count gives (Table 07.7). -/
def recordStages (rec : List Byte) : List (Nat × List Byte) :=
  (List.range (bits (leNat (rec.take 4)) 8 4)).filterMap (Config.stageOf rec)

/-- The first stage of a record whose module is not accepted: vertex, fragment or compute (R317). -/
def failingStage (rec : List Byte) : Option Nat :=
  ((recordStages rec).find? fun e => e.1 > 2 || !moduleOk rec e.2).map (·.1)

end Sys2Proof.Machine
end

