-- ==== Sys2Proof/Machine/Stream.lean ====
section
/-! DEFINITION. Chapter 7: context records (Table 07.2, R297, R300) and the validation of command streams (R302, R305,
R319, Tables 07.5 and 07.6). -/

namespace Sys2Proof.Machine

/-- Tiles of a render area. -/
def tileCount (w h : Nat) : Nat := ceilDiv w 32 * ceilDiv h 32

/-- The context record at an address (Table 07.2). -/
def readCtxRec (s : State) (fn a : Nat) : CtxRec :=
  let n := fun o k => memNat s fn (a + o) k
  { kind := n 0 4 % 2, saveBase := n 8 8, saveKib := n 0x10 4, binBase := n 0x18 8
    binUnits := if n 0x20 4 % 32 = 0 then 1 else n 0x20 4 % 32, spillBase := n 0x28 8, spillKib := n 0x30 4
    maxW := n 0x34 2, maxH := n 0x36 2, maxAtt := n 0x38 4 % 16, maxSmp := n 0x38 4 / 16 % 8 }

/-- The areas of a context: base and length (R300). -/
def CtxRec.areas (r : CtxRec) : List (Nat × Nat) :=
  (r.saveBase, r.saveKib * 1024) ::
    (if r.kind = 0 then [(r.binBase, r.binUnits * 67108864), (r.spillBase, r.spillKib * 1024)] else [])

/-- Two ranges overlap. -/
def overlap (x y : Nat × Nat) : Bool := x.1 < y.1 + y.2 && y.1 < x.1 + x.2

/-- No two ranges of a list overlap. -/
def apart : List (Nat × Nat) → Bool
  | [] => true
  | x :: r => !r.any (overlap x) && apart r

/-- Reserved bits and words of the record are zero. -/
def ctxRecZero (s : State) (fn a : Nat) : Bool :=
  let n := fun o k => memNat s fn (a + o) k
  n 0 4 / 2 = 0 && n 4 4 = 0 && n 0x14 4 = 0 && n 0x20 4 / 32 = 0 && n 0x24 4 = 0 && n 0x38 4 / 128 = 0 &&
  (List.range 49).all fun i => n (0x3C + 4 * i) 4 = 0

/-- The record keeps Table 07.2, R297 and R300; `others` are the areas of the function's other contexts. -/
def CtxRec.ok (r : CtxRec) (mapped : Nat) (others : List (Nat × Nat)) : Bool :=
  r.saveBase % 65536 = 0 && r.saveKib ≥ 12352 &&
  1 ≤ r.maxW && r.maxW ≤ 16384 && 1 ≤ r.maxH && r.maxH ≤ 16384 && 1 ≤ r.maxAtt && r.maxAtt ≤ 9 &&
  (r.maxSmp = 1 || r.maxSmp = 4) &&
  (r.kind = 1 || (r.binBase % 65536 = 0 && r.binUnits ≤ 16 && r.spillBase % 65536 = 0 &&
    r.spillKib * 1024 ≥ tileCount r.maxW r.maxH * r.maxAtt * r.maxSmp * 4160)) &&
  (r.areas.all fun x => x.1 + x.2 ≤ mapped) && apart r.areas && !(r.areas.any fun x => others.any (overlap x))

/-! ### Packets -/

/-- A packet: its header and payload words. -/
abbrev Packet := List Nat

def pkClass (p : Packet) : Nat := bits (p.getD 0 0) 0 4
def pkOp (p : Packet) : Nat := bits (p.getD 0 0) 4 12
def pkLen (p : Packet) : Nat := bits (p.getD 0 0) 16 16
def pkW (p : Packet) (i : Nat) : Nat := p.getD (i + 1) 0
def pk64 (p : Packet) (i : Nat) : Nat := pkW p i + 2 ^ 32 * pkW p (i + 1)

/-- Attachments of a PASS BEGIN: colour count and depth. -/
def pkAtts (p : Packet) : Nat := bits (pkW p 1) 0 4 + bits (pkW p 1) 4 1

/-- Attachment records are as chapter 7 describes them: format by kind, LOAD, BCS formats. -/
def attachOk (p : Packet) : Bool :=
  (List.range (pkAtts p)).all fun i =>
    let w3 := pkW p (2 + 8 * i + 3)
    let f := bits w3 0 4
    (if i < bits (pkW p 1) 0 4 then f ≤ 6 else f = 8 || f = 9) && bits w3 4 2 ≠ 3 && (!w3.testBit 7 || f = 3 || f = 4)

/-- A packet other than FLOW and PASS END keeps Table 07.6 and R305: `gfx` a graphics context, `inPass` inside a pass. -/
def packetOk (rec : CtxRec) (gfx inPass : Bool) (owned : Nat → Bool) (p : Packet) : Bool :=
  let n := pkLen p
  match pkClass p, pkOp p with
  | 0, 0 => true
  | 1, 1 => n = 2 && owned (pk64 p 0)
  | 1, 2 => n = 7 && gfx && pkW p 0 ≤ 15
  | 1, 3 => n = 3 && gfx && pkW p 0 ≤ 15
  | 1, 4 => n ≥ 1 && pkW p 0 + 4 * (n - 1) ≤ 256
  | 2, 1 => n = 3 && pkW p 0 ≤ 7
  | 2, 2 => n = 4 && gfx && pkW p 0 ≤ 31
  | 2, 3 => n = 4 && gfx && pkW p 0 ≤ 2
  | 3, 1 =>
    n = 2 + 8 * pkAtts p && gfx && !inPass && bits (pkW p 1) 0 4 ≤ 8 && attachOk p &&
    bits (pkW p 0) 0 16 ≤ rec.maxW && bits (pkW p 0) 16 16 ≤ rec.maxH && pkAtts p ≤ rec.maxAtt &&
    (bits (pkW p 1) 5 3 = 1 || bits (pkW p 1) 5 3 = 4) && bits (pkW p 1) 5 3 ≤ rec.maxSmp
  | 4, 1 => n = 4 && gfx && inPass
  | 4, 2 => n = 5 && gfx && inPass
  | 4, 3 => n = 4 && gfx && inPass
  | 4, 4 => n = 4 && gfx && inPass
  | 5, 1 => n = 3 && !gfx
  | 5, 2 => n = 2 && !gfx
  | 6, 1 => n = 2 && !inPass
  | 6, 2 => n = 7 && !inPass
  | 6, 3 => n = 5 && !inPass
  | 7, 1 => n = 2
  | 7, 2 => n = 2 && gfx
  | 7, 3 => n = 0 && gfx
  | _, _ => false

/-- The outcome of a validation: the offset of the first bad packet, or the packets reached in order, RETURN left out, and
the bytes validated; or a called stream in a lost partition, or on a channel that does not answer. -/
inductive Checked where
  | bad (off : Nat)
  | good (ps : List Packet) (total : Nat)
  | lost
  | stall (chan : Nat)

/-- Validate a stream of `len` bytes at `base` from `off` on: `depth` CALLs deep, `outer` inside a pass of its caller,
`opened` the offset of its own open pass, `total` the bytes validated so far (R302, R305). -/
def checkStream (s : State) (fn : Nat) (rec : CtxRec) (gfx : Bool) (owned : Nat → Bool) :
    Nat → (depth base len off : Nat) → (outer : Bool) → (opened : Option Nat) → (acc : List Packet) → (total : Nat) → Checked
  | 0, _, _, _, off, _, _, _, _ => .bad off
  | k + 1, depth, base, len, off, outer, opened, acc, total =>
    if off ≥ len then
      (if depth > 0 then .bad off else match opened with
        | some o => .bad o
        | none => .good acc.reverse total)
    else
      let hdr := memNat s fn (base + off) 4
      let n := bits hdr 16 16
      if off + 4 + 4 * n > len then .bad off
      else
        let p : Packet := hdr :: (List.range n).map fun i => memNat s fn (base + off + 4 + 4 * i) 4
        let next := off + 4 + 4 * n
        let inPass := outer || opened.isSome
        if pkClass p = 8 && pkOp p = 1 then
          let a := pk64 p 0
          let l := 16 * pkW p 2
          if n ≠ 3 || depth ≥ 4 || total + l > 4194304 || a % 4 ≠ 0 then .bad off
          else if s.touchesLost fn a l then .lost
          else match s.stallAt fn a l, checkStream s fn rec gfx owned k (depth + 1) a l 0 inPass none [] (total + l) with
            | some c, _ => .stall c
            | none, .bad _ => .bad off
            | none, .good ps tot => checkStream s fn rec gfx owned k depth base len next outer opened (ps.reverse ++ p :: acc) tot
            | none, r => r
        else if pkClass p = 8 && pkOp p = 2 then
          (if n = 0 && depth > 0 && next = len && opened = none then .good acc.reverse total else .bad off)
        else if pkClass p = 3 && pkOp p = 2 then
          (if n = 0 && opened.isSome then checkStream s fn rec gfx owned k depth base len next outer none (p :: acc) total
           else .bad off)
        else if packetOk rec gfx inPass owned p then
          checkStream s fn rec gfx owned k depth base len next outer
            (if pkClass p = 3 then some off else opened) (p :: acc) total
        else .bad off

end Sys2Proof.Machine
end

