-- ==== Sys2Proof/Machine/Bins.lean ====
section
/-! DEFINITION. Chapter 7: the level-2 cache (R296, R303), tile binning, partial renders and the spill form (R308-R311),
attachments, sparse images (R312-R314) and the accesses of shaders (R306). What the tapers compute is a free value
(notes/assumptions/76.md). -/

namespace Sys2Proof.Machine

/-! ### Memory as the tapers see it -/

/-- A range of the issuer's memory that a context is about to use: a lost partition ends its submission (R366), a channel
that does not answer stalls it (R350, R361). -/
def touch (s : State) (c a n : Nat) : State :=
  let fn := (s.ctx c).fn
  if s.touchesLost fn a n then s.modCtx c fun x => { x with lost := true }
  else match s.stallAt fn a n with
    | some k => s.modCtx c fun x => { x with stall := some (x.stall.getD k) }
    | none => s

/-- A byte as the tapers read it: the newest write of the level-2 cache to its place, else memory. -/
def chdByte (s : State) (fn a : Nat) : Byte :=
  match s.chand.l2.reverse.find? fun e => e.1 = fn && e.2.1 ≤ a && a < e.2.1 + e.2.2.length with
  | some e => if (s.place fn a).isSome then e.2.2.getD (a - e.2.1) 0 else 0
  | none => memByte s fn a

def chdBytes (s : State) (fn a n : Nat) : List Byte := (List.range n).map fun i => chdByte s fn (a + i)

/-- A number the tapers read. -/
def chdNat (s : State) (fn a n : Nat) : Nat := leNat (chdBytes s fn a n)

/-- The tapers, or the queue processors for a context, read a range: it enters the cache, or stalls the context. -/
def chdRead (s : State) (c a n : Nat) : State := touch (readRange (touch s c a n) (s.ctx c).fn a n) c a n

/-- The tapers write bytes: they stand in the level-2 cache until it is written back (R303); beyond the issuer's memory
they are dropped (R57). -/
def chdWrite (s : State) (c a : Nat) (l : List Byte) : State :=
  (touch s c a l.length).modChand fun d => { d with l2 := d.l2 ++ [((s.ctx c).fn, a, l)] }

/-- The level-2 cache is written back to device memory, in the order of the writes. -/
def writeBack (s : State) : State :=
  (s.chand.l2).foldl (fun s e => memWrite s e.1 e.2.1 e.2.2) (s.modChand fun d => { d with l2 := [] })

/-! ### The spill form (R310): writing blocks (R167-R170) -/

/-- Bits that hold a number. -/
def bitLen (n : Nat) : Nat := if n = 0 then 0 else Nat.log2 n + 1

/-- A number in `w` bits after the bits below it. -/
def packBits (w : Nat) : List Nat → Nat
  | [] => 0
  | x :: r => x % 2 ^ w + 2 ^ w * packBits w r

/-- The least and the greatest of a channel, and the width of its residuals. -/
def channelMin (l : List Nat) : Nat := l.foldl min 255
def channelWidth (l : List Nat) : Nat := bitLen (l.foldl max 0 - channelMin l)

/-- Component k of a pixel given as (B, G, R, A). -/
def chanOf (k : Nat) (p : Nat × Nat × Nat × Nat) : Nat := [p.1, p.2.1, p.2.2.1, p.2.2.2].getD k 0

/-- A block of 64 pixels as its header and payload. The writer takes the constant form where it can, the least minimum and
widths, and RAW when the widths sum to 32 (notes/assumptions/147.md). -/
def bcsWrite (ps : List (Nat × Nat × Nat × Nat)) : Nat × List Byte :=
  let chans := (List.range 4).map fun k => ps.map (chanOf k)
  let mins := chans.map channelMin
  let ws := chans.map channelWidth
  let sum := ws.foldl (· + ·) 0
  let m := fun k => mins.getD k 0
  if sum = 0 && m 3 % 17 = 0 then (m 3 / 17 * 2 ^ 4 + m 0 * 2 ^ 8 + m 1 * 2 ^ 16 + m 2 * 2 ^ 24, [])
  else if sum ≥ 32 then (8 + 16, ps.flatMap fun p => (List.range 4).map fun k => BitVec.ofNat 8 (chanOf k p))
  else
    let size := ceilDiv (6 + 8 * sum) 32
    let stream := (List.range 4).foldr (fun k n =>
      packBits (ws.getD k 0) ((chans.getD k []).map (· - m k)) + 2 ^ (64 * ws.getD k 0) * n) 0
    (size, (mins.map (BitVec.ofNat 8)) ++ leBytes 2 (packBits 4 ws) ++ leBytes (32 * size - 6) stream)

/-- A 32-bit element as the channels of a block: bytes 0 to 3 are B, G, R and A (R310). -/
def elemPx (n : Nat) : Nat × Nat × Nat × Nat := (bits n 0 8, bits n 8 8, bits n 16 8, bits n 24 8)
def pxElem (p : Nat × Nat × Nat × Nat) : Nat := p.1 % 256 + 2 ^ 8 * (p.2.1 % 256) + 2 ^ 16 * (p.2.2.1 % 256) + 2 ^ 24 * (p.2.2.2 % 256)

/-- The place in a tile of pixel p of block b: two blocks across, eight down (R310). -/
def blockPlace (b p : Nat) : Nat := 32 * (b / 2 * 4 + p / 16) + b % 2 * 16 + p % 16

/-- The block and pixel of a place of a tile. -/
def placeBlock (i : Nat) : Nat × Nat := (i / 128 * 2 + i % 32 / 16, i / 32 % 4 * 16 + i % 16)

/-- The 4160 bytes of a tile of 1024 elements: sixteen headers, then sixteen payload places (R310). -/
def spillForm (el : List Nat) : List Byte :=
  let bl := (List.range 16).map fun b => bcsWrite ((List.range 64).map fun p => elemPx (el.getD (blockPlace b p) 0))
  (bl.flatMap fun b => leBytes 4 b.1) ++ bl.flatMap fun b => b.2 ++ List.replicate (256 - b.2.length) 0

/-- The elements a spilled tile holds; a block that breaks R171 reads as zeros. -/
def unspill (l : List Byte) : List Nat :=
  let bl := (List.range 16).map fun b => bcsBlock (leNat ((l.drop (4 * b)).take 4)) ((l.drop (64 + 256 * b)).take 256)
  (List.range 1024).map fun i =>
    match bl.getD (placeBlock i).1 none with
    | some ps => pxElem (ps.getD (placeBlock i).2 (0, 0, 0, 0))
    | none => 0

/-! ### Passes and their attachments -/

/-- The fields of PASS BEGIN (Table 07.6). -/
def Pass.w (p : Pass) : Nat := bits (pkW p.packet 0) 0 16
def Pass.h (p : Pass) : Nat := bits (pkW p.packet 0) 16 16
def Pass.samples (p : Pass) : Nat := bits (pkW p.packet 1) 5 3
def Pass.atts (p : Pass) : Nat := pkAtts p.packet

/-- Word k of attachment a. -/
def Pass.att (p : Pass) (a k : Nat) : Nat := pkW p.packet (2 + 8 * a + k)

/-- Tiles across, and the tile count N_t. -/
def Pass.cols (p : Pass) : Nat := ceilDiv p.w 32
def Pass.tiles (p : Pass) : Nat := tileCount p.w p.h

/-- Bytes of an element of a format as stored (Table 04.1, chapter 7). -/
def elemBytes (f : Nat) : Nat := if f = 8 || f = 9 then 4 else formatBytes f

/-- The base of sample s of an attachment: where the samples of a 4-sample attachment lie is not stated. -/
def Pass.base (p : Pass) (a s : Nat) : Nat :=
  p.att a 0 + 2 ^ 32 * p.att a 1 +
    if p.samples = 1 then 0 else Config.samplePlane ((List.range 8).map (p.att a)) s

/-- The element of an attachment at a pixel, as memory holds it. -/
def Pass.element (p : Pass) (s : State) (fn a smp x y : Nat) : Nat :=
  let base := p.base a smp
  if (p.att a 3).testBit 7 then
    let b := y / 4 * ceilDiv (p.att a 2) 16 + x / 16
    let hdr := chdNat s fn (p.att a 4 + 2 ^ 32 * p.att a 5 + (base - p.base a 0) + 4 * b) 4
    match bcsBlock hdr (chdBytes s fn (base + 256 * b) 256) with
    | some ps => pxElem (ps.getD (16 * (y % 4) + x % 16) (0, 0, 0, 0))
    | none => 0
  else
    let n := elemBytes (bits (p.att a 3) 0 4)
    chdNat s fn (base + y * p.att a 2 + x * n) n

/-- The element an attachment gives a sample of a tile before any primitive of the pass, as LOAD says. -/
def Pass.loaded (p : Pass) (s : State) (fn tile a smp i : Nat) : Nat :=
  let x := tile % p.cols * 32 + i % 32
  let y := tile / p.cols * 32 + i / 32
  match bits (p.att a 3) 4 2 with
  | 1 => p.att a 6
  | 0 => if x < p.w && y < p.h then p.element s fn a smp x y else Config.undefinedSample s.draws a i
  | _ => Config.undefinedSample s.draws a i

/-- The place of sample s of attachment a of a tile in the spill area (R310). -/
def CtxRec.spillPlace (r : CtxRec) (tile a smp : Nat) : Nat :=
  r.spillBase + ((tile * r.maxAtt + a) * r.maxSmp + smp) * 4160

/-- Every attachment and sample of a pass. -/
def Pass.planes (p : Pass) : List (Nat × Nat) :=
  (List.range p.atts).flatMap fun a => (List.range p.samples).map fun s => (a, s)

/-- The samples of a tile before its new geometry: from the spill area if it was spilled before, from its attachments
otherwise (R309, step 5). -/
def Pass.tileBefore (p : Pass) (s : State) (c tile : Nat) : List Nat :=
  let x := s.ctx c
  p.planes.flatMap fun e =>
    if p.spilled.contains tile then unspill (chdBytes s x.fn (x.info.spillPlace tile e.1 e.2) 4160)
    else (List.range 1024).map (p.loaded s x.fn tile e.1 e.2)

/-- The samples of a tile rendered with the geometry of its list. -/
def Pass.tileAfter (p : Pass) (s : State) (c tile : Nat) : List Nat :=
  (look p.lists tile []).foldl (fun l q => Config.rasterize (s.ctx c).ran.reverse.flatten q tile l) (p.tileBefore s c tile)

/-- Write a rendered tile in the spill form, for every attachment and sample (R309, step 3). -/
def spillTile (c : Nat) (p : Pass) (s : State) (tile : Nat) : State :=
  let l := p.tileAfter s c tile
  let r := (s.ctx c).info
  (p.planes.zipIdx).foldl (fun s e =>
    chdWrite s c (r.spillPlace tile e.1.1 e.1.2) (spillForm ((l.drop (1024 * e.2)).take 1024))) s

/-- The tiles whose lists are not empty. -/
def Pass.full (p : Pass) : List Nat := (List.range p.tiles).filter fun n => look p.lists n [] ≠ []

/-- A partial render of a context's pass (R309, steps 2 to 4): the tiles that have geometry are rendered and spilled, the
bin memory apart from the tile heads is free again, and the render is counted (R311). -/
def partialRender (s : State) (c : Nat) (p : Pass) : State × Pass :=
  let s1 := p.full.foldl (spillTile c p) s
  ((s1.modCtx c fun x => { x with partials := x.partials + 1 }).modChand fun d => { d with
     partials := if s.perfHeld 6 then d.partials else satInc d.partials 0xFFFFFFFF },
   { p with used := 0, lists := [], spilled := p.spilled ++ p.full.filter fun n => !p.spilled.contains n })

/-! ### Binning (R308, R309, R311) -/

/-- The tiles a primitive's bounding box touches in rows y0 to y1, clipped to the pass. -/
def Pass.boxTiles (p : Pass) (q : BinPrim) (y0 y1 : Nat) : List Nat :=
  (List.range p.tiles).filter fun n =>
    q.x0 ≤ n % p.cols && n % p.cols ≤ q.x1 && y0 ≤ n / p.cols && n / p.cols ≤ y1

/-- The bin memory of a primitive beyond the tile heads: 16 + 8 T_p + V (16 + 16 A). -/
def primNeed (tiles verts attrs : Nat) : Nat := 16 + 8 * tiles + verts * (16 + 16 * attrs)

/-- The bin memory a pass has beyond its tile heads. -/
def binRoom (r : CtxRec) (p : Pass) : Nat := r.binUnits * 67108864 - 64 * p.tiles

/-- Record a primitive in the lists of the tiles it touches; on an overflow a partial render comes first (R308, R309). -/
def binInto (attrs : Nat) (q : BinPrim) (c : Nat) (a : State × Pass) (tiles : List Nat) : State × Pass :=
  let n := primNeed tiles.length q.verts attrs
  let b := if a.2.used ≠ 0 && a.2.used + n > binRoom (a.1.ctx c).info a.2 then partialRender a.1 c a.2 else a
  (b.1, { b.2 with used := b.2.used + n, lists := tiles.foldl (fun l t => upd l t [] (· ++ [q])) b.2.lists })

/-- Bin one primitive; one that needs more than the whole bin memory is clipped tile row by tile row (R311). -/
def binPrim (attrs c : Nat) (a : State × Pass) (q : BinPrim) : State × Pass :=
  let tiles := a.2.boxTiles q q.y0 q.y1
  if primNeed tiles.length q.verts attrs ≤ binRoom (a.1.ctx c).info a.2 then binInto attrs q c a tiles
  else (List.range (q.y1 + 1 - q.y0)).foldl (fun b k =>
    let row := b.2.boxTiles q (q.y0 + k) (q.y0 + k)
    if row = [] then b else binInto attrs q c b row) a

/-- The geometry of a draw is binned. -/
def binDraw (s : State) (c : Nat) (args : List Nat) : State :=
  match (s.ctx c).pass with
  | none => s
  | some p =>
    let words := (s.ctx c).ran.reverse.flatten
    let r := (Config.prims words args s.draws).foldl (binPrim (min (Config.vertexOutputs words) 32) c) (s.drawn, p)
    r.1.modCtx c fun x => { x with pass := some r.2 }

/-! ### The end of a pass -/

/-- Write one element of a linear attachment. -/
def putElement (c : Nat) (p : Pass) (tile a smp : Nat) (l : List Nat) (s : State) (i : Nat) : State :=
  let x := tile % p.cols * 32 + i % 32
  let y := tile / p.cols * 32 + i / 32
  let n := elemBytes (bits (p.att a 3) 0 4)
  if x < p.w && y < p.h then chdWrite s c (p.base a smp + y * p.att a 2 + x * n) (leBytes n (l.getD i 0)) else s

/-- Write one block of a block-compressed attachment; of XRGB8888 the A channel's width and minimum are 0. -/
def putBlock (c : Nat) (p : Pass) (tile a smp : Nat) (l : List Nat) (s : State) (k : Nat) : State :=
  let x := tile % p.cols * 32 + k % 2 * 16
  let y := tile / p.cols * 32 + k / 2 * 4
  if x < p.w && y < p.h then
    let b := y / 4 * ceilDiv (p.att a 2) 16 + x / 16
    let px := (List.range 64).map fun q =>
      let e := elemPx (l.getD (blockPlace k q) 0)
      if bits (p.att a 3) 0 4 = 3 then (e.1, e.2.1, e.2.2.1, 0) else e
    let w := bcsWrite px
    let hdr := p.att a 4 + 2 ^ 32 * p.att a 5 + (p.base a smp - p.base a 0) + 4 * b
    chdWrite (chdWrite s c (p.base a smp + 256 * b) w.2) c hdr (leBytes 4 w.1)
  else s

/-- Write one attachment and sample of a finished tile as STORE says. -/
def storePlane (c : Nat) (p : Pass) (tile : Nat) (l : List Nat) (s : State) (e : (Nat × Nat) × Nat) : State :=
  let el := (l.drop (1024 * e.2)).take 1024
  if (p.att e.1.1 3).testBit 6 then s
  else if (p.att e.1.1 3).testBit 7 then (List.range 16).foldl (putBlock c p tile e.1.1 e.1.2 el) s
  else (List.range 1024).foldl (putElement c p tile e.1.1 e.1.2 el) s

/-- Render one tile with its last geometry and write it. -/
def finishTile (c : Nat) (p : Pass) (s : State) (tile : Nat) : State :=
  (p.planes.zipIdx).foldl (storePlane c p tile (p.tileAfter s c tile)) s

/-- PASS END: every tile is rendered and written, a spilled one from its spilled samples (R309, step 5). -/
def endPass (s : State) (c : Nat) : State :=
  match (s.ctx c).pass with
  | none => s
  | some p => ((List.range p.tiles).foldl (finishTile c p) s).drawn.modCtx c fun x => { x with pass := none }

/-! ### Sparse images (R312-R314) -/

/-- The texels of a standard sparse block, across and down. -/
def sparseBlock (bits : Nat) : Nat × Nat :=
  if bits = 8 then (256, 256) else if bits = 16 then (256, 128) else if bits = 32 then (128, 128)
  else if bits = 64 then (128, 64) else (64, 64)

/-- Size of a mip level, and the blocks in it. -/
def mipSize (n level : Nat) : Nat := max 1 (n / 2 ^ level)

end Sys2Proof.Machine

namespace Sys2Proof

open Machine

def SparseImage.cols (g : SparseImage) (level : Nat) : Nat := ceilDiv (mipSize g.w level) (sparseBlock g.bits).1
def SparseImage.blocks (g : SparseImage) (level : Nat) : Nat :=
  g.cols level * ceilDiv (mipSize g.h level) (sparseBlock g.bits).2

/-- The first level of the mip tail: the first smaller than one block in either dimension (R312). -/
def SparseImage.tail (g : SparseImage) : Nat :=
  ((List.range g.levels).find? fun l =>
    mipSize g.w l < (sparseBlock g.bits).1 || mipSize g.h l < (sparseBlock g.bits).2).getD g.levels

/-- The pages of the levels before level l. -/
def SparseImage.before (g : SparseImage) (l : Nat) : Nat := (List.range l).foldl (fun n k => n + g.blocks k) 0

/-- Bytes of a mip level. -/
def SparseImage.bytes (g : SparseImage) (l : Nat) : Nat := mipSize g.w l * mipSize g.h l * (g.bits / 8)

/-- Where level l of the tail starts in it, in bytes: its levels one after another, row by row
(notes/assumptions/148.md). -/
def SparseImage.tailStart (g : SparseImage) (l : Nat) : Nat :=
  (List.range (l - g.tail)).foldl (fun n k => n + g.bytes (g.tail + k)) 0

/-- The pages of one layer, its mip tail included (R312). -/
def SparseImage.layerPages (g : SparseImage) : Nat := g.before g.tail + ceilDiv (g.tailStart g.levels) 65536

/-- The offset of a texel in the mip tail. -/
def SparseImage.tailOffset (g : SparseImage) (t : Texel) : Nat :=
  g.tailStart t.level + (t.y * mipSize g.w t.level + t.x) * (g.bits / 8)

/-- The page that holds a texel (R312). -/
def SparseImage.page (g : SparseImage) (t : Texel) : Nat :=
  t.layer * g.layerPages +
    if t.level < g.tail then
      g.before t.level + t.y / (sparseBlock g.bits).2 * g.cols t.level + t.x / (sparseBlock g.bits).1
    else g.before g.tail + g.tailOffset t / 65536

/-- The place of a texel in its page. -/
def SparseImage.inPage (g : SparseImage) (t : Texel) : Nat :=
  if t.level < g.tail then
    Config.texelPlace g.bits (t.x % (sparseBlock g.bits).1) (t.y % (sparseBlock g.bits).2) % 65536
  else g.tailOffset t % 65536

end Sys2Proof

namespace Sys2Proof.Machine

/-- The residency bit of a page (R313). -/
def residentPage (s : State) (fn map page : Nat) : Bool := (chdByte s fn (map + page / 8)).getLsbD (page % 8)

/-- The offset of a page in the issuer's memory (R313); of an entry that is not VALID it is a free value. -/
def pageOffset (s : State) (fn table page : Nat) : Nat :=
  let e := chdNat s fn (table + 8 * page) 8
  if e % 2 = 1 then e / 65536 * 65536 else s.free

/-- A texel as a sampler weighs it: zero where its page is not resident (R314). -/
def texelValue (s : State) (fn : Nat) (g : SparseImage) (t : Texel) : Nat :=
  if residentPage s fn g.map (g.page t) then
    chdNat s fn (pageOffset s fn g.table (g.page t) + g.inPage t) (g.bits / 8)
  else 0

/-- Sample a sparse image (R314): the filtered value, and whether a texel was missing, which counts one miss. -/
def sampleSparse (s : State) (c : Nat) (g : SparseImage) (ts : List Texel) : State × List Nat :=
  let fn := (s.ctx c).fn
  let miss := ts.any fun t => !residentPage s fn g.map (g.page t)
  let vals := ts.map (texelValue s fn g)
  let v := if ts.all fun t => !residentPage s fn g.map (g.page t) then 0 else Config.filterTexels vals
  let s1 := ts.foldl (fun s t => touch s c (g.map + g.page t / 8) 1) s
  let s2 := ts.foldl (fun s t =>
    if residentPage s fn g.map (g.page t) then
      touch (touch s c (g.table + 8 * g.page t) 8) c (pageOffset s fn g.table (g.page t) + g.inPage t) (g.bits / 8)
    else s) s1
  ((if miss then s2.modCtx c fun x => { x with misses := x.misses + 1 } else s2).drawn, [v, b2n miss])

/-! ### Shaders (R306) -/

/-- One event of R306. -/
def robust (s : State) : State := s.modChand fun d => { d with robust := satInc d.robust 0xFFFFFFFF }

/-- An access lies in its bound buffer and in the issuer's memory. -/
def accessOk (s : State) (fn base size a n : Nat) : Bool := base ≤ a && a + n ≤ base + size && s.inMem fn a n

/-- One access of a shader and its results: outside its buffer it reads zero or writes nothing, and is counted (R306). -/
def shaderAccess (s : State) (c : Nat) (q : TaperAccess) : State × List Nat :=
  let fn := (s.ctx c).fn
  match q with
  | .load base size a n =>
    if accessOk s fn base size a n then (chdRead s c a n, [chdNat s fn a n]) else (robust s, [0])
  | .store base size a v =>
    if accessOk s fn base size a v.length then (chdWrite s c a v, []) else (robust s, [])
  | .sample g ts => sampleSparse s c g ts

/-- The accesses of the shaders of a draw or a dispatch, each chosen by what the ones before it read. -/
def runShaders (s : State) (c : Nat) (args : List Nat) : State :=
  let words := (s.ctx c).ran.reverse.flatten
  let d := s.draws
  ((List.range (Config.shaderLen words args d)).foldl (fun (a : State × List Nat) _ =>
    let r := shaderAccess a.1 c (Config.shaderStep words args a.2 d)
    (r.1, a.2 ++ r.2)) (s.drawn, [])).1

/-- The registers and shared memory of the tapers of a context after shading. -/
def fillTapers (s : State) (c : Nat) : State :=
  ((List.range 32).filter fun t => (s.taper t).ctx = some c).foldl (fun s t =>
    s.modTaper t fun k => { k with work := (Config.resident s.draws t).take 393216 }) s.drawn

/-- A count read at run time is clamped to 65535, which is an event of R306. -/
def clampCount (s : State) (n : Nat) : State × Nat := if n > 65535 then (robust s, 65535) else (s, n)

/-- The argument words of an indirect draw or dispatch: beyond the issuer's memory they read zero, which is counted. -/
def indirectArgs (s : State) (c a n : Nat) : State × List Nat :=
  let fn := (s.ctx c).fn
  ((if s.inMem fn a (4 * n) then chdRead s c a (4 * n) else robust s), (List.range n).map fun i => chdNat s fn (a + 4 * i) 4)

/-- One draw of a pass: its geometry is binned and its shaders run. -/
def drawOne (s : State) (c : Nat) (args : List Nat) : State := runShaders (binDraw s c args) c args

/-- A DRAW packet (Table 07.6). -/
def runDraw (s : State) (c : Nat) (p : Packet) : State :=
  if pkOp p ≤ 2 then drawOne s c (p.drop 1)
  else
    let n := clampCount s (pkW p 2)
    let words := if pkOp p = 3 then 4 else 5
    (List.range n.2).foldl (fun s i =>
      let r := indirectArgs s c (pk64 p 0 + i * pkW p 3) words
      drawOne r.1 c r.2) n.1

/-- A DISPATCH packet. -/
def runDispatch (s : State) (c : Nat) (p : Packet) : State :=
  if pkOp p = 1 then runShaders s c (p.drop 1)
  else
    let r := indirectArgs s c (pk64 p 0) 3
    let k := r.2.foldl (fun (a : State × List Nat) n => let b := clampCount a.1 n; (b.1, a.2 ++ [b.2])) (r.1, [])
    runShaders k.1 c k.2

end Sys2Proof.Machine
end

