-- ==== Sys2Proof/Machine/Tapers.lean ====
section
/-! DEFINITION. Chapter 7: the packets of a running stream (Table 07.6, R307), the tapers, their shares (R322-R324),
deadlines and preemption (R325-R330). -/

namespace Sys2Proof.Machine

/-- The Chandelier island that serves a command: the first that answers, else the first that is ON. -/
def State.chdIsl (s : State) : Nat :=
  (([6, 7, 8, 9].find? s.up).orElse fun _ => [6, 7, 8, 9].find? fun i => (s.island i).power ≤ 1).getD 6

/-- Some Chandelier island answers. -/
def State.chdUp (s : State) : Bool := [6, 7, 8, 9].any s.up

/-- The contexts that hold anything. -/
def State.ctxNos (s : State) : List Nat := s.chand.ctxs.map (·.1)

/-- The hardware contexts of a function. -/
def State.ctxsOf (s : State) (fn : Nat) : List Nat :=
  (List.range 64).filter fun c => (s.ctx c).state ≠ 0 && (s.ctx c).fn = fn

/-- The tapers that run work of a context, and those of them that are not being saved. -/
def State.tapersOf (s : State) (c : Nat) : List Nat :=
  s.chand.tapers.filterMap fun e => if e.2.ctx = some c then some e.1 else none
def State.running (s : State) (c : Nat) : List Nat := (s.tapersOf c).filter fun t => !(s.taper t).saving

/-- The tapers being saved. -/
def State.savingTapers (s : State) : List Nat :=
  s.chand.tapers.filterMap fun e => if e.2.saving then some e.1 else none

/-- The Chandelier island of a taper (Table 07.1). -/
def taperIsl (t : Nat) : Nat := 6 + t / 8

/-! ### Packets -/

/-- A packet whose work runs on the tapers. -/
def taperWork (p : Packet) : Bool := pkClass p = 3 || pkClass p = 4 || pkClass p = 5

/-- One packet of a running stream (Table 07.6). -/
def runPacket (s : State) (c : Nat) (p : Packet) : State :=
  let s := s.modCtx c fun x => { x with ran := p :: x.ran, shading := x.shading || taperWork p }
  match pkClass p, pkOp p with
  | 3, 1 => fillTapers (s.modCtx c fun x => { x with pass := some { packet := p } }) c
  | 3, _ => fillTapers (endPass s c) c
  | 4, _ => fillTapers (runDraw s c p) c
  | 5, _ => fillTapers (runDispatch s c p) c
  | 6, 3 => chdWrite s c (pk64 p 0) (leBytes 8 (pk64 p 2))
  | 7, 1 => chdWrite s c (pk64 p 0) (leBytes 8 (s.stamp s.chdIsl))
  | 7, 3 =>
    match (s.ctx c).ran.find? fun q => pkClass q = 7 && pkOp q = 2 with
    | some q => (chdWrite s c (pk64 q 0) (leBytes 8 s.free)).drawn
    | none => s
  | _, _ => s

/-- The word a WAIT_MEM watches has reached its value (R307). -/
def State.waitMatch (s : State) (fn : Nat) (w : WaitMem) : Bool := chdNat s fn w.addr 8 &&& w.mask ≥ w.value

/-- A context gives its tapers back. -/
def releaseTapers (s : State) (c : Nat) : State := (s.tapersOf c).foldl (fun s t => s.modTaper t fun _ => {}) s

/-- The WAIT_MEM of a packet (R307). -/
def waitOf (p : Packet) (now : Time) : WaitMem :=
  { addr := pk64 p 0, value := pk64 p 2, mask := pk64 p 4, limit := if pkW p 6 = 0 then none else some (now + pkW p 6 * us) }

/-- Run packets of a context until a WAIT_MEM stalls it, its work needs a taper it has not got, or the stream ends. A packet
that met a channel that does not answer is undone and waits for the channel (R350, R361). -/
def runPackets (s : State) (c : Nat) : List Packet → State
  | [] => s.modCtx c fun x => { x with todo := [] }
  | p :: r =>
    if taperWork p && s.running c = [] then s.modCtx c fun x => { x with todo := p :: r }
    else
      let wait := pkClass p = 6 && pkOp p = 2
      let s1 := if wait then chdRead (s.modCtx c fun x => { x with ran := p :: x.ran }) c (pk64 p 0) 8 else runPacket s c p
      match (s1.ctx c).stall, (s.ctx c).queue.head? with
      | some k, some id => waitChan (s.modCtx c fun x => { x with todo := p :: r }) id k
      | _, _ =>
        if (s1.ctx c).lost then s1.modCtx c fun x => { x with todo := [] }
        else if wait && !s1.waitMatch (s1.ctx c).fn (waitOf p s.dt) then
          releaseTapers (s1.modCtx c fun x => { x with wait := some (waitOf p s.dt), todo := r }) c
        else runPackets s1 c r

/-! ### Taper time (R322, R326, R328) -/

/-- Book the taper time since the last booking: to the function in this window, to the submission, and to the run time of
a context that has tapers; and the time taken by preemption from those that have fewer. -/
def book (s : State) : State :=
  let d := s.dt - s.chand.booked
  let s1 := s.ctxNos.foldl (fun s c =>
    let x := s.ctx c
    let n := (s.tapersOf c).length
    if n = 0 && x.owed = 0 then s
    else (s.modCtx c fun x => { x with taperNs := x.taperNs + n * d, runNs := if n = 0 then x.runNs else x.runNs + d }).modChand
      fun k => { k with used := upd k.used x.fn 0 (· + n * d), taken := upd k.taken x.fn 0 (· + x.owed * d) }) s
  s1.modChand fun k => { k with booked := s.dt }

/-- The guaranteed taper time of a function in a window of 1 ms (R322), and with its credit (R328), in ns. -/
def State.guaranteed (s : State) (fn : Nat) : Nat := (s.fnc fn).grant.chdShare * 500000
def State.budgetOf (s : State) (fn : Nat) : Nat := look s.chand.budget fn (s.guaranteed fn)

/-! ### Which work gets a taper -/

/-- The place of a save area that holds the workgroups of taper t: 384 KiB for each taper after a header of 64 KiB. -/
def CtxRec.savePlace (r : CtxRec) (t : Nat) : Nat := r.saveBase + 65536 + 393216 * t

/-- The running submission of a context has work for the tapers and can go on. -/
def State.wants (s : State) (c : Nat) : Bool :=
  let x := s.ctx c
  (x.state = 3 || x.state = 4) && x.wait.isNone && (x.shading || (x.todo.head?.map taperWork).getD false) &&
  (match x.queue.head? with
    | some id => !s.mem.waits.any (·.flight = id)
    | none => false) &&
  (match x.saved.head? with
    | some k => (s.stallAt x.fn (x.info.savePlace k) 393216).isNone
    | none => true)

/-- How many tapers the running submission of a context can use. -/
def State.usable (s : State) (c : Nat) : Nat :=
  let x := s.ctx c
  if s.wants c then Config.tapersUsable (x.ran.reverse ++ x.todo).flatten % 32 + 1 else 0

/-- The deadline of the running submission of a context, with the instant S (R326). -/
def State.deadlineOf (s : State) (c : Nat) : Option (Time × Time) :=
  let x := s.ctx c
  match x.queue.head? with
  | some id => (x.dls.find? fun (d : Nat × Time) => d.1 = id).map fun d => (d.2, ((s.flight? id).map (·.start)).getD 0)
  | none => none

/-- The function has graphics work on a taper, and its compute may not overlap it (R324). -/
def State.gfxBlocks (s : State) (fn : Nat) : Bool :=
  !s.accepts fn 6 && (s.ctxsOf fn).any fun c => (s.ctx c).info.kind = 0 && s.tapersOf c ≠ []

/-- A context can take one more taper. -/
def State.canTake (s : State) (c : Nat) : Bool :=
  s.wants c && (s.running c).length < s.usable c && !((s.ctx c).info.kind = 1 && s.gfxBlocks (s.ctx c).fn)

/-- The rank of a context for a taper, the lowest first: deadline submissions, one whose deadline had passed at S before the
others, then by D and initiator (R327); functions within their guaranteed time (R322); the others in proportion to their
shares; functions of share 0 (R323). Of one function, graphics comes before compute (R324). -/
def State.rank (s : State) (c : Nat) : List Nat :=
  let x := s.ctx c
  let share := (s.fnc x.fn).grant.chdShare
  let used := look s.chand.used x.fn 0
  match s.deadlineOf c with
  | some d => [0, if d.1 ≤ d.2 then 0 else 1, d.1, x.fn, c]
  | none => [if used < s.budgetOf x.fn then 1 else if share ≠ 0 then 2 else 3, used / max share 1, x.fn, x.info.kind, c]

/-- Lexicographic order. -/
def lexLt : List Nat → List Nat → Bool
  | x :: a, y :: b => x < y || (x = y && lexLt a b)
  | _, _ => false

/-- The context of the lowest rank among those that can take a taper. -/
def State.nextCtx (s : State) : Option Nat :=
  (s.ctxNos.filter s.canTake).foldl (fun b c => match b with
    | some k => if lexLt (s.rank c) (s.rank k) then some c else b
    | none => some c) none

/-! ### Preemption (R325, R328, R330) -/

/-- The work of a context on some tapers is stopped, and its save starts (R328, R329). -/
def stopTapers (s : State) (c : Nat) (ts : List Nat) : State :=
  if ts = [] then s
  else
    let s1 := ts.foldl (fun s t => s.modTaper t fun k => { k with saving := true }) s
    s1.modCtx c fun x => { x with
      state := if s1.running c = [] then 4 else x.state, preempts := x.preempts + 1, owed := x.owed + ts.length
      preAt := some s.dt }

/-- Preempt the compute of a context on some tapers (R328). -/
def preempt (s : State) (c : Nat) (ts : List Nat) : State :=
  if ts = [] then s
  else (stopTapers s c ts).modChand fun d => { d with
    preempts := if s.perfHeld 6 then d.preempts else satInc d.preempts 0xFFFFFFFF }

/-- A free taper is handed to a context: preempted work is restored from the save area (R330), and graphics of a function
that has not accepted F_ASYNC_COMPUTE stops that function's compute (R324). -/
def giveTaper (s : State) (t c : Nat) : State :=
  let x := s.ctx c
  let s0 := match x.saved.head? with
    | some k => chdRead s c (x.info.savePlace k) 393216
    | none => s
  let work := match x.saved.head? with
    | some k => chdBytes s x.fn (x.info.savePlace k) 393216
    | none => []
  let s1 := (s0.modTaper t fun _ => { ctx := some c, work := work }).modCtx c fun x => { x with
    state := 3, isles := x.isles ||| 2 ^ (t / 8), saved := x.saved.drop 1, owed := x.owed - 1, stall := none }
  if x.info.kind = 0 && !s.accepts x.fn 6 then
    ((s.ctxsOf x.fn).filter fun k => (s.ctx k).info.kind = 1).foldl (fun s k => preempt s k (s.running k)) s1
  else s1

/-- Hand out the free tapers whose island answers. -/
def assignTapers (s : State) : State :=
  (List.range 32).foldl (fun s t =>
    if (s.taper t).ctx.isSome || !s.up (taperIsl t) then s
    else match s.nextCtx with
      | some c => giveTaper s t c
      | none => s) s

/-- Deadline graphics displaces graphics without a deadline at the next tile boundary, on as many tapers as it can use
beyond those being handed over (R325). -/
def displace (s : State) : State :=
  let need := (s.ctxNos.filter fun c => (s.deadlineOf c).isSome && s.canTake c).foldl
    (fun n c => n + (s.usable c - (s.running c).length)) 0 - s.savingTapers.length
  let ts := (s.ctxNos.filter fun c => (s.ctx c).info.kind = 0 && (s.deadlineOf c).isNone).flatMap fun c =>
    (s.running c).map fun t => (c, t)
  s.ctxNos.foldl (fun s c => stopTapers s c (((ts.take need).filter (·.1 = c)).map (·.2))) s

/-- At the end of a workgroup or tile a taper goes to work of a better rank (R322, R323); which tapers have come to one is a
free value. -/
def rebalance (s : State) : State :=
  s.chand.tapers.foldl (fun s e =>
    match (s.taper e.1).ctx, s.nextCtx with
    | some c, some b =>
      if (s.taper e.1).saving || !((s.rank b).getD 0 0 < (s.rank c).getD 0 0) then s
      else if s.free % 2 = 1 then s.drawn.modTaper e.1 fun _ => {}
      else s.drawn
    | _, _ => s) s

/-- The margin in effect, in ns (CHD_SCHED_CFG). -/
def State.marginNs (s : State) : Nat := min s.chand.margin 4000 * us

/-- The estimate E of a context (chapter 7, Deadlines). -/
def Ctx.estimate (x : Ctx) : Nat := x.ests.foldl max 0

/-- A deadline submission of a context is short of time (R326): R < E_rem + margin. -/
def State.short (s : State) (c : Nat) : Bool :=
  let x := s.ctx c
  x.queue.any fun id =>
    match x.dls.find? fun (d : Nat × Time) => d.1 = id with
    | some d =>
      let r := if x.queue.head? = some id then x.runNs else 0
      (d.2 : Int) - s.dt < ((x.estimate - r + s.marginNs : Nat) : Int)
    | none => false

/-- The deadline submissions that are short of time take tapers from compute of any function, as many as they can use
beyond those being handed over (R326). -/
def preemptShort (s : State) : State :=
  let need := (s.ctxNos.filter fun c => s.short c && s.canTake c).foldl
    (fun n c => n + (s.usable c - (s.running c).length)) 0 - s.savingTapers.length
  let ts := ((s.ctxNos.filter fun c => (s.ctx c).info.kind = 1).flatMap fun c => (s.running c).map fun t => (c, t)).take need
  s.ctxNos.foldl (fun s c => preempt s c ((ts.filter (·.1 = c)).map (·.2))) s

/-- The save of a context's stopped work is complete (R328, R329): its workgroups stand in the save area, and the tapers are
handed over. -/
def saveDone (s : State) (c : Nat) : State :=
  let ts := (s.tapersOf c).filter fun t => (s.taper t).saving
  let r := (s.ctx c).info
  let s1 := chdWrite s.drawn c r.saveBase ((Config.saveHeader s.draws).take 65536)
  ts.foldl (fun s t =>
    ((chdWrite s c (r.savePlace t) (s.taper t).work).modTaper t fun _ => {}).modCtx c fun x => { x with saved := x.saved ++ [t] }) s1

end Sys2Proof.Machine
end

