-- ==== Sys2Proof/Machine/Chandelier.lean ====
section
/-! DEFINITION. Chapter 7: Chandelier submissions, contexts, pipelines, copies and sparse binding (R297-R333). -/

namespace Sys2Proof.Machine

/-- The hardware context of a function's local context. -/
def State.hwCtx (s : State) (fn l : Nat) : Option Nat :=
  (List.range 64).find? fun c => (s.ctx c).state ≠ 0 && (s.ctx c).fn = fn && (s.ctx c).locl = l

/-! ### Submissions: operands (Table 07.3) -/

def subCtx (c : Cmd) : Nat := c.f 10 0 6
def subInit (c : Cmd) : Bool := c.b 10 6
def subDeadline (c : Cmd) : Bool := c.b 10 7
def subBase (c : Cmd) : Nat := c.d 11
def subLen (c : Cmd) : Nat := 16 * c.f 13 0 20
def subRec (c : Cmd) : Nat := c.d 14
def subHead (c : Cmd) : Nat := c.f 16 0 4
def subLead (c : Cmd) : Nat := c.f 17 0 16 * us
def subTarget (c : Cmd) : Nat := c.d 18

/-- The payload fields of a submission out of range. -/
def subMalformed (gfx : Bool) (c : Cmd) : Bool :=
  !c.z 10 8 24 || !c.z 13 20 12 || subBase c % 16 ≠ 0 || c.f 13 0 20 = 0 || c.f 13 0 20 > 262144 ||
  (subInit c && subRec c % 256 ≠ 0) || (!gfx && subDeadline c) ||
  (gfx && subDeadline c && (!c.z 16 4 28 || !c.z 17 16 16 || !c.zw 20 31 || subHead c > 11))

/-- R301. -/
def subDenied (s : State) (c : Cmd) : Bool :=
  let g := (s.fnc c.fn).grant
  (g.chdShare = 0 && g.chdCtx = 0) || subCtx c ≥ g.chdCtx ||
  (subDeadline c && (!s.accepts c.fn 7 || !g.layerRight.testBit (subHead c)))

/-- The deadline D of a submission that reached the head of its queue at S: none while the head has no latch to come. -/
def State.deadline (s : State) (c : Cmd) (S : Time) : Option Time :=
  let h := subHead c
  if !subDeadline c || !s.framing h then none
  else
    let m := modeOf (s.head h).mode
    let l0 := (s.head h).frameDt + m.h * m.ht * 1000000 / m.khz - (s.head h).lead * us
    let x := max (S + subLead c) (subTarget c)
    some (l0 + ceilDiv (x - l0) (max m.period 1) * m.period - subLead c)

/-! ### Starting a submission in its context -/

/-- The areas of the function's other initialised contexts (R300). -/
def State.otherAreas (s : State) (fn c : Nat) : List (Nat × Nat) :=
  ((s.ctxsOf fn).filter fun i => i ≠ c && 2 ≤ (s.ctx i).state && (s.ctx i).state ≤ 4).flatMap fun i => (s.ctx i).info.areas

/-- The record under which a submission runs, none where R297, R298 or R300 makes it MALFORMED. -/
def State.subRecord (s : State) (c : Nat) (f : Flight) : Option CtxRec :=
  let fn := f.cmd.fn.val
  let kind := b2n (f.op = 0x0101)
  if subInit f.cmd then
    let r := readCtxRec s fn (subRec f.cmd)
    if r.kind = kind && ctxRecZero s fn (subRec f.cmd) && s.inMem fn (subRec f.cmd) 256 &&
      r.ok (s.mapped fn) (s.otherAreas fn c) then some r else none
  else
    let x := s.ctx c
    if (x.state = 2 || x.state = 3 || x.state = 4) && x.info.kind = kind then some x.info else none

/-- Handles a function may bind: its own, not destroyed; a DESTROY that waits has not taken effect (R319). -/
def State.ownsPipe (s : State) (fn h : Nat) : Bool := s.chand.pipes.any fun p => p.handle = h && p.fn = fn

/-- The memory a submission needs to answer before it starts. -/
def subRanges (f : Flight) : List (Nat × Nat) :=
  (subBase f.cmd, subLen f.cmd) :: if subInit f.cmd then [(subRec f.cmd, 256)] else []

/-- A PASS BEGIN with a block-compressed attachment, which needs F_BCS_WRITE (R66, Table 02.3). -/
def bcsTarget (p : Packet) : Bool :=
  pkClass p = 3 && pkOp p = 1 && (List.range (pkAtts p)).any fun i => (pkW p (2 + 8 * i + 3)).testBit 7

/-- The streams called by a stream: base and length. -/
def callRanges (ps : List Packet) : List (Nat × Nat) :=
  (ps.filter fun p => pkClass p = 8).map fun p => (pk64 p 0, 16 * pkW p 2)

/-- The handles a stream binds (R319). -/
def boundIn (ps : List Packet) : List Nat := (ps.filter fun p => pkClass p = 1 && pkOp p = 1).map fun p => pk64 p 0

/-- A context begins a validated submission. -/
def startRun (x : Ctx) (rc : CtxRec) (ps : List Packet) (init : Bool) : Ctx :=
  { x with
    info := rc, state := 3, todo := ps, ran := [], bound := boundIn ps, wait := none, pass := none, shading := false
    lost := false, stall := none, isles := if init then 0 else x.isles, saved := [], owed := 0, preAt := none
    runNs := 0, taperNs := 0, preempts := 0, partials := 0, misses := 0 }

/-- Begin the oldest waiting submission of a context that runs none (R299, R302); at most `k` are tried. -/
def beginCtx : Nat → State → Nat → State
  | 0, s, _ => s
  | k + 1, s, c =>
    let x := s.ctx c
    if x.state = 0 || x.state = 3 || x.state = 4 || !s.chdUp then s
    else match x.queue with
    | [] => s
    | id :: r =>
      match s.flight? id with
      | none => beginCtx k (s.modCtx c fun x => { x with queue := r }) c
      | some f =>
        let fn := f.cmd.fn.val
        let drop := fun (s : State) st pay => beginCtx k (complete (s.modCtx c fun x => { x with queue := r }) id st pay) c
        let stall := fun (s : State) (l : List (Nat × Nat)) => (l.filterMap fun a => s.stallAt fn a.1 a.2).head?
        if s.mem.waits.any (·.flight = id) then s
        else if (subRanges f).any fun a => s.touchesLost fn a.1 a.2 then drop s stPartLost noPay
        else match stall s (subRanges f) with
        | some ch => waitChan s id ch
        | none =>
        let s1 := (subRanges f).foldl (fun s a => readRange s fn a.1 a.2) s
        match stall s1 (subRanges f), s1.subRecord c f with
        | some ch, _ => waitChan s1 id ch
        | none, none => drop s1 stMalformed noPay
        | none, some rc =>
          match checkStream s1 fn rc (f.op = 0x0100) (s1.ownsPipe fn) 2097152 0 (subBase f.cmd) (subLen f.cmd) 0 false none []
              (subLen f.cmd) with
          | .lost => drop s1 stPartLost noPay
          | .stall ch => waitChan s1 id ch
          | .bad off => drop (s1.modCtx c fun x => { x with info := rc, state := 2 }) stMalformed [off, 0, 0, 0]
          | .good ps _ =>
            let s2 := (callRanges ps).foldl (fun s a => readRange s fn a.1 a.2) s1
            match stall s2 (callRanges ps) with
            | some ch => waitChan s2 id ch
            | none =>
              if ps.any bcsTarget && !s.accepts fn 4 then
                drop (s2.modCtx c fun x => { x with info := rc, state := 2 }) stDenied noPay
              else s2.modCtx c fun x => startRun x rc ps (subInit f.cmd)

/-! ### The end of a submission -/

/-- Destroy the pipelines whose DESTROY waited and whose submissions have all completed (R319). -/
def reapPipelines (s : State) : State :=
  s.modChand fun d => { d with
    pipes := d.pipes.filterMap fun p =>
      if p.dying = [] then some p
      else
        let l := p.dying.filter fun id => (s.flight? id).isSome
        if l = [] then none else some { p with dying := l } }

/-- The running submission leaves its context, which is idle again. -/
def leaveCtx (s : State) (c : Nat) : State :=
  (releaseTapers s c).modCtx c fun x => { x with
    state := 2, queue := x.queue.drop 1, todo := [], ran := [], bound := [], wait := none, pass := none, shading := false
    lost := false, stall := none, saved := [], owed := 0, preAt := none, preempts := 0
    dls := x.dls.filter fun (d : Nat × Time) => some d.1 ≠ x.queue.head? }

/-- End the running submission of a context with the payload of Table 07.4: its writes reach memory first (R303). -/
def finishSub (s : State) (c status : Nat) : State :=
  let x := s.ctx c
  match x.queue.head?.bind s.flight? with
  | none => leaveCtx s c
  | some f =>
    let d := x.dls.find? fun (e : Nat × Time) => e.1 = f.id
    let late := match d with
      | some e => s.dt ≥ e.2
      | none => false
    let s1 := (writeBack s).modCtx c fun x => { x with ests :=
      if d.isSome && status = stOk && x.preempts = 0 then (x.runNs :: x.ests).take 8 else x.ests }
    let pay := [min x.partials 0xFFFFFFFF, min (x.taperNs / us) 0xFFFFFFFF, min x.preempts 0xFFFF + 2 ^ 16 * b2n late,
      min x.misses 0xFFFFFFFF]
    let s2 := complete (leaveCtx s1 c) f.id status pay
    let s3 := match d with
      | some e => if late then
          sendEvent s2 f.isl x.fn 0x0180 x.locl f.cmd.tag (min ((s.dt - e.2) / us) 0xFFFFFFFF) else s2
      | none => s2
    reapPipelines s3

/-- Begin what can begin, hand out the tapers, run what can run, and end what has met a lost partition (R366); again while
there is more. -/
def chdLoop : Nat → State → State
  | 0, s => s
  | k + 1, s =>
    let s1 := s.ctxNos.foldl (fun s c => beginCtx ((s.ctx c).queue.length) s c) s
    let s2 := displace (assignTapers s1)
    let s3 := s2.ctxNos.foldl (fun s c =>
      if (s.ctx c).state = 3 && (s.ctx c).wait.isNone && (s.ctx c).stall.isNone then runPackets s c (s.ctx c).todo else s) s2
    let bad := s3.ctxNos.filter fun c => (s3.ctx c).lost && ((s3.ctx c).state = 3 || (s3.ctx c).state = 4)
    let s4 := bad.foldl (fun s c => finishSub s c stPartLost) s3
    if bad ≠ [] || (s4.nextCtx.isSome && (List.range 32).any fun t => (s4.taper t).ctx.isNone && s4.up (taperIsl t)) then chdLoop k s4
    else s4

/-- Chandelier goes on. -/
def kickChandelier (s : State) : State := chdLoop (s.flights.length + 1) (book s)

/-- A submission that has executed joins the queue of its context (R299). -/
def runSubmit (s : State) (f : Flight) : State :=
  match s.hwCtx f.cmd.fn (subCtx f.cmd) with
  | none => complete s f.id stDenied noPay
  | some c =>
    let dl := match s.deadline f.cmd f.start with
      | some d => [(f.id, d)]
      | none => []
    kickChandelier (s.modCtx c fun x => { x with queue := x.queue ++ [f.id], dls := x.dls ++ dl })

def specGfxSubmit : OpSpec :=
  { op := 0x0100, engine := some 1, chain := fun c => if c.b 10 7 then 2 else 1
    malformed := fun _ c => subMalformed true c, denied := subDenied, isl := fun s _ => s.chdIsl, run := runSubmit }

def specComputeSubmit : OpSpec :=
  { op := 0x0101, engine := some 1
    malformed := fun _ c => subMalformed false c, denied := subDenied, isl := fun s _ => s.chdIsl, run := runSubmit }

/-- GFX_SUBMIT (R297-R305). -/
def execGfxSubmit (t : Time) (c : Cmd) (s : State) : Answer := .next (startCmd (s.at t) specGfxSubmit c)

/-- COMPUTE_SUBMIT (R297-R305). -/
def execComputeSubmit (t : Time) (c : Cmd) (s : State) : Answer := .next (startCmd (s.at t) specComputeSubmit c)

/-! ### The commands of running contexts -/

/-- End the running submission of a context, then go on. -/
def endSubmission (s : State) (c status : Nat) : State := kickChandelier (finishSub (book s) c status)

/-- The channel that the writes of the level-2 cache wait for (R303, R361). -/
def State.backStall (s : State) : Option Nat :=
  (s.chand.l2.filterMap fun e => s.stallAt e.1 e.2.1 e.2.2.length).head?

/-- A context runs a submission that has nothing left to wait for: its stream has ended, and work on the tapers has tapers.
One whose preemption was decided in the same cycle is not preempted (R326, R45). -/
def State.subDone (s : State) (c : Nat) : Bool :=
  let x := s.ctx c
  s.chdUp && (x.state = 3 || (x.state = 4 && x.preAt = some s.dt)) && x.wait.isNone && x.stall.isNone && x.todo.isEmpty &&
  (!x.shading || s.tapersOf c ≠ [])

/-- The preemption of a submission that completes in the same cycle does not count (R326, R45). -/
def undoPreempt (s : State) (c : Nat) : State :=
  if (s.ctx c).preAt = some s.dt then
    (s.modCtx c fun x => { x with preempts := x.preempts - 1, preAt := none }).modChand fun d => { d with
      preempts := if s.perfHeld 6 || (s.ctx c).info.kind = 0 then d.preempts else d.preempts - 1 }
  else s

/-- SUBMISSION_COMPLETE (R303, Table 07.4): the submission ends once its writes can reach memory. -/
def execSubmissionComplete (t : Time) (ctx : Fin 64) (s : State) : Answer :=
  let s := s.at t
  if !s.subDone ctx then .next s
  else match s.backStall, (s.ctx ctx).queue.head? with
    | some k, some id => .next (waitChan (s.modCtx ctx fun x => { x with stall := some k }) id k)
    | _, _ => .next (endSubmission (undoPreempt s ctx) ctx stOk)

/-- WAIT_MEM_MATCH (R307): the stream goes on. -/
def execWaitMemMatch (t : Time) (ctx : Fin 64) (s : State) : Answer :=
  let s := s.at t
  let x := s.ctx ctx
  match x.wait with
  | some w =>
    if s.chdUp && x.state = 3 && s.waitMatch x.fn w then
      .next (kickChandelier (s.modCtx ctx fun x => { x with wait := none }))
    else .next s
  | none => .next s

/-- WAIT_MEM_TIMEOUT (R307): the submission ends with TIMED_OUT, unless the word matches in the same cycle (R45). -/
def execWaitMemTimeout (t : Time) (ctx : Fin 64) (s : State) : Answer :=
  let s := s.at t
  let x := s.ctx ctx
  match x.wait.bind (·.limit), x.wait with
  | some l, some w =>
    if s.chdUp && (x.state = 3 || x.state = 4) && s.dt ≥ l && !s.waitMatch x.fn w then .next (endSubmission s ctx stTimedOut)
    else .next s
  | _, _ => .next s

/-- SHARE_WINDOW (R322, R323, R328): at a DT multiple of 1 ms a new accounting window starts. Time taken by preemption from
a function within its guaranteed time is credited to it, and tapers go to the functions that are due them. -/
def execShareWindow (t : Time) (s : State) : Answer :=
  let s := s.at t
  if s.dt % ms ≠ 0 || !s.chdUp then .next s
  else
    let s1 := book s
    let credit := fun f => min (look s1.chand.taken f 0) (s1.budgetOf f - look s1.chand.used f 0)
    let s2 := s1.modChand fun d => { d with
      window := s.dt, used := [], taken := []
      budget := ((List.range 64).filter fun f => credit f ≠ 0).map fun f => (f, s1.guaranteed f + credit f) }
    .next (kickChandelier (rebalance s2))

/-- DEADLINE_EVALUATION (R322, R325, R326): at a DT multiple of 1 us, a deadline submission short of time takes tapers of
compute; the others change hands at the ends of workgroups and tiles. -/
def execDeadlineEvaluation (t : Time) (s : State) : Answer :=
  let s := s.at t
  if s.dt % us ≠ 0 || !s.chdUp then .next s
  else .next (kickChandelier (rebalance (preemptShort (book s))))

/-- The save area of a context does not answer. -/
def State.saveStall (s : State) (c : Nat) : Bool :=
  (s.stallAt (s.ctx c).fn (s.ctx c).info.saveBase (12352 * 1024)).isSome

/-- PREEMPT_SAVE_DONE (R328, R329): the save is complete and the tapers are handed over. -/
def execPreemptSaveDone (t : Time) (ctx : Fin 64) (s : State) : Answer :=
  let s := s.at t
  if !s.chdUp || (s.tapersOf ctx).all (fun t => !(s.taper t).saving) || s.saveStall ctx then .next s
  else .next (kickChandelier (saveDone (book s) ctx))

/-! ### Pipelines -/

/-- The code store, in bytes. -/
def codeStore : Nat := 268435456

/-- PIPELINE_COMPILE and DESTROY (R317-R319); with the code store out of service NO_RESOURCE (R341). -/
def runPipeline (s : State) (f : Flight) : State :=
  let c := f.cmd
  let fn := c.fn.val
  if c.b 10 0 then
    if s.ownsPipe fn (c.d 11) then
      let users := (s.ctxsOf fn).filterMap fun k =>
        if ((s.ctx k).state = 3 || (s.ctx k).state = 4) && (s.ctx k).bound.contains (c.d 11) then (s.ctx k).queue.head? else none
      let pipes := if users = [] then s.chand.pipes.filter fun p => p.handle ≠ c.d 11
        else s.chand.pipes.map fun p => if p.handle = c.d 11 then { p with dying := users } else p
      complete (s.modChand fun d => { d with pipes := pipes }) f.id stOk noPay
    else complete s f.id stMalformed noPay
  else withMem s f [(c.d 11, c.w 13)] [] fun s =>
    let bytes := memRead s fn (c.d 11) (c.w 13)
    let key := Config.sha384 bytes
    match s.chand.pipes.find? fun p => p.fn = fn && p.digest = key && p.dying = [] with
    | some p => complete s.drawn f.id stOk [lo32 p.handle, hi32 p.handle, 1, s.free % 2 ^ 32]
    | none =>
      match failingStage bytes with
      | some k => complete s f.id stMalformed [0, 0, k % 256 * 256, 0]
      | none =>
        let n := Config.codeSize bytes
        if n + s.chand.pipes.foldl (fun m p => m + p.size) 0 > codeStore then complete s f.id stNoResource noPay
        else
          let h := s.chand.nextH
          complete (s.modChand fun d => { d with
            nextH := h + 1, pipes := d.pipes ++ [{ handle := h, fn := fn, digest := key, size := n }] }).drawn
            f.id stOk [lo32 h, hi32 h, 0, s.free % 2 ^ 32]

def specPipeline : OpSpec :=
  { op := 0x0102, engine := some 1, nores := fun s _ => !s.mem.codeOk, isl := fun s _ => s.chdIsl, run := runPipeline
    malformed := fun _ c => !c.z 10 1 31 || c.w 13 > 16777216 || !c.zw 14 15 }

/-- PIPELINE_COMPILE (R317-R319). -/
def execPipelineCompile (t : Time) (c : Cmd) (s : State) : Answer := .next (startCmd (s.at t) specPipeline c)

/-! ### COPY and SPARSE_BIND -/

/-- The bytes a COPY writes: its whole source as read first (R304), or its pattern repeated. -/
def copyBytes (s : State) (c : Cmd) : List Byte :=
  if c.b 15 0 then (List.replicate (c.w 14 / 4) (leBytes 4 (c.w 10))).flatten else chdBytes s c.fn (c.d 10) (c.w 14)

def runCopy (s : State) (f : Flight) : State :=
  let c := f.cmd
  withMem s f (if c.b 15 0 then [] else [(c.d 10, c.w 14)]) [(c.d 12, c.w 14)] fun s =>
    let l := copyBytes s c
    complete (memWrite (writeBack s) c.fn (c.d 12) l) f.id stOk noPay

def specCopy : OpSpec :=
  { op := 0x0103, engine := some 1, isl := fun s _ => s.chdIsl, run := runCopy
    malformed := fun _ c =>
      (!c.b 15 0 && c.d 10 % 4 ≠ 0) || c.d 12 % 4 ≠ 0 || c.w 14 % 4 ≠ 0 || c.w 14 = 0 || !c.z 15 1 31 }

/-- COPY (R304). -/
def execCopy (t : Time) (c : Cmd) (s : State) : Answer := .next (startCmd (s.at t) specCopy c)

/-- Entry i of a bind list: page, bind, offset. -/
def bindEntry (s : State) (fn a i : Nat) : Nat × Bool × Nat :=
  (memNat s fn (a + 16 * i) 4, memNat s fn (a + 16 * i + 4) 4 % 2 = 1, memNat s fn (a + 16 * i + 8) 8)

/-- Apply one entry: the page-table entry, then the residency bit (R313, R316). -/
def bindPage (fn table map : Nat) (s : State) (e : Nat × Bool × Nat) : State :=
  let s1 := memWrite s fn (table + 8 * e.1) (leBytes 8 (if e.2.1 then e.2.2 / 65536 * 65536 + 1 else 0))
  let b := memNat s1 fn (map + e.1 / 8) 1
  let m := 2 ^ (e.1 % 8)
  memPut s1 fn (map + e.1 / 8) (BitVec.ofNat 8 (if e.2.1 then b ||| m else b &&& (255 - m)))

def runSparse (s : State) (f : Flight) : State :=
  let c := f.cmd
  let fn := c.fn.val
  withMem s f [(c.d 16, 16 * c.w 18)] [] fun s =>
    let es := (List.range (c.w 18)).map (bindEntry s fn (c.d 16))
    if es.any (fun (e : Nat × Bool × Nat) => e.2.1 && (e.2.2 % 65536 ≠ 0 || !s.inMem fn e.2.2 65536)) then
      complete s f.id stMalformed noPay
    else withMem s f (es.map fun (e : Nat × Bool × Nat) => (c.d 12 + e.1 / 8, 1))
        (es.map fun (e : Nat × Bool × Nat) => (c.d 10 + 8 * e.1, 8)) fun s =>
      complete (es.foldl (bindPage fn (c.d 10) (c.d 12)) (writeBack s)) f.id stOk noPay

def specSparse : OpSpec :=
  { op := 0x0104, engine := some 1, chain := fun _ => 2, isl := fun s _ => s.chdIsl, run := runSparse
    denied := fun s c => !s.accepts c.fn 5
    malformed := fun _ c => !c.zw 14 15 || c.w 18 = 0 || c.w 18 > 65536 || !c.zw 19 31 }

/-- SPARSE_BIND (R315, R316). -/
def execSparseBind (t : Time) (c : Cmd) (s : State) : Answer := .next (startCmd (s.at t) specSparse c)

/-! ### Contexts and pipelines over a function's life, and island resets -/

/-- Grant `n` free hardware contexts to a function, numbered locally from 0 (chapter 7, Contexts). -/
def grantCtxs (s : State) (fn n : Nat) : State :=
  ((((List.range 64).filter fun c => (s.ctx c).state = 0).take n).zipIdx).foldl
    (fun s e => s.modCtx e.1 fun _ => { state := 1, fn := fn, locl := e.2 }) s

/-- Take a function's contexts back. -/
def freeCtxs (s : State) (fn : Nat) : State :=
  (s.ctxsOf fn).foldl (fun s c => s.modCtx c fun _ => {}) s

/-- A function's contexts hold no submission any more (R104); an initialised one is idle. Stores already issued complete. -/
def clearCtxs (s : State) (fn : Nat) : State :=
  kickChandelier (reapPipelines ((s.ctxsOf fn).foldl (fun s c =>
    let st := (s.ctx c).state
    (leaveCtx s c).modCtx c fun x => { x with queue := [], dls := [], state := if st = 3 || st = 4 then 2 else st }) (writeBack s)))

/-- Contexts whose running submission has ended elsewhere go on with their queues. -/
def pruneCtxs (s : State) : State :=
  kickChandelier (reapPipelines (s.ctxNos.foldl (fun s c =>
    let x := s.ctx c
    if (x.state = 3 || x.state = 4) && (x.queue.head?.bind s.flight?).isNone then leaveCtx (writeBack s) c else s) s))

/-- Every pipeline of a function is destroyed (R320). -/
def dropPipelines (s : State) (fn : Nat) : State :=
  s.modChand fun d => { d with pipes := d.pipes.filter (·.fn ≠ fn) }

/-- A context that ran on a reset island is lost: its submission with work there ends with ISLAND_RESET (R331). -/
def loseCtx (isl : Nat) (s : State) (c : Nat) : State :=
  let x := s.ctx c
  if x.isles.testBit (isl - 6) && 2 ≤ x.state && x.state ≤ 4 then
    let s1 := match x.state, x.queue.head? with
      | 2, _ => s
      | _, some id => leaveCtx (complete s id stIslandReset noPay) c
      | _, none => leaveCtx s c
    sendEvent (s1.modCtx c fun y => { y with state := 5, isles := 0 }) isl x.fn 0x0181 x.locl isl 0
  else s

/-- The part of a chunk of the level-2 cache that lies in the other islands' slices, interleaved at 256 bytes. -/
def keepSlices (s : State) (isl : Nat) (e : Nat × Nat × List Byte) : List (Nat × Nat × List Byte) :=
  (e.2.2.zipIdx).filterMap fun b =>
    match s.place e.1 (e.2.1 + b.2) with
    | some (p, o) => if (s.part p).devAddr o / 256 % 4 = isl - 6 then none else some (e.1, e.2.1 + b.2, [b.1])
    | none => none

/-- A Chandelier island is reset (R331): every context that ran on it is lost, its tapers and its slice of the level-2 cache
hold nothing, and CHD_SCHED_CFG, one register of the four islands, returns to its reset value (R34,
notes/assumptions/143.md). -/
def resetChandelier (s : State) (isl : Nat) : State :=
  let s0 := (book s).modChand fun d => { d with margin := 200, l2 := d.l2.flatMap (keepSlices s isl) }
  let s1 := s0.ctxNos.foldl (loseCtx isl) s0
  pruneCtxs (s1.modChand fun d => { d with tapers := dropKeys d.tapers fun t => taperIsl t = isl })

end Sys2Proof.Machine
end

