-- ==== Sys2Proof/Machine/Haptics.lean ====
section
/-! DEFINITION. Chapter 12, haptic channels (R501-R515): effects, drive limits, preemption, braking, triggers. -/

namespace Sys2Proof.Machine

/-- The image's declarations of a channel; MAX_ON defaults to 300 ms. -/
def State.hapCfg (s : State) (ch : Nat) : HapticCfg :=
  match s.img with
  | some im => match im.haptics.find? (·.1 = ch) with
    | some e => e.2
    | none => ⟨0, 0, 0, 0, 300⟩
  | none => ⟨0, 0, 0, 0, 300⟩

/-- The resonance an effect starts from, in 0.1 Hz: that of the last effect, or F0 (R502), within 100-300 Hz. -/
def State.hapFreq (s : State) (ch : Nat) : Nat :=
  let f := if (s.hap ch).freq = 0 then (s.hapCfg ch).f0 else (s.hap ch).freq
  min 3000 (max 1000 f)

/-- Strength of an effect as a fraction of 16 (Table 12.4). -/
def strength16 (n : Nat) : Nat :=
  if 1 ≤ n && n ≤ 16 then 17 - n
  else if 17 ≤ n && n ≤ 32 then 33 - n
  else if 33 ≤ n && n ≤ 48 then 49 - n
  else if 113 ≤ n && n ≤ 120 then 2 * (121 - n)
  else if n = 125 then 8
  else 16

/-- `k` pulses of `on` ns, `off` ns apart. -/
def pulses (k on off : Nat) : List (Nat × Nat) := (List.range k).map fun i => (i * (on + off), on)

/-- The drive of an effect as offsets and lengths in ns, at a resonance period of `T` ns (Table 12.4). -/
def effectDrive (n T : Nat) : List (Nat × Nat) :=
  if n = 0 then []
  else if n ≤ 16 then [(0, 2 * T)]
  else if n ≤ 32 then pulses 2 (2 * T) (60 * ms)
  else if n ≤ 48 then [(0, 6 * T)]
  else if n ≤ 64 then [(0, (n - 48) * 20 * ms)]
  else if n ≤ 80 then [(0, (n - 64) * 50 * ms)]
  else if n ≤ 96 then [(0, (n - 80) * 50 * ms)]
  else if n ≤ 112 then pulses (n - 96) (50 * ms) (50 * ms)
  else if n ≤ 120 then [(0, T)]
  else match n with
    | 121 => pulses 3 (200 * ms) (100 * ms)
    | 122 => pulses 2 (300 * ms) (200 * ms)
    | 123 => pulses 5 (100 * ms) (100 * ms)
    | 124 => pulses 4 (150 * ms) (150 * ms)
    | 125 => pulses 2 (3 * T) (40 * ms)
    | 126 => pulses 3 (2 * T) (40 * ms)
    | _ => [(0, 150 * ms)]

/-- The drive time of a drive. -/
def sumDrive (l : List (Time × Nat)) : Nat := l.foldl (fun x e => x + e.2) 0

/-- The drive cut by R505: a run of MAX_ON ends the main drive; `left` is what the run in progress may still last. -/
def cutDrive (maxOn : Nat) : Nat → List (Nat × Nat) → List (Nat × Nat)
  | _, [] => []
  | left, (o, l) :: r => if l > left then [(o, left)] else (o, l) :: cutDrive maxOn maxOn r

/-- The resonance period of a channel in ns. -/
def State.hapPeriod (s : State) (ch : Nat) : Nat := 10000000000 / s.hapFreq ch

/-- What a run of drive that began at `run` may still last from `start` (R505). -/
def State.runLeft (s : State) (ch : Nat) (run start : Time) : Nat := (s.hapCfg ch).maxOn * ms - (start - run)

/-- The planned drive of an effect on a channel, as instants and lengths in ns: it starts at `start`, in a run of drive
that began at `run`. -/
def State.planned (s : State) (ch n : Nat) (run start : Time) : List (Time × Nat) :=
  (cutDrive ((s.hapCfg ch).maxOn * ms) (s.runLeft ch run start) (effectDrive n (s.hapPeriod ch))).map fun e => (start + e.1, e.2)

/-- The instant at which R505 cuts an effect, none where no run of it lasts too long. -/
def State.cutAt (s : State) (ch n : Nat) (run start : Time) : Option Time :=
  if sumDrive (s.planned ch n run start) = sumDrive (effectDrive n (s.hapPeriod ch)) then none
  else (s.planned ch n run start).getLast?.map fun e => e.1 + e.2

/-- The part of a drive that lies before an instant. -/
def driveBefore (l : List (Time × Nat)) (t : Time) : List (Time × Nat) :=
  (l.filter fun e => e.1 < t).map fun e => (e.1, min e.2 (t - e.1))

/-- Drive time inside [a, a + n). -/
def driveIn (l : List (Time × Nat)) (a n : Nat) : Nat :=
  l.foldl (fun x e => x + (min (e.1 + e.2) (a + n) - max e.1 a)) 0

/-- The drive a channel has done, the effect in main drive included. -/
def State.driveDone (s : State) (ch : Nat) : List (Time × Nat) :=
  let x := s.hap ch
  match x.cur with
  | some e => if x.state = 1 then x.drives ++ driveBefore (s.planned ch e.n e.run e.start) s.dt else x.drives
  | none => x.drives

/-- When the run of drive began that an effect starting now joins: that of the drive before it, unless a gap of at least
one resonance period lies between (R505). -/
def State.runFrom (s : State) (ch : Nat) : Time :=
  match (s.driveDone ch).foldl (fun (r : Option (Time × Time)) e => match r with
      | some (a, b) => some (if e.1 < b + s.hapPeriod ch then (a, e.1 + e.2) else (e.1, e.1 + e.2))
      | none => some (e.1, e.1 + e.2)) none with
  | some (a, b) => if s.dt < b + s.hapPeriod ch then a else s.dt
  | none => s.dt

/-- The duty limit refuses a start now (R506): some 2 s window with part of the plan would hold more than 1 s. -/
def State.dutyRefuses (s : State) (ch n : Nat) : Bool :=
  let plan := s.planned ch n (s.runFrom ch) s.dt
  let all := s.driveDone ch ++ plan
  let endOf := plan.foldl (fun m e => max m (e.1 + e.2)) s.dt
  let starts := all.map (fun (e : Time × Nat) => e.1) ++ all.map fun (e : Time × Nat) => e.1 + e.2 - 2000 * ms
  starts.any fun a => a < endOf && a + 2000 * ms > s.dt && driveIn all a (2000 * ms) > 1000 * ms

/-- The amplitude of an effect is clamped (R501). -/
def State.hapClamps (s : State) (ch n gain : Nat) : Bool :=
  let c := s.hapCfg ch
  let a := strength16 n * gain
  a * c.vsup > 16 * 255 * c.vpeak || a * a * c.vsup * c.vsup > 2 * (16 * 255) * (16 * 255) * c.vrms * c.vrms

/-- The completion payload of HAPTIC_PLAY (R514). -/
def hapPay (s : State) (ch : Nat) (e : Effect) : List Nat :=
  [e.n, b2n e.cut + 2 * b2n e.pre + 4 * b2n e.clamp, e.drive, s.hapFreq ch]

/-- Complete the HAPTIC_PLAY of an effect, if it has one. -/
def endEffect (s : State) (ch : Nat) (e : Effect) : State :=
  match e.flight with
  | some id => complete s id stOk (hapPay s ch e)
  | none => s

/-- Complete the commands that waited for the braking of a channel. -/
def endStops (s : State) (ch : Nat) : State :=
  (s.hap ch).stops.foldl (fun s id => complete s id stOk [0, 0, 0, s.hapFreq ch]) (s.modHap ch fun x => { x with stops := [] })

/-- Start an effect's main drive now (R501, R502). -/
def startEffect (s : State) (ch : Nat) (e : Effect) : State :=
  let cl := s.hapClamps ch e.n e.gain
  s.modHap ch fun x => { x with
    state := 1, cur := some { e with start := s.dt, run := s.runFrom ch, clamp := cl }, next := none, freq := s.hapFreq ch, open_ := false, miss := 0
    clamps := x.clamps + b2n cl }

/-- The main drive of the effect in progress ends and braking starts (R507); CUT where R505 has cut it. -/
def brakeNow (s : State) (ch : Nat) (pre : Bool) : State :=
  match (s.hap ch).cur with
  | some e =>
    let seg := driveBefore (s.planned ch e.n e.run e.start) s.dt
    let cut := ((s.cutAt ch e.n e.run e.start).map fun t => decide (t ≤ s.dt)).getD false
    s.modHap ch fun x => { x with
      state := 2, brakeAt := s.dt
      cur := some { e with drive := sumDrive seg / us, cut := e.cut || cut, pre := e.pre || pre, brake := false }
      drives := (x.drives ++ seg).filter fun d => d.1 + d.2 + 2000 * ms > s.dt }
  | none => s

/-- A waiting effect takes the channel over at a zero crossing, phase-aligned (R510). -/
def takeOver (s : State) (ch : Nat) (e : Effect) : State :=
  let s1 := if (s.hap ch).state = 1 then brakeNow s ch true else s
  let s2 := match (s1.hap ch).cur with
    | some o => endEffect s1 ch o
    | none => s1
  startEffect (endStops s2 ch) ch e

/-- A request to start an effect (R510, R511): the state it leaves, and 0 or the cause of its refusal (R514). -/
def requestEffect (s : State) (ch : Nat) (e : Effect) : State × Nat :=
  let x := s.hap ch
  let alarming := (match x.cur with
    | some c => c.alarm
    | none => false) || (match x.next with
    | some c => c.alarm
    | none => false)
  let rival := match x.next with
    | some c => some c
    | none => if x.state = 1 then x.cur else none
  if alarming && !e.alarm then (s, 3)
  else if e.n = 0 then
    (let s1 := if x.state = 1 then brakeNow s ch true else s
     match e.flight with
      | some id => if x.state = 0 then complete s1 id stOk [0, 0, 0, s.hapFreq ch]
        else s1.modHap ch fun x => { x with stops := x.stops ++ [id] }
      | none => s1, 0)
  else if !e.alarm && (match rival with
    | some c => e.prio < c.prio
    | none => false) then (s, 1)
  else if s.dutyRefuses ch e.n then (s.modHap ch fun x => { x with refused := satInc x.refused 0xFFFF }, 2)
  else if x.state = 0 then (startEffect s ch e, 0)
  else
    let s1 := match x.next with
      | some o => endEffect s ch { o with pre := true }
      | none => s
    (s1.modHap ch fun x => { x with next := some e }, 0)

/-- A haptic alarm of Watchlamp (R287, R288, R511): full gain; a refusal by the duty limit is counted. -/
def hapticAlarm (s : State) (ch effect : Nat) : State :=
  if !s.up 14 then s
  else
    let r := requestEffect s ch { n := effect, prio := 7, gain := 255, alarm := true }
    if r.2 = 2 then r.1.modWl fun w => { w with hapRef := w.hapRef + 1 } else r.1

/-- A haptic alarm plays on some channel (R517). -/
def State.hapticAlarmPlays (s : State) : Bool :=
  (List.range 8).any fun ch => match (s.hap ch).cur with
    | some e => e.alarm && (s.hap ch).state ≠ 0
    | none => false

/-- The holder of a haptic channel. -/
def State.hapHolder (s : State) (ch : Nat) : Option Nat :=
  (List.range 64).find? fun i => (i < 2 || (s.fnc i).state ≠ 0) && (s.fnc i).grant.hapticMask.testBit ch

/-! ### HAPTIC_PLAY and HAPTIC_ARM (R509, R513-R515) -/

def hpChannel (c : Cmd) : Nat := c.f 10 0 3

/-- GAIN, where 0 acts as 255. -/
def hpGain (c : Cmd) : Nat := if c.f 11 0 8 = 0 then 255 else c.f 11 0 8

/-- HAPTIC_PLAY asks for its effect. -/
def playEffect (s : State) (f : Flight) : State :=
  let c := f.cmd
  let ch := hpChannel c
  let n := c.f 10 3 7
  let r := requestEffect s ch { n := n, prio := c.f 10 10 3, gain := hpGain c, flight := some f.id, fn := some c.fn }
  if r.2 = 0 then r.1 else complete r.1 f.id stNoResource [n, 8 * r.2, 0, s.hapFreq ch]

def specHapticPlay : OpSpec :=
  { op := 0x0500, engine := some 5, malformed := fun _ c => !c.z 10 13 19 || !c.z 11 8 24 || !c.zw 12 15
    denied := fun s c => !(s.fnc c.fn).grant.hapticMask.testBit (hpChannel c), isl := fun _ _ => 14, run := playEffect }

/-- HAPTIC_PLAY. -/
def execHapticPlay (t : Time) (c : Cmd) (s : State) : Answer := .next (startCmd (s.at t) specHapticPlay c)

/-- HAPTIC_ARM sets or clears the arm of a channel. -/
def armChannel (s : State) (f : Flight) : State :=
  let c := f.cmd
  let a : Option Arm := if c.b 10 3 then
      some { fn := c.fn, effect := c.f 10 4 7, prio := c.f 10 11 3, falling := c.b 10 14, holdoff := c.f 10 16 8, gain := hpGain c }
    else none
  complete (s.modHap (hpChannel c) fun x => { x with arm := a }) f.id stOk noPay

def specHapticArm : OpSpec :=
  { op := 0x0501, engine := some 5, malformed := fun _ c => !c.z 10 15 1 || !c.z 10 24 8 || !c.z 11 8 24 || !c.zw 12 15
    denied := fun s c => !(s.fnc c.fn).grant.hapticMask.testBit (hpChannel c) || !s.accepts c.fn 15
    isl := fun _ _ => 14, run := armChannel }

/-- HAPTIC_ARM. -/
def execHapticArm (t : Time) (c : Cmd) (s : State) : Answer := .next (startCmd (s.at t) specHapticArm c)

/-- HTRIG_EDGE: an edge of an armed pin, held for 1 us, outside the holdoff window (R513). -/
def execHtrigEdge (t : Time) (ch : Fin 8) (falling : Bool) (s : State) : Answer :=
  let s := s.at t
  match (s.hap ch).arm with
  | none => .next s
  | some a =>
    if !s.up 14 || a.falling ≠ falling || s.dt < a.until_ then .next s
    else
      let s1 := s.modHap ch fun x => { x with arm := some { a with until_ := s.dt + a.holdoff * ms } }
      let r := requestEffect s1 ch { n := a.effect, prio := a.prio, gain := a.gain, fn := some a.fn }
      .next (sendEvent r.1 14 a.fn 0x0585 ch a.effect (b2n (r.2 ≠ 0) + 2 * r.2))

/-- An alarm rule names a haptic channel (R504). -/
def State.alarmChannel (s : State) (ch : Nat) : Bool :=
  match s.img with
  | some im => im.rules.any fun e => e.2.effect.val ≠ 0 && e.2.channel.val = ch
  | none => false

/-- A waiting effect that may not start after all leaves the channel as it is (R85, R506): its HAPTIC_PLAY ends with the
status, a refused alarm is counted (R288). -/
def dropWaiting (s : State) (ch : Nat) (e : Effect) (status : Nat) (pay : List Nat) : State :=
  let s1 := s.modHap ch fun x => { x with next := none }
  match e.flight with
  | some id => complete s1 id status pay
  | none => if e.alarm then s1.modWl fun w => { w with hapRef := w.hapRef + 1 } else s1

/-- The status with which a waiting HAPTIC_PLAY ends when it is checked again (R85). -/
def State.effectVerdict (s : State) (e : Effect) : Option Nat :=
  (e.flight.bind s.flight?).bind fun f => s.verdict specHapticPlay f.cmd

/-- The turn of a waiting effect has come (R510): it is checked again (R85), its start judged by the duty limit at this
instant (R506), and it takes the channel over. -/
def beginWaiting (s : State) (ch : Nat) (e : Effect) : State :=
  match s.effectVerdict e with
  | some st => dropWaiting s ch e st noPay
  | none =>
    if s.dutyRefuses ch e.n then
      dropWaiting (s.modHap ch fun x => { x with refused := satInc x.refused 0xFFFF }) ch e stNoResource
        [e.n, 16, 0, s.hapFreq ch]
    else takeOver s ch e

/-- What falls at a zero crossing: a waiting effect takes over, an effect of a lost holder brakes (R510, R515). -/
def atCrossing (s : State) (ch : Nat) : State :=
  match (s.hap ch).next, (s.hap ch).cur with
  | some e, _ => beginWaiting s ch e
  | none, some c => if (s.hap ch).state = 1 && c.brake then brakeNow s ch true else s
  | none, none => s

/-- BEMF_SENSE_WINDOW: a sense window ends, with the interval between zero crossings in ns if one was found (R502,
R504). After four windows without one the channel drives open-loop at F0. -/
def execBemfSenseWindow (t : Time) (ch : Fin 8) (crossing : Option Nat) (s : State) : Answer :=
  let s := s.at t
  let x := s.hap ch
  if !s.up 14 || x.state = 0 then .next s
  else match crossing with
    | some dtn =>
      let f := min 3000 (max 1000 (if dtn = 0 then 3000 else 5000000000 / dtn))
      .next (atCrossing (s.modHap ch fun x => { x with freq := f, miss := 0, open_ := false }) ch)
    | none =>
      let s1 := s.modHap ch fun x => { x with miss := x.miss + 1 }
      if x.miss + 1 = 4 && !x.open_ then
        let f0 := (s.hapCfg ch).f0
        let s2 := sendTo (s1.modHap ch fun x => { x with open_ := true, freq := f0 % 4096 }) 14 (s.hapHolder ch) 0x0586 ch 0 f0
        .next (atCrossing (if s.alarmChannel ch then report s2 14 0x10 else s2) ch)
      else if x.open_ then .next (atCrossing s1 ch)
      else .next s1

/-- MAX_ON_CUT: a run of drive has lasted MAX_ON (R505). -/
def execMaxOnCut (t : Time) (ch : Fin 8) (s : State) : Answer :=
  let s := s.at t
  match (s.hap ch).cur with
  | some e =>
    if s.up 14 && (s.hap ch).state = 1 && ((s.cutAt ch e.n e.run e.start).map fun t => decide (t ≤ s.dt)).getD false then
      .next (brakeNow s ch false)
    else .next s
  | none => .next s

/-- MAIN_DRIVE_END (R507): every part of the effect before braking has passed. -/
def execMainDriveEnd (t : Time) (ch : Fin 8) (s : State) : Answer :=
  let s := s.at t
  match (s.hap ch).cur with
  | some e =>
    if s.up 14 && (s.hap ch).state = 1 && (s.planned ch e.n e.run e.start).all fun d => d.1 + d.2 ≤ s.dt then
      .next (brakeNow s ch false)
    else .next s
  | none => .next s

/-- BRAKING_END (R514): the channel goes idle; an effect still waiting starts at once (R510). -/
def execBrakingEnd (t : Time) (ch : Fin 8) (s : State) : Answer :=
  let s := s.at t
  let x := s.hap ch
  if !s.up 14 || x.state ≠ 2 then .next s
  else
    let s1 := match x.cur with
      | some e => endEffect s ch e
      | none => s
    let s2 := endStops (s1.modHap ch fun x => { x with state := 0, cur := none }) ch
    .next (match x.next with
      | some e => beginWaiting s2 ch e
      | none => s2)

/-- The effects that a test picks stop: one in progress brakes at the next zero crossing, one that waits is preempted
before it starts, and its HAPTIC_PLAY completes so. -/
def stopEffects (s : State) (p : Effect → Bool) : State :=
  (List.range 8).foldl (fun s ch =>
    let s1 := match (s.hap ch).next with
      | some e => if p e then endEffect (s.modHap ch fun x => { x with next := none }) ch { e with pre := true } else s
      | none => s
    if ((s1.hap ch).cur.map p).getD false then
      s1.modHap ch fun x => { x with cur := x.cur.map fun c => { c with brake := true } }
    else s1) s

/-- A function leaves ACTIVE: its arms are cleared and its effects brake at the next zero crossing (R515). -/
def releaseHaptics (s : State) (fn : Nat) : State :=
  let s1 : State := { s with sense := { s.sense with haps := s.sense.haps.map fun (e : Nat × Hap) =>
    (e.1, { e.2 with arm := e.2.arm.filter fun a => a.fn ≠ fn }) } }
  stopEffects s1 fun e => e.fn = some fn

end Sys2Proof.Machine
end

