-- ==== Sys2Proof/Machine/Watchlamp.lean ====
section
/-! DEFINITION. Chapter 6, Watchlamp: modes (R254-R265), telegrams and signals (R266-R274), alarm rules (R275-R279),
acknowledgement (R280-R284), annunciation (R285-R289). -/

namespace Sys2Proof.Machine

/-- An event to the safety guest. -/
def sendGuest (s : State) (evCode d5 d6 d7 : Nat) : State :=
  match s.img with
  | some im => sendEvent s 1 im.safetyFn evCode d5 d6 d7
  | none => s

/-- Change Watchlamp's mode and tell the safety guest and both managers (R295). -/
def setWlMode (s : State) (mode cause : Nat) : State :=
  let old := s.wl.mode
  let s1 := s.modWl fun w => { w with mode := mode }
  sendManagers (sendGuest s1 0x0285 old mode cause) 1 0x0285 old mode cause

/-- Commits that await their latch complete with DENIED when Watchlamp enters AUTONOMOUS (R264). -/
def denyCommits (s : State) : State :=
  runUpdates ((List.range 12).foldl (fun s h =>
    match (s.safeOf h).commit with
    | some c => complete (s.modSafe h fun o => { o with commit := none }) c.1 stDenied noPay
    | none => s) s)

/-- Watchlamp enters AUTONOMOUS from HOSTED or HANDBACK (R258, R259, R262): `alarm` marks the entries of R265. -/
def enterAutonomous (s : State) (cause : Nat) (alarm : Bool) : State :=
  if s.wl.mode = 1 || !s.watchUp then s
  else
    let s1 := setWlMode s 1 cause
    let s2 := s1.modWl fun w => { w with hbFirst := true, takeovers := if alarm then satInc w.takeovers 0xFFFF else w.takeovers }
    denyCommits (if alarm then raiseSysAlarm (report s2 1 0x16) else s2)

/-- The safety guest leaves ACTIVE or loses its secure status (R259). -/
def guestLost (s : State) (fn : Nat) : State := if s.isSafety fn then enterAutonomous s 1 true else s

/-- A write of a Watchlamp register (R254): secure-world registers of the safety guest's page alone. -/
def wlWrite (s : State) (fn : Nat) (k : State → State) : State :=
  if !s.reach fn || !s.isSafety fn then s
  else if !s.isSecure fn then worldViolation s 1 fn
  else if (s.fnc fn).state ≠ 2 || !s.accepts fn 11 || !s.watchUp then s
  else k s

/-- WL_HEARTBEAT (R256, R260). -/
def execWlHeartbeat (t : Time) (fn : Fin 64) (w : Word) (s : State) : Answer :=
  .next (wlWrite (s.at t) fn fun s =>
    let seq := fld w 0 16
    if s.wl.hbFirst || seq = (s.wl.hbLast + 1) % 65536 then
      let s1 := s.modWl fun x => { x with hbLast := seq, hbFirst := false, hbAt := s.dt }
      if s.wl.mode = 1 then setWlMode (s1.modWl fun x => { x with handAt := s.dt, confFail := false }) 2 3 else s1
    else s.modWl fun x => { x with hbBad := satInc x.hbBad 0xFF })

/-- TAKEOVER_TIMEOUT (R258, R265): the heartbeat window closes empty. -/
def execTakeoverTimeout (t : Time) (s : State) : Answer :=
  let s := s.at t
  match s.img with
  | some im => if s.wl.mode ≠ 1 && s.dt ≥ s.wl.hbAt + im.takeoverMs * ms then .next (enterAutonomous s 0 true) else .next s
  | none => .next s

/-- WL_CONFIRM (R261). -/
def execWlConfirm (t : Time) (fn : Fin 64) (w : Word) (s : State) : Answer :=
  .next (wlWrite (s.at t) fn fun s =>
    if s.wl.mode ≠ 2 then s
    else if fld w 0 16 = s.wl.gen then setWlMode s 0 4
    else s.modWl fun x => { x with confFail := true })

/-- HANDBACK_LIMIT_EXPIRY (R262). -/
def execHandbackLimitExpiry (t : Time) (s : State) : Answer :=
  let s := s.at t
  match s.img with
  | some im => if s.wl.mode = 2 && s.dt ≥ s.wl.handAt + im.handbackMs * ms then .next (enterAutonomous s 5 false) else .next s
  | none => .next s

/-! ### Rules (R275-R279) -/

/-- The rule of a number, where the image holds one. -/
def State.ruleOf (s : State) (r : Nat) : Option AlarmRule :=
  match s.img with
  | some im => match im.rules.find? (·.1 = r) with
    | some e => some e.2
    | none => none
  | none => none

def State.modRule (s : State) (r : Nat) (f : RuleSt → RuleSt) : State :=
  s.modWl fun w => { w with rules := put w.rules r (f (s.ruleSt r)) }

/-- A rule's state changes: WL_GEN, WL_ALARM and ALMOUT_N follow, and entry into ACTIVE_UNACK plays the rule's haptic
effect (R278, R279, R287, R289, R295). -/
def setRule (s : State) (r : Nat) (rule : AlarmRule) (st : Nat) : State :=
  let enter := st = 1
  let s1 := s.modRule r fun x => { x with
    state := st, was := if x.moved = s.dt then x.was else x.state, moved := s.dt, actSeq := if enter then (x.actSeq + 1) % 256 else x.actSeq, unack := if enter then s.dt else x.unack
    played := if enter then s.dt else x.played }
  let s2 := updAlmout (sendGuest (bumpGen s1) 0x0286 r st (s1.ruleSt r).actSeq)
  if enter && rule.effect.val ≠ 0 then hapticAlarm s2 rule.channel rule.effect else s2

/-- The condition of a rule (R275); a disabled rule's condition is false. -/
def ruleCond (rule : AlarmRule) (stale prev : Bool) (v : Int) : Bool :=
  let test := rule.test.val
  if test = 0 || test ≥ 5 then false
  else if stale then (match rule.staleAct.val with
    | 0 => prev
    | 2 => false
    | _ => true)
  else match test with
    | 1 => if v ≥ rule.set then true else if v < rule.clear then false else prev
    | 2 => if v ≤ rule.set then true else if v > rule.clear then false else prev
    | 3 => v = rule.set
    | _ => (code 32 v) &&& (code 32 rule.set) ≠ 0

/-- Evaluate one rule now (R275-R278). -/
def evalRule (s : State) (r : Nat) (rule : AlarmRule) : State :=
  let x := s.ruleSt r
  let c := ruleCond rule (s.staleAt rule.signal s.dt) x.cond (s.sigOf rule.signal).value
  let since := if c then some (x.since.getD s.dt) else none
  let s1 := s.modRule r fun x => { x with cond := c, since := since }
  let due := match since with
    | some t0 => s.dt ≥ t0 + rule.onDelay * ms
    | none => false
  if due && (x.state = 0 || x.state = 3) then setRule s1 r rule 1
  else if !c && x.state = 1 then setRule s1 r rule (if rule.latching then 3 else 0)
  else if !c && x.state = 2 then setRule s1 r rule 0
  else s1

/-- Evaluate the rules that a test picks. -/
def evalRules (s : State) (p : AlarmRule → Bool) : State :=
  match s.img with
  | some im => im.rules.foldl (fun s e => if p e.2 then evalRule s e.1 e.2 else s) s
  | none => s

/-- RULE_EVALUATION (R276, R289): every rule, at a DT multiple of 1 ms after image load or the exit from STANDBY (R610) and at no other instant; at the first, a pin that is low has just
fallen (R603). -/
def execRuleEvaluation (t : Time) (s : State) : Answer :=
  let s := s.at t
  if !s.watchUp || !s.wl.running || s.dt % ms ≠ 0 || s.dt ≤ s.wl.runAt then .next s
  else
    let s := if s.wl.evaluated then s else s.modWl fun w => { w with
      pins := w.pins.map fun (e : Nat × AckPin) => (e.1, if e.2.low then { e.2 with fall := s.stamp 1, acted := false } else e.2) }
    .next (updAlmout ((evalRules s fun _ => true).modWl fun w => { w with evaluated := true }))

/-! ### Telegrams (R266-R274) -/

/-- A mapping entry matches telegrams (R266, R272). -/
def telUsable (e : MapEntry) : Bool :=
  e.valid && e.source.val ≠ 3 && e.scaleNum ≠ 0 && 1 ≤ e.width && e.width ≤ 32 && !(e.e2e && e.maxStep = 0)

/-- Bit i of a payload, and bit i counted from the most significant bit of each byte. -/
def streamBit (p : List Byte) (i : Nat) : Bool := (p.getD (i / 8) 0).toNat.testBit (i % 8)
def streamBitBe (p : List Byte) (i : Nat) : Bool := (p.getD (i / 8) 0).toNat.testBit (7 - i % 8)

/-- The raw field (R269). -/
def telRaw (e : MapEntry) (p : List Byte) : Nat :=
  let b := 8 * e.byteOff + e.bitOff
  (List.range e.width).foldl (fun n j =>
    if e.bigEndian then 2 * n + b2n (streamBitBe p (b + j)) else n + b2n (streamBit p (b + j)) * 2 ^ j) 0

/-- The signal value (R270). -/
def telValue (e : MapEntry) (p : List Byte) : Int :=
  let raw : Int := if e.signed then signed e.width (telRaw e p) else (telRaw e p : Nat)
  clampI (raw * e.scaleNum / (2 : Int) ^ e.scaleShift.val + e.offset) (-2147483648) 2147483647

/-- The field and, with E2E, the check bytes lie within the payload (R272). -/
def telFits (e : MapEntry) (p : List Byte) : Bool :=
  8 * e.byteOff + e.bitOff + e.width ≤ 8 * p.length && (!e.e2e || (e.crcOff + 4 ≤ p.length && e.seqOff < p.length))

/-- The CRC check of R271. -/
def telCrcOk (e : MapEntry) (p : List Byte) : Bool :=
  crc32c (leBytes 2 e.dataId ++ p.take e.crcOff) = leNat ((p.drop e.crcOff).take 4)

/-- SEQ of a telegram, and its modulus 2^w. -/
def telSeqMod (e : MapEntry) : Nat := if e.seqWidth = 0 then 16 else 256
def telSeq (e : MapEntry) (p : List Byte) : Nat := (p.getD e.seqOff 0).toNat % (telSeqMod e)

/-- The sequence check of R271, skipped for the first telegram after boot or after the signal has been STALE. -/
def telSeqOk (e : MapEntry) (st : E2e) (stale : Bool) (p : List Byte) : Bool :=
  st.resync || stale ||
  (match st.seq with
    | some l =>
      let d := (telSeq e p + (telSeqMod e) - l) % (telSeqMod e)
      1 ≤ d && d ≤ e.maxStep
    | none => true)

def State.modSig (s : State) (n : Nat) (f : Sig → Sig) : State :=
  s.modWl fun w => { w with sigs := put w.sigs n (f (s.sigOf n)) }

/-- An accepted telegram sets its signal unless the signal holds a later stamp, or an equal one from a lower entry
(R273), and the rules of the signal are evaluated (R276). -/
def acceptTelegram (s : State) (n : Nat) (e : MapEntry) (p : List Byte) (stamp : Time) : State :=
  let s1 := if e.e2e then s.modWl fun w => { w with e2e := put w.e2e n { seq := some (telSeq e p), resync := false } } else s
  let x := s1.sigOf e.signal
  let newer := match x.stamp with
    | some t => stamp > t || (stamp = t && n < x.entry)
    | none => true
  let known := match s.img with
    | some im => im.signals.any (·.1 = e.signal.val)
    | none => false
  let s2 := if newer && known then s1.modSig e.signal fun x => { x with value := telValue e p, stamp := some stamp, entry := n } else s1
  let s3 := s2.modSig e.signal fun x => { x with stale := s2.staleAt e.signal s2.dt }
  if s3.wl.running then evalRules s3 fun r => r.signal = e.signal else s3

/-- A signal that is STALE now is marked so, and the next telegram of each of its entries is not checked for its sequence
(R274, R271). -/
def noteStale (s : State) (sig : Nat) : State :=
  if !s.staleAt sig s.dt then s
  else
    let s1 := s.modSig sig fun x => { x with stale := true }
    match s.img with
    | some im => s1.modWl fun w => { w with
        e2e := (im.mapping.filter fun e => e.2.signal = sig).foldl (fun tb e => upd tb e.1 {} fun x => { x with resync := true }) w.e2e }
    | none => s1

/-- TELEGRAM_ACCEPT: a telegram that an entry matched is judged and accepted or counted (R271-R273). -/
def execTelegramAccept (t : Time) (entry : Fin 512) (payload : List Byte) (stamp : Time) (s : State) : Answer :=
  let s := s.at t
  let s := s.modWl fun w => { w with inbox := w.inbox.erase ⟨entry, payload, stamp⟩ }
  match s.img with
  | none => .next s
  | some im => match im.mapping.find? (·.1 = entry.val) with
    | none => .next s
    | some (_, e) =>
      if !s.watchUp || !(telUsable e) then .next s
      else if !telFits e payload then .next (s.modWl fun w => { w with short := satInc w.short 0xFF })
      else if e.e2e && !telCrcOk e payload then .next (s.modWl fun w => { w with crcBad := satInc w.crcBad 0xFF })
      else
        let s := noteStale s e.signal
        if e.e2e && !telSeqOk e (look s.wl.e2e entry {}) (s.staleAt e.signal s.dt) payload then
          .next (s.modWl fun w => { w with seqBad := satInc w.seqBad 0xFF })
        else .next (acceptTelegram s entry e payload stamp)

/-- The entries of the image that a telegram matches (R267, R268), for the crossing to Watchlamp. -/
def passTelegram (s : State) (p : MapEntry → Bool) (payload : List Byte) (stamp : Time) : State :=
  match s.img with
  | some im => s.modWl fun w => { w with
      inbox := w.inbox ++ (im.mapping.filter fun e => (telUsable e.2) && p e.2).map fun e => ⟨e.1, payload, stamp⟩ }
  | none => s

/-- SIGNAL_STALE (R274, R271): the freshness window has closed. -/
def execSignalStale (t : Time) (sig : Fin 256) (s : State) : Answer :=
  let s := s.at t
  if s.watchUp then .next (noteStale s sig) else .next s

/-! ### Annunciation (R285-R288) -/

/-- A rule's PRIORITY, where 0 acts as 1. -/
def rulePrio (r : AlarmRule) : Nat := if r.priority.val = 0 then 1 else r.priority.val

/-- The state of a rule, and the system alarm, before this instant. -/
def State.ruleBefore (s : State) (r : Nat) : Nat := if (s.ruleSt r).moved = s.dt then (s.ruleSt r).was else (s.ruleSt r).state
def State.sysBefore (s : State) : Bool := if s.wl.sysMoved = s.dt then s.wl.sysWas else s.wl.sysAlarm

/-- The tones called for by the states before this instant (R286): TG0-TG2 by the highest priority unacknowledged, TG3 by the
system alarm (R285). -/
def State.tonesDue (s : State) (n : Nat) : Bool :=
  if n = 3 then s.sysBefore
  else match s.img with
    | some im =>
      let ps := (im.rules.filter fun e => s.ruleBefore e.1 = 1 || s.ruleBefore e.1 = 3).map fun e => rulePrio e.2
      ps.any (· = n + 1) && !ps.any (· < n + 1)
    | none => false

/-- TONE_CHANGE (R286): at the first DT multiple of 1 ms after the change that calls for it, tones start or stop. -/
def execToneChange (t : Time) (s : State) : Answer :=
  let s := s.at t
  if !s.watchUp || !s.wl.running || s.dt % ms ≠ 0 then .next s
  else .next ((List.range 4).foldl (fun s n => setTone s n (s.tonesDue n)) s)

/-- HAPTIC_ALARM_REPEAT (R287, R288): every 2 s while a rule stays in ACTIVE_UNACK. -/
def execHapticAlarmRepeat (t : Time) (rule : Fin 128) (s : State) : Answer :=
  let s := s.at t
  match s.ruleOf rule with
  | some r =>
    let x := s.ruleSt rule
    if s.watchUp && s.wl.running && x.state = 1 && r.effect.val ≠ 0 && s.dt ≥ x.played + 2000 * ms then
      .next (hapticAlarm (s.modRule rule fun x => { x with played := s.dt }) r.channel r.effect)
    else .next s
  | none => .next s

/-! ### Acknowledgement (R280-R284) -/

/-- Acknowledge a rule (Table 06.5). -/
def ackRule (s : State) (r : Nat) : State :=
  match s.ruleOf r with
  | some rule =>
    if (s.ruleSt r).state = 1 then setRule s r rule 2
    else if (s.ruleSt r).state = 3 then setRule s r rule 0
    else s
  | none => s

def State.pin (s : State) (n : Nat) : AckPin := look s.wl.pins n {}
def State.modPin (s : State) (n : Nat) (f : AckPin → AckPin) : State :=
  s.modWl fun w => { w with pins := put w.pins n (f (s.pin n)) }

/-- ACKIN_FALL (R281). -/
def execAckinFall (t : Time) (pin : Fin 4) (s : State) : Answer :=
  let s := s.at t
  .next (s.modPin pin fun p => { p with low := true, fall := s.stamp 1, acted := false })

/-- A wake event (R578): in STANDBY it leads to STANDBY_EXIT. -/
def wakeEvent (s : State) : State :=
  s.modPwr fun p => { p with
    wake := p.wake || p.device = 1, wakeAt := if p.device = 1 && !p.wake then s.dt else p.wakeAt, wakeEvt := some s.dt }

/-- ACKIN_PRESS (R281, R282): the pin was low for 20 ms; what was unacknowledged before the fall is acknowledged, and
a pin of WAKE_MASK wakes the device (R578). A press that ends before the first evaluation is discarded (R603). -/
def execAckinPress (t : Time) (pin : Fin 4) (s : State) : Answer :=
  let s := s.at t
  let p := s.pin pin
  match s.img with
  | none => .next s
  | some im =>
    if !s.watchUp || !s.wl.evaluated || !p.low || p.acted || p.stuck || s.dt < p.fall + 20 * ms then .next s
    else
      let s0 := s.modPin pin fun p => { p with acted := true }
      let s1 := if im.wakeMask.val.testBit pin then wakeEvent s0 else s0
      let s2 := im.rules.foldl (fun s e =>
        if e.2.ackMask.val.testBit pin && (s.ruleSt e.1).unack < p.fall then ackRule s e.1 else s) s1
      .next (if im.sysAckMask.val.testBit pin && s2.wl.sysSince < p.fall then ackSysAlarm s2 else s2)

/-- ACKIN_STUCK (R283). -/
def execAckinStuck (t : Time) (pin : Fin 4) (s : State) : Answer :=
  let s := s.at t
  let p := s.pin pin
  if !s.watchUp || !p.low || p.stuck || s.dt < p.fall + 10000 * ms then .next s
  else .next (report (raiseSysAlarm (s.modPin pin fun p => { p with stuck := true })) 1 0x17)

/-- ACKIN_RELEASE (R283): the pin has been high for 20 ms. -/
def execAckinRelease (t : Time) (pin : Fin 4) (s : State) : Answer :=
  .next ((s.at t).modPin pin fun p => { p with low := false, stuck := false })

/-- WL_ACK (R284). -/
def execWlAck (t : Time) (fn : Fin 64) (w : Word) (s : State) : Answer :=
  .next (wlWrite (s.at t) fn fun s =>
    if s.wl.mode = 1 then s
    else
      let r := fld w 0 7
      let x := s.ruleSt r
      let s1 := if w.getLsbD 7 && (x.state = 1 || x.state = 3) && x.actSeq = fld w 8 8 then ackRule s r else s
      if w.getLsbD 16 then ackSysAlarm s1 else s1)

end Sys2Proof.Machine
end

