-- ==== Sys2Proof/Machine/Memory.lean ====
section
/-! DEFINITION. Chapter 8: channels and their training (R334-R342), partitions (R91-R93, R343-R346, R367), the
controllers (R352-R359), freeze and recovery (R360-R368), scrubs (R369-R373). -/

namespace Sys2Proof.Machine

/-- The data region of a partition, or of the code store, on one channel, with its check bytes: base and raw size. -/
structure Region where
  base : Nat
  size : Nat

/-- The regions of a channel (R336, R343). -/
def State.regions (s : State) (c : Nat) : List Region :=
  (if c < 4 then [{ base := 0, size := unit64 }] else []) ++
  (s.partsOn c).map fun p => { base := (s.part p).base * unit64, size := (s.part p).perChan }

/-- The region whose data part holds a local offset. -/
def State.regionAt (s : State) (c d : Nat) : Option Region :=
  (s.regions c).find? fun r => r.base ≤ d && d < r.base + 7 * r.size / 8

/-- The device address of the check byte of the word at local offset `d` (R345). -/
def Region.chk (r : Region) (c d : Nat) : Nat := c * 2 ^ 34 + r.base + 7 * r.size / 8 + (d / 8 * 8 - r.base) / 8

/-- Read the word at a local offset with its check byte (R357). -/
def Region.word (r : Region) (m : List Host.Cell) (c d : Nat) : Ecc :=
  eccRead (leNat (readBytes m (c * 2 ^ 34 + d / 8 * 8) 8)) (readByte m (r.chk c d)).toNat

/-- Write a word and a check byte. -/
def Region.store (r : Region) (m : List Host.Cell) (c d data chk : Nat) : List Host.Cell :=
  writeByte (writeBytes m (c * 2 ^ 34 + d / 8 * 8) (leBytes 8 data)) (r.chk c d) (BitVec.ofNat 8 chk)

/-! ### Syndromes -/

/-- The syndromes of an uncorrectable error (R357). -/
def badSyndromes : List Nat :=
  (List.range 256).filter fun x => x ≠ 0 && popCount x 8 ≠ 1 && !secdedCodes.contains x

/-! ### Channels out of service (R339-R341) -/

/-- Partitions that include a failed channel are lost, and include it no longer (R341; of external channels
notes/assumptions/141.md). -/
def dropChans (s : State) (c : Nat) (cs : List Nat) : State :=
  let ps := (List.range 16).filter fun p => cs.any fun k => (s.partsOn k).contains p
  let s1 := completeAll (loseParts s ps (fun _ => c) true) (ps.filterMap fun p => (s.part p).flight) stPartLost noPay
  ps.foldl (fun s p => s.modPart p fun x => { x with gone := x.gone ||| listMask cs, flight := none }) s1

/-- A channel enters FAILED (R339): one of CH0-CH3 takes the code store out of service (R341), an external one takes all
four out of service, those still training included (R340). -/
def failChan (s : State) (c : Nat) : State :=
  let s1 := report (s.modChan c fun x => { x with state := 5 }) (memIsl c) 0x11
  if c < 4 then dropChans (s1.modMem fun m => { m with codeOk := false, codeFill := false }) c [c]
  else
    dropChans ([4, 5, 6, 7].foldl (fun s k =>
      if (s.chan k).state = 0 then s else s.modChan k fun x => { x with state := 5 }) s1) c [4, 5, 6, 7]

/-- The memory islands are ready (R605). -/
def updMemReady (s : State) : State :=
  if (List.range 8).any (fun c => (s.chan c).state = 1) || s.mem.codeFill then s
  else s.modBoot fun b => { b with memRdy := true, stage := if b.stage = 4 then 5 else b.stage }

/-- Memory-in fills the code store once CH0-CH3 have trained (R605; notes/assumptions/81.md), unless one failed. -/
def fillCode (s : State) : State :=
  if !s.mem.codeFill || [0, 1, 2, 3].any (fun c => (s.chan c).state ≠ 2) then s
  else s.modMem fun m => { m with
    codeFill := false, codeOk := true
    dram := [0, 1, 2, 3].foldl (fun d c => zeroRange d (c * 2 ^ 34) unit64) m.dram }

/-! ### Recovery (R363-R368) -/

/-- PARTITION_LOST for a partition a recovery marked lost (R648): to its holder, or to the one it had when it was marked
if it has been removed since. -/
def markedEvent (c : Nat) (s : State) (e : Nat × Nat × Nat) : State :=
  let x := s.part e.1
  sendEvent s 3 (if x.state ≠ 0 && x.order = e.2.1 then x.holder else e.2.2) 5 e.1 c 0

/-- The last step of a recovery: the events for the partitions it marked lost, and the channel's new state (R364, R386). -/
def endRecovery (s : State) (c : Nat) : State :=
  let ms := (s.chan c).marks
  let s1 := s.modChan c fun x => { x with state := if x.state = 4 then 2 else x.state, marks := [] }
  let s2 := ms.foldl (markedEvent c) s1
  sendManagers (fillCode s2) (memIsl c) 0x0F81 c (s2.chan c).state (listMask (ms.map (·.1)))

/-- A retrained channel's partitions are marked lost and filled (R364, step 4). -/
def refillChan (s : State) (c : Nat) : State :=
  let ps := s.partsOn c
  let s0 := s.modChan c fun x => { x with marks := ps.map fun p => (p, (s.part p).order, (s.part p).holder) }
  let s1 := ps.foldl (fun s p => startFill (markLost s p false) p 3 none) s0
  let s2 := if c < 4 then
      losePipelines (s1.modMem fun m => { m with dram := zeroRange m.dram (c * 2 ^ 34) unit64 }) c
    else s1
  if ps = [] then endRecovery s2 c else s2

/-- A recovery fails (R365, R368): the channel is FAILED, with the partitions lost by it in the event. -/
def failRecovery (s : State) (c : Nat) : State :=
  let ms := (s.chan c).marks
  let ps := (s.partsOn c).filter fun p => (s.part p).state ≠ 3
  let s1 := failChan (ms.foldl (markedEvent c) (s.modChan c fun x => { x with marks := [] })) c
  sendManagers s1 (memIsl c) 0x0F81 c 5 (listMask (ms.map (·.1)) ||| listMask ps)

/-- The commands that wait for a channel end (R361, R364, R640). -/
def endWaits (s : State) (p : MemWait → Bool) (status : Nat) : State :=
  let l := s.mem.waits.filter p
  let s1 := s.modMem fun m => { m with waits := m.waits.filter fun w => !p w }
  if l = [] then s1 else pruneCtxs (completeAll s1 (l.map (·.flight)) status noPay)

/-- A channel's controller forgets its queues, its cached lines and its waiting requests (R364, R640). -/
def clearChan (s : State) (c : Nat) (status : Nat) : State :=
  let mine := fun (r : MemReq) => r.addr / 2 ^ 34 = c
  let fl := (s.partsOn c).filterMap fun p => (s.part p).flight
  let s1 := (s.modMem fun m => { m with
    reqs := m.reqs.filter fun (e : MemReq × Time) => !mine e.1
    lines := dropKeys m.lines fun l => l / 2 ^ 27 = c }).modChan c fun x => { x with banks := [], last := 15 }
  let s2 := (s.partsOn c).foldl (fun s p => s.modPart p fun x => { x with filling := false, flight := none }) s1
  endWaits (completeAll s2 fl status noPay) (·.chan = c) status

/-! ### Scrubs (R369-R373) -/

/-- The data words of a range of a channel: how many lie in data regions. -/
def State.examined (s : State) (c lo n : Nat) : Nat :=
  (s.regions c).foldl (fun k r =>
    let a := max lo r.base
    let b := min (lo + n) (r.base + 7 * r.size / 8)
    k + (b - a) / 8) 0

/-- A number put into an ascending list, once. -/
def insertUp (n : Nat) : List Nat → List Nat
  | [] => [n]
  | k :: r => if n < k then n :: k :: r else if n = k then k :: r else k :: insertUp n r

/-- The words of a range that are not zero with a zero check byte, ascending: the only ones that can hold an error. -/
def State.suspects (s : State) (c lo n : Nat) : List Nat :=
  let local_ := (s.mem.dram.filter fun e => e.1 / 2 ^ 34 = c).map fun e => e.1 % 2 ^ 34
  let words := local_.filterMap fun d =>
    match s.regionAt c d with
    | some _ => some (d / 8 * 8)
    | none =>
      match (s.regions c).find? fun r => r.base + 7 * r.size / 8 ≤ d && d < r.base + 7 * r.size / 8 + 7 * r.size / 64 with
      | some r => some (r.base + 8 * (d - r.base - 7 * r.size / 8))
      | none => none
  (words.filter fun d => lo ≤ d && d < lo + n).foldr insertUp []

/-- The first six counts of a summary: corrected, uncorrectable, first, last, syndrome of the first. -/
def State.scrubCounts (s : State) (c lo n : Nat) : Nat × Nat × Nat × Nat × Nat :=
  (s.suspects c lo n).foldl (fun (acc : Nat × Nat × Nat × Nat × Nat) d =>
    match s.regionAt c d with
    | none => acc
    | some r =>
      match r.word s.mem.dram c d with
      | .clean => acc
      | .fixed _ _ => (acc.1 + 1, acc.2)
      | .bad syn =>
        let a := c * 2 ^ 34 + d
        if acc.2.1 = 0 then (acc.1, 1, a, a, syn) else (acc.1, acc.2.1 + 1, acc.2.2.1, a, acc.2.2.2.2)) (0, 0, 0, 0, 0)

/-- The sixteen words of Table 08.5 for a scrub that examined `n` bytes. -/
def State.scrubSummary (s : State) (c : Nat) (x : Scrub) (n status : Nat) : List Nat :=
  let lo := x.addr % 2 ^ 34
  let k := s.scrubCounts c lo n
  [k.1, k.2.1, lo32 k.2.2.1, hi32 k.2.2.1, lo32 k.2.2.2.1, hi32 k.2.2.2.1, (s.dt - x.start) / us % 2 ^ 32,
   s.examined c lo n % 2 ^ 32, status + 2 ^ 16 * k.2.2.2.2] ++ List.replicate 7 0

/-- The scrub rate a scrub that starts now reads at, MB/s (FAB_SCRUB_CTRL, R17). -/
def State.scrubRate (s : State) : Nat :=
  if 100 ≤ s.fab.scrRate && s.fab.scrRate ≤ 20000 then s.fab.scrRate else 1000

/-- Start a scrub on a free engine (R371); on a frozen channel it stands where it starts (R372). -/
def startScrub (s : State) (c : Nat) (x : Scrub) : State :=
  s.modChan c fun k => { k with scrub := some { x with limit := if k.state = 3 then some s.fabLimit else none } }

/-- The scrub of a SCRUB command. -/
def scrubOf (s : State) (f : Flight) : Scrub :=
  { flight := some f.id, addr := f.cmd.d 10, len := f.cmd.d 12, start := s.dt, host := f.cmd.d 14, rate := s.scrubRate }

/-- A SCRUB waits until its channel's engine is free (R371). -/
def runScrub (s : State) (f : Flight) : State :=
  let c := f.cmd.d 10 / 2 ^ 34
  if (s.chan c).scrub.isSome then s.modChan c fun k => { k with waitScrub := k.waitScrub ++ [f.id] }
  else startScrub s c (scrubOf s f)

/-- A range that R369 allows. -/
def scrubRangeOk (a n : Nat) : Bool :=
  a % 256 = 0 && n % 256 = 0 && 256 ≤ n && n ≤ 17179869184 && a / 2 ^ 34 < 8 && (a + n - 1) / 2 ^ 34 = a / 2 ^ 34

def specScrub : OpSpec :=
  { op := 0x0F06, engine := some 15, isl := fun _ _ => 3, run := runScrub
    malformed := fun _ c => !scrubRangeOk (c.d 10) (c.d 12) || c.d 14 % 64 ≠ 0
    denied := fun s c => !s.mayWrite c.fn 2 }

/-- The next SCRUB that waits for the engine of a channel is checked again (R85) and starts. -/
def nextScrub (s : State) (c : Nat) : List Nat → State
  | [] => s.modChan c fun k => { k with waitScrub := [] }
  | id :: r =>
    match s.flight? id with
    | none => nextScrub s c r
    | some f =>
      match s.verdict specScrub f.cmd with
      | some st => nextScrub (complete (countHeld s f.cmd st) id st noPay) c r
      | none => startScrub (s.modChan c fun k => { k with waitScrub := r }) c (scrubOf s f)

/-- End the scrub of a channel with its summary (R372, R373), and start the next one that waits. -/
def endScrub (s : State) (c n status : Nat) : State :=
  match (s.chan c).scrub with
  | none => s
  | some x =>
    let w := s.scrubSummary c x n status
    let s1 := s.modChan c fun k => { k with scrub := none }
    let s2 := match x.flight with
      | some id =>
        match s1.flight? id with
        | some f => complete (s1.emit (.hostWrite f.cmd.fn x.host w)) id status [w.getD 0 0, w.getD 1 0, w.getD 6 0, 0]
        | none => s1
      | none => s1.modFab fun k => { k with scrBusy := false, scrSum := (w.zipIdx).map fun (e : Nat × Nat) => (e.2, e.1) }
    nextScrub s2 c (s2.chan c).waitScrub

/-- A scrub of a reset island, and those that wait behind it, end without a summary (R30). -/
def dropScrub (s : State) (c : Nat) : State :=
  match (s.chan c).scrub with
  | none => s
  | some x =>
    let s1 := completeAll (s.modChan c fun k => { k with scrub := none, waitScrub := [] }) (s.chan c).waitScrub stIslandReset noPay
    match x.flight with
    | some id => complete s1 id stIslandReset noPay
    | none => s1.modFab fun k => { k with scrBusy := false }

/-- How far a scrub that stopped at an instant had come: a free whole number of words (R372), of which it had time to
read as many bytes as its rate allows (R370). -/
def State.scrubbed (s : State) (c : Nat) (x : Scrub) (stop : Time) : Nat :=
  let most := (stop - x.start) * x.rate / 1000
  let n := s.free % (x.len / 8 + 1) * 8
  if 8 * s.examined c (x.addr % 2 ^ 34) n ≤ most then n else min x.len (most / 8 * 8)

/-- End a scrub that stands on a channel that has frozen or recovers, with MEM_FROZEN (R364, R372). -/
def stopScrub (s : State) (c : Nat) : State :=
  match (s.chan c).scrub with
  | some x =>
    let stop := if x.limit.isSome then max x.start (s.chan c).frozeAt else s.dt
    endScrub s.drawn c (s.scrubbed c x stop) stMemFrozen
  | none => s

/-- The scrub of a channel and those that wait behind it all end with MEM_FROZEN (R364, step 1): the latter have examined
nothing. -/
def stopScrubs (s : State) (c : Nat) : State :=
  ((s.chan c).waitScrub).foldl (fun s _ => endScrub s c 0 stMemFrozen) (stopScrub s c)

/-- SCRUB (R369-R371). -/
def execScrub (t : Time) (c : Cmd) (s : State) : Answer := .next (startCmd (s.at t) specScrub c)

/-- SCRUB_START (R369, R371): a write of FAB_SCRUB_CTRL with START. -/
def execScrubStart (t : Time) (fn : Fin 64) (s : State) : Answer :=
  let s := s.at t
  if fn.val ≥ 2 || !s.reach fn || !s.up 3 then .next s
  else if !s.mayWrite fn 1 then .next s.dropGroup
  else
    let a := s.fab.scrAddr
    let c := a / 2 ^ 34
    if !scrubRangeOk a s.fab.scrLen || (s.chan c).scrub.isSome then .next (s.modFab fun k => { k with scrRef := true })
    else
      .next (startScrub (s.modFab fun k => { k with scrRef := false, scrBusy := true }) c
        { flight := none, addr := a, len := s.fab.scrLen, start := s.dt, host := 0, rate := s.scrubRate })

/-- SCRUB_DONE (R370, R372, R373): the range is examined, or the channel is frozen and the window of the scrub's
request has closed. -/
def execScrubDone (t : Time) (ch : Fin 8) (s : State) : Answer :=
  let s := s.at t
  match (s.chan ch).scrub with
  | none => .next s
  | some x =>
    if !s.up 3 then .next s
    else match x.limit with
      | some l => if s.dt ≥ l then .next (stopScrub s ch) else .next s
      | none =>
        if s.dt ≥ x.start + 8 * s.examined ch (x.addr % 2 ^ 34) x.len * 1000 / x.rate then .next (endScrub s ch x.len stOk)
        else .next s

/-- Recovery starts (R364, steps 1 to 3). -/
def startRecovery (s : State) (c : Nat) : State :=
  let s1 := s.modChan c fun x => { x with state := 4, sweep := true, marks := [] }
  let s2 := if c < 4 then s1.modMem fun m => { m with codeOk := false, codeFill := true } else s1
  clearChan (stopScrubs s2 c) c stMemFrozen

/-! ### The rows of chapter 8 on channels -/

/-- The eye of a lane at one level (chapter 8, Training): length and first tap of the longest run of passing taps, the
lowest of runs of one length. -/
def eyeOf (pass : BitVec 256) : Nat × Nat :=
  ((List.range 256).foldl (fun (a : (Nat × Nat) × Nat) i =>
    let run := if pass.getLsbD i then a.2 + 1 else 0
    (if run > a.1.1 then (run, i + 1 - run) else a.1, run)) ((0, 0), 0)).1

/-- The sweep of a lane over its levels: the level with the widest eye is kept (Table 08.3), the lowest of equals; its
number, its eye and its centre. -/
def sweepLane (full : Bool) (l : List (BitVec 256)) : Nat × Nat × Nat :=
  (((if full then l.take 16 else l.take 1).zipIdx).foldl (fun (b : Nat × Nat × Nat) e =>
    let x := eyeOf e.1
    if x.1 > b.2.1 then (e.2, x.1, x.2 + x.1 / 2) else b) (0, 0, 0))

/-- The sweeps of the four lanes of a channel. -/
def sweeps (full : Bool) (v : Vector (List (BitVec 256)) 4) : List (Nat × Nat × Nat) := v.toList.map (sweepLane full)

/-- The narrowest eye of four lanes and its lane. -/
def narrowest (l : List (Nat × Nat × Nat)) : Nat × Nat :=
  (l.zipIdx).foldl (fun (m : Nat × Nat) (e : (Nat × Nat × Nat) × Nat) => if e.1.2.1 < m.1 then (e.1.2.1, e.2) else m) (257, 0)

/-- A value of each lane as a table. -/
def laneTab (l : List Nat) : Tbl Nat := (l.zipIdx).map fun (e : Nat × Nat) => (e.2, e.1)

/-- The results of training in the registers (Table 08.2, step 5). -/
def trainRegs (x : Chan) (c : Nat) (full : Bool) (r : TrainResult) : Chan :=
  let rd := sweeps full r.rd
  let wr := sweeps full r.wr
  { x with rd := laneTab (rd.map (·.2.2)), wr := laneTab (wr.map (·.2.2)), pendRd := [], pendWr := []
           rdLevel := laneTab (rd.map (·.1)), wrLevel := laneTab (wr.map (·.1))
           rdEye := min (narrowest rd).1 255, rdLane := (narrowest rd).2
           wrEye := min (narrowest wr).1 255, wrLane := (narrowest wr).2
           cap := if c < 4 then 8 else r.capacity % 256, sweep := false }

/-- A channel has trained (R339): step 2, every eye of 32 taps or more and, with firmware helpers, the comparator run. -/
def trainOk (full : Bool) (r : TrainResult) : Bool :=
  r.step2 && (!full || r.comparator) && (narrowest (sweeps full r.rd)).1 ≥ 32 && (narrowest (sweeps full r.wr)).1 ≥ 32

/-- CHANNEL_TRAINING_DONE (R337-R341, R364, R365, R605, R640): the hardware trains in the compact configuration, Watch
firmware in the full one. A channel out of service by R340 meanwhile keeps its own result in MEM_TRAIN_EYE. -/
def trainDone (s : State) (ch : Nat) (r : TrainResult) : State :=
  let x := s.chan ch
  let full := s.boot.memcfg
  if !s.up (memIsl ch) || !x.sweep || (full && !s.flt.coresUp) then s
  else
    let s1 := s.modChan ch fun x => trainRegs x ch full r
    if x.state = 5 then s1
    else if !trainOk full r then (if x.state = 4 then failRecovery s1 ch else updMemReady (failChan s1 ch))
    else if x.state = 4 then refillChan s1 ch
    else updMemReady (fillCode (s1.modChan ch fun x => { x with state := 2 }))

/-- A value moved toward another by at most 2 taps (R342). -/
def moveTap (old new : Nat) : Nat := if old + 2 < new then old + 2 else if new + 2 < old then old - 2 else new

/-- Four delays moved toward new centres. -/
def moveTaps (old : Tbl Nat) (new : Vector (Fin 256) 4) : Tbl Nat :=
  (new.toList.zipIdx).map fun (e : Fin 256 × Nat) => (e.2, moveTap (look old e.2 0) e.1.val)

/-- WCK_OSC_TRACK (R342): the moves wait for the channel's next refresh. -/
def execWckOscTrack (t : Time) (ch : Fin 8) (rd wr : Vector (Fin 256) 4) (s : State) : Answer :=
  let s := s.at t
  let x := s.chan ch
  if !s.up (memIsl ch) || x.state ≠ 2 then .next s
  else .next (s.modChan ch fun x => { x with pendRd := moveTaps x.rd rd, pendWr := moveTaps x.wr wr })

/-- A channel's bank, and its update. -/
def Chan.bank (x : Chan) (b : Nat) : Bank := look x.banks b {}
def State.modBank (s : State) (c b : Nat) (f : Bank → Bank) : State :=
  s.modChan c fun x => { x with banks := put x.banks b (f (x.bank b)) }

/-- A row closes; the history of a kept-open row shifts (R354). -/
def Bank.close (k : Bank) : Bank :=
  { k with row := none, kept := false, reused := false
           hist := if k.kept then (2 * k.hist + b2n k.reused) % 16 else k.hist }

/-- BANK_REFRESH (R342, R355): the refresh of one bank, or its postponement while commands are queued. -/
def execBankRefresh (t : Time) (ch : Fin 8) (bank : Fin 16) (postpone : Bool) (s : State) : Answer :=
  let s := s.at t
  let x := s.chan ch
  if !s.up (memIsl ch) || (x.state ≠ 2 && x.state ≠ 3) then .next s
  else if postpone && (x.bank bank).owed < 8 && (x.bank bank).queue ≠ [] then
    .next (s.modBank ch bank fun k => { k with owed := k.owed + 1 })
  else
    .next ((s.modBank ch bank fun k => { k.close with owed := 0 }).modChan ch fun x => { x with
      rd := if x.pendRd = [] then x.rd else x.pendRd, wr := if x.pendWr = [] then x.wr else x.pendWr
      pendRd := [], pendWr := [] })

/-- The fields of MEM_SCHED_CFG in effect, in ns and commands; 0 acts as 1. -/
def State.ageCap (s : State) : Nat := max (fld s.mem.sched 0 8) 1 * 10
def State.hitCap (s : State) : Nat := max (fld s.mem.sched 8 4) 1
def State.pageIdle (s : State) : Nat := max (fld s.mem.sched 16 8) 1 * 10

/-- PAGE_IDLE_CLOSE (R354). -/
def execPageIdleClose (t : Time) (ch : Fin 8) (bank : Fin 16) (s : State) : Answer :=
  let s := s.at t
  let k := (s.chan ch).bank bank
  if !s.up (memIsl ch) || (s.chan ch).state ≠ 2 || !k.kept || s.dt < k.lastAt + s.pageIdle then .next s
  else .next (s.modBank ch bank Bank.close)

/-! ### The controller cycle (R352, R353, R357-R359) -/

/-- Requests enter their bank queues, at most eight commands each; the others wait at the cache. -/
def fillQueues (c : Nat) (s : State) (e : MemReq × Time) : State :=
  let q := ((s.chan c).bank e.1.bank).queue
  if e.1.addr / 2 ^ 34 ≠ c || q.length ≥ 8 || q.any (·.id = e.1.id) then s
  else s.modBank c e.1.bank fun k => { k with queue := k.queue ++ [e.1] }

/-- The bank selected: the first ready one upward from last_bank + 1. -/
def State.pickBank (s : State) (c ready : Nat) : Option Nat :=
  let x := s.chan c
  ((List.range 16).map fun i => (x.last + 1 + i) % 16).find? fun b => ready.testBit b && (x.bank b).queue ≠ []

/-- The command R352 issues from a bank, and whether it is a row hit. -/
def State.pickReq (s : State) (k : Bank) : Option (MemReq × Bool) :=
  match k.queue with
  | [] => none
  | oldest :: _ =>
    match k.queue.find? fun r => k.row = some r.row with
    | some hit => if s.dt - oldest.issue < s.ageCap && k.hits < s.hitCap then some (hit, true) else some (oldest, false)
    | none => some (oldest, false)

/-- The data path of an issued command: a read corrects and writes back (R358); a write stores its bytes with new check
bytes, a narrow one after a read (R359). The answer is the syndrome of an uncorrectable read. -/
def dataPath (s : State) (c : Nat) (r : MemReq) (q : List MemReq) : State × Option Nat :=
  let d := r.addr % 2 ^ 34
  match s.regionAt c d with
  | none => (s, none)
  | some g =>
    let sameWrite := q.any fun e => e.id ≠ r.id && e.write && e.addr / 8 = r.addr / 8
    let fixedUp : State × Option Nat :=
      if r.write && !narrowReq r then (s, none)
      else match g.word s.mem.dram c d with
        | .clean => (s, none)
        | .bad syn => (s, some syn)
        | .fixed data chk =>
          let s1 := s.modChan c fun x => { x with ecc := satInc x.ecc 0xFFFFFFFF }
          (if sameWrite && !r.write then s1 else s1.modMem fun m => { m with dram := g.store m.dram c d data chk }, none)
    match fixedUp.2 with
    | some syn => (s, some syn)
    | none =>
      if !r.write then fixedUp
      else
        let put1 := fun (m : List Host.Cell) (e : Byte × Nat) =>
          let m1 := writeByte m (r.addr + e.2) e.1
          let o := (r.addr + e.2) % 2 ^ 34
          writeByte m1 (g.chk c o) (BitVec.ofNat 8 (checkByte (leNat (readBytes m1 ((r.addr + e.2) / 8 * 8) 8))))
        (fixedUp.1.modMem fun m => { m with dram := (r.data.zipIdx).foldl put1 m.dram }, none)

/-- The bank after a command has issued (R352-R354). -/
def Bank.issued (k : Bank) (r : MemReq) (hit : Bool) (now : Time) : Bank :=
  let k0 := if hit || !k.kept then k else { k with hist := (2 * k.hist + b2n (k.reused || k.row = some r.row)) % 16, kept := false, reused := false }
  let q := k0.queue.filter (·.id ≠ r.id)
  let k1 := { k0 with queue := q, row := some r.row, hits := if hit then k0.hits + 1 else 0, lastAt := now
                      reused := k0.reused || k0.kept }
  if q.any fun e => e.row = r.row then k1
  else if popCount k1.hist 4 ≥ 2 then (if k1.kept then k1 else { k1 with kept := true, reused := false })
  else { k1.close with row := none }

/-- CONTROLLER_CYCLE (R352, R353, R357-R360): arrivals enter the queues, one command issues. -/
def execControllerCycle (t : Time) (ch : Fin 8) (arrivals : List MemReq) (ready : Fin 65536) (s : State) : Answer :=
  let s := s.at t
  let s1 := s.modMem fun m => { m with reqs := m.reqs ++ arrivals.map fun r => (r, s.fabEnd r.issue) }
  if !s.up (memIsl ch) || (s.chan ch).state ≠ 2 then .next s1
  else
    let s2 := s1.mem.reqs.foldl (fillQueues ch) s1
    match s2.pickBank ch ready.val with
    | none => .next s2
    | some b =>
      let k := (s2.chan ch).bank b
      match s2.pickReq k with
      | none => .next s2
      | some (r, hit) =>
        match dataPath s2 ch r k.queue with
        | (_, some syn) => .next (freezeChan s2 ch r syn)
        | (s3, none) =>
          .next (((s3.modMem fun m => { m with reqs := m.reqs.filter fun (e : MemReq × Time) => e.1.id ≠ r.id }).modBank ch b
            fun k => k.issued r hit s.dt).modChan ch fun x => { x with last := b })

/-! ### Timeouts, freeze, recovery, lost lines -/

/-- CHANNEL_FREEZE (R360, R368): an uncorrectable word meets the controller; its syndrome is a free one. -/
def execChannelFreeze (t : Time) (ch : Fin 8) (r : MemReq) (s : State) : Answer :=
  let s := s.at t
  let x := s.chan ch
  if !s.up (memIsl ch) then .next s
  else if x.state = 2 then
    .next (freezeChan s.drawn ch r (badSyndromes.getD (s.free % badSyndromes.length) 0x03))
  else if x.state = 4 && !x.sweep then .next (failRecovery s ch)
  else .next s

/-- CH_RECOVER (R363, R533): a write of MEM_CH_RECOVER.START. -/
def execChRecover (t : Time) (fn : Fin 64) (ch : Fin 8) (w : Word) (s : State) : Answer :=
  let s := s.at t
  if fn.val ≥ 2 || !s.reach fn || !s.up (memIsl ch) then .next s
  else if !s.mayWrite fn 2 then .next s.dropGroup
  else if !w.getLsbD 0 || (s.chan ch).state ≠ 3 then .next s
  else if s.heldBack fn (0x10 + ch) then .next (countRefused s fn)
  else .next (startRecovery s ch)

/-- AUTO_RECOVER_EXPIRY (R363). -/
def execAutoRecoverExpiry (t : Time) (ch : Fin 8) (s : State) : Answer :=
  let s := s.at t
  match s.img with
  | some im =>
    if s.watchUp && s.up (memIsl ch) && (s.chan ch).state = 3 && im.autoRecoverMs ≠ 0 &&
      s.dt ≥ (s.chan ch).frozeAt + im.autoRecoverMs * ms then .next (startRecovery s ch)
    else .next s
  | none => .next s

/-- The partition whose raw range holds a device address. -/
def State.partAt (s : State) (a : Nat) : Option Nat :=
  (s.partsOn (a / 2 ^ 34)).find? fun p =>
    (s.part p).base * unit64 ≤ a % 2 ^ 34 && a % 2 ^ 34 < (s.part p).base * unit64 + (s.part p).perChan

/-- CACHE_LINE_LOST (R351): an uncorrectable word in the SRAM of a cached line; one without a write is clean. -/
def execCacheLineLost (t : Time) (line : Nat) (s : State) : Answer :=
  let s := s.at t
  if !s.up 3 || line / 2 ^ 27 ≥ 8 then .next s
  else
    let s1 := s.modMem fun m => { m with lines := dropKeys m.lines (· = line) }
    if look s.mem.lines line false then
      let s2 := match s1.partAt (128 * line) with
        | some p => loseParts s1 [p] (fun _ => line / 2 ^ 27) true
        | none => s1
      .next (report s2 3 0x10)
    else .next (report s1 3 0x01)

/-- MP_LOST_CLR (R367). -/
def execMpLostClr (t : Time) (fn : Fin 64) (w : Word) (s : State) : Answer :=
  let s := s.at t
  let p := fld w 0 4
  let x := s.part p
  if fn.val ≥ 2 || !s.reach fn || !s.up 3 then .next s
  else if !s.mayWrite fn 2 then .next s.dropGroup
  else if x.state ≠ 3 then .next s
  else if !(s.portOf x.holder = fn.val || x.creator = fn.val) ||
    !(x.holder = x.creator || (x.holder ≥ 2 && ((s.fnc x.holder).state = 1 || (s.fnc x.holder).state = 4))) then
    .next s.dropGroup
  else if x.filling then .next (s.modPart p fun x => { x with state := 1, after := 2 })
  else if x.unfill then .next (startFill s p 2 none)
  else .next (s.modPart p fun x => { x with state := 2 })

/-- FRZ_QDATA_READ: the dump entry at the index, which then moves on. -/
def execFrzQdataRead (t : Time) (fn : Fin 64) (ch : Fin 8) (s : State) : Answer :=
  let s := s.at t
  let x := s.chan ch
  if fn.val ≥ 2 || !s.reach fn || !s.up (memIsl ch) then .next s
  else .next ((s.modChan ch fun x => { x with qidx := (x.qidx + 1) % 128 }).emit (.readData fn (look x.qdump x.qidx 0)))

/-! ### PARTITION_CREATE (R91-R93, R343) -/

def pcMp (c : Cmd) : Nat := c.f 10 0 4
def pcMask (c : Cmd) : Nat := c.f 10 8 8
def pcSize (c : Cmd) : Nat := c.f 11 0 16

/-- The CH_MASK values of R91. -/
def maskOk (m : Nat) : Bool :=
  [0x01, 0x02, 0x04, 0x08, 0x10, 0x20, 0x40, 0x80, 0x03, 0x0C, 0x30, 0xC0, 0x0F, 0xF0, 0xFF].contains m

/-- `k` units from unit `b` on are free on a channel (R336, R343). -/
def State.unitsFree (s : State) (c b k : Nat) : Bool :=
  s.chanOk c && (c ≥ 4 || 1 ≤ b) && b + k ≤ 16 * (s.chan c).cap &&
  (s.partsOn c).all fun p => b + k ≤ (s.part p).base || (s.part p).base + (s.part p).perChan / unit64 ≤ b

/-- The lowest local base at which a partition fits (R343). -/
def State.lowestBase (s : State) (mask size : Nat) : Option Nat :=
  let cs := maskList mask 8
  (List.range 256).find? fun b => cs.all fun c => s.unitsFree c b (size / cs.length)

def pcMalformed (c : Cmd) : Bool :=
  !c.z 10 4 4 || !c.z 10 16 16 || !c.z 11 16 16 || !c.zw 12 15 ||
  (pcSize c ≠ 0 && (!maskOk (pcMask c) || pcSize c % popCount (pcMask c) 8 ≠ 0))

def pcDenied (s : State) (c : Cmd) : Bool :=
  let x := s.part (pcMp c)
  if pcSize c ≠ 0 then (pcMask c / 16 ≠ 0 && !s.accepts c.fn 17) || x.state ≠ 0
  else x.state ≠ 0 && (x.holder ≥ 2 || x.state = 4 || x.state = 1 || x.creator ≠ c.fn.val)

def pcNores (s : State) (c : Cmd) : Bool :=
  pcSize c ≠ 0 && ((maskList (pcMask c) 8).any (fun k => (s.island (memIsl k)).power ≥ 2) ||
    (s.lowestBase (pcMask c) (pcSize c)).isNone)

/-- Create a partition and fill it, or remove one (R92, R93). -/
def runPartition (s : State) (f : Flight) : State :=
  let c := f.cmd
  let p := pcMp c
  if pcSize c = 0 then
    if (s.part p).state = 0 then complete s f.id stOk noPay
    else complete (s.modPart p fun _ => {}) f.id stOk noPay
  else match s.lowestBase (pcMask c) (pcSize c) with
    | none => complete s f.id stNoResource noPay
    | some b =>
      let x : Part := { state := 1, mask := pcMask c, holder := c.fn.val, creator := c.fn.val, size := pcSize c, base := b
                        order := s.mem.nextOrd }
      startFill ((s.modMem fun m => { m with nextOrd := m.nextOrd + 1 }).modPart p fun _ => x) p 2 (some f.id)

def specPartition : OpSpec :=
  { op := 0x0F05, engine := some 15, malformed := fun _ c => pcMalformed c, denied := pcDenied, nores := pcNores
    isl := fun _ _ => 3, run := runPartition }

/-- PARTITION_CREATE (R91-R93, R343). -/
def execPartitionCreate (t : Time) (c : Cmd) (s : State) : Answer := .next (startCmd (s.at t) specPartition c)

/-- A fill under way ends (R346): its partition, the command that waits, the recovery of its channels. -/
def endFill (s : State) (p : Nat) : State :=
  let x := s.part p
  let s1 := s.modPart p fun x => { x with
    filling := false, flight := none, unfill := false, state := if x.state = 1 then x.after else x.state }
  let s2 := match x.flight with
    | some id => complete s1 id stOk [x.usable / 1048576, 0, 0, 0]
    | none => s1
  x.chans.foldl (fun s c =>
    if (s.chan c).state = 4 && !(s.chan c).sweep && (s.partsOn c).all fun k => !(s.part k).filling then endRecovery s c
    else s) s2

/-- A fill may end: it is under way and every channel of the partition takes writes. -/
def State.fillEnds (s : State) (p : Nat) : Bool :=
  (s.part p).state ≠ 0 && (s.part p).filling && s.up 3 &&
  (s.part p).live.all fun c => s.up (memIsl c) && ((s.chan c).state = 2 || ((s.chan c).state = 4 && !(s.chan c).sweep))

/-! ### Resets of the memory and Fabric islands -/

/-- A channel after the reset of its island keeps its place, capacity and capture registers (R34, R363, R640). -/
def Chan.afterReset (x : Chan) : Chan :=
  { state := x.state, cap := x.cap, freezes := x.freezes, frzAddr := x.frzAddr, frzSyn := x.frzSyn, frzSrc := x.frzSrc
    frzSec := x.frzSec, frzCmd := x.frzCmd, frzBank := x.frzBank, frzQ := x.frzQ, qdump := x.qdump, frozeAt := x.frozeAt }

/-- The reset step of a memory island (R640); MEM_SCHED_CFG, one register of both islands, returns to its reset value
(R34, notes/assumptions/143.md). -/
def resetMemory (s : State) (isl : Nat) : State :=
  let cs := if isl = 4 then [0, 1, 2, 3] else [4, 5, 6, 7]
  let s1 := cs.foldl (fun s c => ((s.chan c).marks).foldl (markedEvent c) s) s
  (cs.foldl (fun s c => (clearChan (dropScrub s c) c stIslandReset).modChan c Chan.afterReset) s1).modMem fun m =>
    { m with sched := 0x00140864 }

/-- The release of a memory island: its channels train (R337, R338, R640), and every partition on them is lost and
filled. CH4-CH7 exist in the full configuration only (R340). -/
def releaseMemory (s : State) (isl : Nat) : State :=
  let cs := if isl = 4 then [0, 1, 2, 3] else if s.boot.memcfg then [4, 5, 6, 7] else []
  let s1 := cs.foldl (fun s c => s.modChan c fun x => { x with state := 1, sweep := true, marks := [] }) s
  let ps := (List.range 16).filter fun p => (s.part p).state ≠ 0 && cs.any fun c => (s.part p).live.contains c
  let low := fun p => (cs.find? fun c => (s.part p).live.contains c).getD 0
  let s2 := ps.foldl (fun s p => startFill s p 3 none) (loseParts s1 ps low false)
  if isl = 4 then losePipelines (s2.modMem fun m => { m with codeOk := false, codeFill := true }) 0 else s2

/-- The memory side of a Fabric reset (R385): which lines were dirty is a free value where the model caches a line
(notes/assumptions/83.md). -/
def resetCache (s : State) : State :=
  let dirty := (s.mem.lines.filter fun (e : Nat × Bool) => e.2).map fun (e : Nat × Bool) => e.1
  let ps := (List.range 16).filter fun p => dirty.any fun l => s.partAt (128 * l) = some p
  let r := ps.foldl (fun (acc : State × List Nat) p =>
    (acc.1.drawn, if acc.1.free % 2 = 1 then acc.2 ++ [p] else acc.2)) (s, [])
  let low := fun p => ((s.part p).chans.head?).getD 0
  let s1 := loseParts (r.1.modMem fun m => { m with lines := [], reqs := [] }) r.2 low true
  (List.range 8).foldl dropScrub (endWaits s1 (fun _ => true) stIslandReset)

/-- A fill of Fabric's fill engine ends where it stands (R30, R385): a partition being created is given up, any other is
lost without a fill (notes/assumptions/144.md). -/
def endFillOf (s : State) (p : Nat) : State :=
  let x := s.part p
  if x.state = 0 || !x.filling then s
  else if x.flight.isSome then completeAll (s.modPart p fun _ => {}) x.flight.toList stIslandReset noPay
  else
    let s1 := s.modPart p fun x => { x with filling := false }
    if x.state = 1 then loseParts s1 [p] (fun _ => (x.live.head?).getD 0) true
    else s1.modPart p fun x => { x with unfill := true }

/-- Every fill ends at a reset of Fabric, and with it the recovery of a channel that waits for its fills. -/
def endFills (s : State) : State :=
  (List.range 8).foldl (fun s c => if (s.chan c).state = 4 && !(s.chan c).sweep then endRecovery s c else s)
    ((List.range 16).foldl endFillOf s)

end Sys2Proof.Machine
end

