-- ==== Sys2Proof/Machine/Fabric.lean ====
section
/-! DEFINITION. Chapter 8, arbiters, snuffers and bandwidth slot tables (R375-R382), and the hardware locks (R383,
R384, R545-R552). -/

namespace Sys2Proof.Machine

/-! ### Arbiters (R375-R377, R380) -/

/-- The priority of a port at a target (FAB_ARB_PRIO). -/
def Target.prio (x : Target) (p : Nat) : Nat := if p < 8 then fld x.prioLo (4 * p) 4 else fld x.prioHi (4 * (p - 8)) 4

/-- The ports in the order a tie is broken: upward from the last owner's index + 1 (R375). -/
def Target.order (x : Target) : List Nat := (List.range 16).map fun i => (x.owner + 1 + i) % 16

/-- The port granted by priority (R375): none when no port requests. -/
def Target.grant (x : Target) (req : Nat) : Option Nat :=
  x.order.foldl (fun b p =>
    if !req.testBit p then b
    else match b with
      | none => some p
      | some q => if x.prio p > x.prio q then some p else some q) none

/-- SLOT_NS in effect, in ns (FAB_SLOT_CTRL). -/
def slotLen (n : Nat) : Nat := 10 * (if 10 ≤ n && n ≤ 100 then n else 25)

/-- The active entry of the slot at hand of table i (R380). -/
def State.slotNow (s : State) (i : Nat) : Nat :=
  let x := s.slotTab i
  let k := (s.dt - x.origin) / slotLen x.nsA % 64
  fld (look x.active (k / 4) 0) (8 * (k % 4)) 8

/-- ARBITRATION_DECISION (R375-R377, R380): `requests` has a bit for each requesting port; ports 4 and 5 are not used. -/
def execArbitrationDecision (t : Time) (target : Fin 6) (requests : Fin 65536) (s : State) : Answer :=
  let s := s.at t
  if !s.up 3 then .next s
  else
    let x := s.target target
    let req := requests.val &&& 0xFFCF
    let e := s.slotNow target.val
    let won := if target.val < 2 && e.testBit 7 && req.testBit (e % 16) then some (e % 16) else x.grant req
    match won with
    | some p => .next (s.modTarget target fun x => { x with owner := p, busy := true, since := s.dt, held := x.limit })
    | none => .next (s.modTarget target fun x => { x with busy := false })

/-- The hold limit of a grant in ns: FAB_SNUFF_LIMIT as it stood at the grant (R17); 0 acts as 80. -/
def Target.hold (x : Target) : Nat := (if x.held = 0 then 80 else x.held) * 100

/-- The port of an initiator ID: the index of its island (chapter 8, Arbiters and snuffers; Table 13.1). -/
def portOf (ini : Nat) : Nat := if ini < 0x40 then 2 else [0, 1, 2, 12, 13, 14, 15, 10, 11, 6, 7, 8, 9].getD (ini - 0x40) 16

/-- The transactions of a port in flight on the channel between its island and Fabric end with ISLAND_RESET (R378). -/
def endPort (s : State) (p : Nat) : State :=
  endWaits (s.modMem fun m => { m with reqs := m.reqs.filter fun (e : MemReq × Time) => portOf e.1.source ≠ p })
    (fun w => decide (((s.flight? w.flight).map fun f => f.isl) = some p)) stIslandReset

/-- SNUFFER_BITE (R378, R379): the owner has held the target for its limit. -/
def execSnufferBite (t : Time) (target : Fin 6) (s : State) : Answer :=
  let s := s.at t
  let x := s.target target
  if !s.up 3 || !x.busy || s.dt < x.since + x.hold then .next s
  else
    let n := satInc x.bites 0xFFFFFFF
    let s1 := s.modTarget target fun x => { x with busy := false, bites := n, port := x.owner }
    .next (sendManagers (report (endPort s1 x.owner) x.owner 0x05) 3 0x0F83 target x.owner n)

/-! ### Slot tables (R380-R382) -/

/-- SLOT_COMMIT (R381): a write of FAB_SLOT_CTRL with SLOT_COMMIT. -/
def execSlotCommit (t : Time) (fn : Fin 64) (i : Fin 2) (s : State) : Answer :=
  let s := s.at t
  if fn.val ≥ 2 || !s.reach fn || !s.up 3 then .next s
  else if !s.mayWrite fn 1 then .next s.dropGroup
  else .next (s.modSlotTab i fun x => { x with commit := true })

/-- SLOT_ROUND_BOUNDARY (R381): a round of 64 slots is over. -/
def execSlotRoundBoundary (t : Time) (i : Fin 2) (s : State) : Answer :=
  let s := s.at t
  let x := s.slotTab i
  if !s.up 3 || s.dt < x.origin + 64 * slotLen x.nsA then .next s
  else .next (s.modSlotTab i fun x => { x with
    rounds := (x.rounds + 1) % 65536, origin := s.dt, commit := false
    active := if x.commit then x.shadow else x.active, nsA := if x.commit then x.slotNs else x.nsA })

/-! ### Hardware locks -/

/-- The world of a lock access: a function's own (R519, R545), an internal agent's as its transaction carries it. -/
def State.lockWorld (s : State) (ini : Nat) (secure : Bool) : Bool := if ini < 64 then (s.fnc ini).secure else secure

/-- The world filter of the locks (R520, R546). -/
def State.lockShut (s : State) (ini : Nat) (secure : Bool) (n : Nat) : Bool := n < 16 && !s.lockWorld ini secure

/-- The value a lock read returns (FAB_HL). -/
def lockWord (l : Lock) (granted : Bool) : Nat :=
  b2n granted + 2 * b2n l.torn + 4 * b2n l.held + 2 ^ 8 * (if l.held then l.owner else 0) +
  2 ^ 16 * b2n (l.held && l.ownerS)

/-- HL_ACQUIRE (R383, R384, R547): a read of FAB_HL. -/
def execHlAcquire (t : Time) (ini : Fin 128) (secure : Bool) (n : Fin 64) (s : State) : Answer :=
  let s := s.at t
  if !s.canRead ini 3 then .next s
  else if s.lockShut ini secure n then .next ((worldViolation s 3 ini).emit (.readData ini 0))
  else
    let l := s.lock n
    if !l.held then
      let l1 := { l with held := true, owner := ini.val, ownerS := s.lockWorld ini secure }
      .next ((s.modLock n fun _ => l1).emit (.readData ini (lockWord l1 true)))
    else .next (s.emit (.readData ini (lockWord l (l.owner = ini.val))))

/-- A write to a lock through the FAB window of a PF without write access to the group is dropped and counted (R55);
the locks on the function page need none. -/
def State.lockBarred (s : State) (ini : Nat) (path : LockPath) : Bool := path = .window && ini < 2 && !s.mayWrite ini 1

/-- HL_RELEASE (R384, R547): a write of RELEASE. -/
def execHlRelease (t : Time) (ini : Fin 128) (path : LockPath) (n : Fin 64) (s : State) : Answer :=
  let s := s.at t
  if !s.canRead ini 3 then .next s
  else if s.lockBarred ini path then .next s.dropGroup
  else if s.lockShut ini (path = .secure) n then .next (worldViolation s 3 ini)
  else if (s.lock n).held && (s.lock n).owner = ini.val then
    .next (s.modLock n fun l => { l with held := false, owner := 0, ownerS := false })
  else .next (s.modFab fun f => { f with lockDrop := f.lockDrop + 1 })

/-- HL_TORN_CLEAR (R550): a write of 1 to TORN. -/
def execHlTornClear (t : Time) (ini : Fin 128) (path : LockPath) (n : Fin 64) (s : State) : Answer :=
  let s := s.at t
  if !s.canRead ini 3 then .next s
  else if s.lockBarred ini path then .next s.dropGroup
  else if s.lockShut ini (path = .secure) n then .next (worldViolation s 3 ini)
  else if (s.lock n).held && (s.lock n).owner = ini.val then .next (s.modLock n fun l => { l with torn := false })
  else .next (s.modFab fun f => { f with lockDrop := f.lockDrop + 1 })

/-- Free every lock of the owners a test picks, with TORN set, and tell the managers (R548, R552). -/
def tearLocks (s : State) (p : Nat → Bool) (cause : Nat) : State :=
  (List.range 64).foldl (fun s n =>
    let l := s.lock n
    if l.held && p l.owner then
      sendManagers (s.modLock n fun _ => { torn := true }) 3 9 n l.owner cause
    else s) s

end Sys2Proof.Machine
end

