-- ==== Sys2Proof/Machine/Media.lean ====
section
/-! DEFINITION. Chapter 9: camera receivers and bindings (R387-R398), decoder and encoder sessions (R399-R408). -/

namespace Sys2Proof.Machine

/-! ### Camera receivers -/

/-- The port listens: a binding of it is in force or recorded. -/
def Csi.active (x : Csi) : Bool := x.mem.isSome || x.ring.isSome || x.pendMem.isSome || x.pendRing.isSome

/-- The image data types of Table 09.1. -/
def imageType (d : Nat) : Bool := d = 0x1E || d = 0x1F || d = 0x24

/-- The virtual channels a port takes: that of the binding in force, and between frames that of a recorded one, whose
frame start comes next (R387, R395). -/
def Csi.hears (x : Csi) (vc : Nat) : Bool :=
  let next := fun (o : Option (Option Bind)) => ((o.bind id).map (·.vc)) = some vc
  ((x.mem.isSome || x.ring.isSome) && vc = x.vc) || (!x.inFrame && (next x.pendMem || next x.pendRing))

/-- CSI_PACKET (R388): the header check of a packet; frame and line packets follow as commands of their own. -/
def execCsiPacket (t : Time) (port : Fin 8) (hd : CsiHeader) (s : State) : Answer :=
  let s := s.at t
  let x := s.csi port
  if !s.up 12 || !x.active then .next s
  else if hd.eccDouble then .next (s.modCsi port fun x => { x with ecc := satInc x.ecc 0xFF })
  else
    let s1 := if hd.eccSingle then countCorrected (s.modCsi port fun x => { x with corr := x.corr + 1 }) 12 else s
    let short := hd.dtype.val < 4
    if !x.hears hd.vc || !(short || (imageType hd.dtype.val && (!x.inFrame || hd.dtype.val = x.dtype))) then
      .next (s1.modCsi port fun x => { x with other := satInc x.other 0xFF })
    else .next s1

/-- A binding ends at the next frame start when its function has left ACTIVE and QUIESCING or lost the port (R398). -/
def State.bindEnds (s : State) (port : Nat) (b : Bind) : Bool :=
  !((s.fnc b.fn).state = 2 || (s.fnc b.fn).state = 3) || !(s.fnc b.fn).grant.csiMask.testBit port

/-- CSI_SIGNAL to the functions that hold a binding of a port (R409, Table 09.5). -/
def signalEvent (s : State) (port : Nat) (x : Csi) (lost frames : Nat) : State :=
  ([x.mem, x.ring].filterMap fun o => o.map (·.fn)).eraseDups.foldl (fun s fn => sendEvent s 12 fn 0x0382 port lost frames) s

/-- OUT_FMT suits the data type of the port (R392). -/
def fmtSuits (dtype fmt : Nat) : Bool := if dtype = 0x24 then fmt = 1 else fmt ≠ 1

/-- A binding's first frame has a type that does not suit it (R393). -/
def misfit (dtype : Nat) (b : Option Bind) : Bool :=
  match b with
  | some b => b.frame = 0 && imageType dtype && !fmtSuits dtype b.fmt
  | none => false

/-- The bindings in force from this frame start on (R395, R398). -/
def rebind (s : State) (port : Nat) (x : Csi) : Csi :=
  let live := fun (o : Option Bind) => o.filter fun b => !s.bindEnds port b
  let mem := live (x.pendMem.getD x.mem)
  let ring := live (x.pendRing.getD x.ring)
  let newest := if x.pendRing.isSome then ring else if x.pendMem.isSome then mem else none
  { x with
    mem := mem, ring := ring, pendMem := none, pendRing := none
    lanes := (newest.map (·.lanes)).getD x.lanes, vc := (newest.map (·.vc)).getD x.vc }

/-- CSI_FRAME_START (R390, R393, R395, R398, Table 09.5). -/
def execCsiFrameStart (t : Time) (port : Fin 8) (dtype : Fin 64) (s : State) : Answer :=
  let s := s.at t
  let x := s.csi port
  if !s.up 12 || !x.active then .next s
  else
    let y := rebind s port x
    let bad := misfit dtype.val y.mem || misfit dtype.val y.ring
    let n := (x.frames + 1) % 65536
    let s1 := s.modCsi port fun _ => { y with
      signal := true, dtype := dtype.val, frames := n, size := if bad then satInc y.size 0xFF else y.size
      prevDt := x.startDt, startDt := s.stamp 12, starts := x.starts + 1, line := 0, inFrame := true }
    .next (camReturns (if x.signal then s1 else signalEvent s1 port y 0 n) port)

/-- The pixels of a received line, in the byte order of the CSI-2 data types (notes/assumptions/91.md): Y or B, Cb or G,
Cr or R, at 10 bits for the 10-bit type and 8 bits otherwise. -/
def csiPixels (dtype : Nat) (l : List Byte) : List (Nat × Nat × Nat) :=
  let b := fun i => (l.getD i 0).toNat
  if dtype = 0x24 then (List.range (l.length / 3)).map fun i => (b (3 * i), b (3 * i + 1), b (3 * i + 2))
  else if dtype = 0x1F then
    (List.range (l.length / 5)).flatMap fun i =>
      let c := fun k => 4 * b (5 * i + k) + bits (b (5 * i + 4)) (2 * k) 2
      [(c 1, c 0, c 2), (c 3, c 0, c 2)]
  else
    (List.range (l.length / 4)).flatMap fun i => [(b (4 * i + 1), b (4 * i), b (4 * i + 2)), (b (4 * i + 3), b (4 * i), b (4 * i + 2))]

/-- A line at the bound width: cut, or padded with its last pixel (R391). -/
def fitLine (w : Nat) (l : List (Nat × Nat × Nat)) : List (Nat × Nat × Nat) :=
  (List.range w).map fun i => l.getD (min i (l.length - 1)) (0, 0, 0)

/-- Pixels converted to OUT_FMT (R392): `ten` when they are 10 bits wide. -/
def outBytes (fmt : Nat) (ten : Bool) (l : List (Nat × Nat × Nat)) : List Byte :=
  let n := l.length
  let px := fun i => l.getD i (0, 0, 0)
  (List.range n).flatMap fun i =>
    let p := px i
    match fmt with
    | 0 =>
      let eight := fun v => if ten then v / 4 else v
      let c := px (i / 2 * 2)
      leBytes 1 (eight p.1) ++ leBytes 1 (eight (if i % 2 = 0 then c.2.1 else c.2.2))
    | 1 => leBytes 1 p.1 ++ leBytes 1 p.2.1 ++ leBytes 1 p.2.2
    | _ =>
      let wide := fun v => if ten then v else widen 8 v
      let q := if i % 2 = 0 || i + 1 ≥ n then p else px (i + 1)
      leBytes 4 (roundDiv (wide p.2.2 + wide q.2.2) 2 + 2 ^ 10 * wide p.1 + 2 ^ 20 * roundDiv (wide p.2.1 + wide q.2.1) 2 + 2 ^ 30 * 3)

/-- The bytes of a line for a binding. -/
def bindLine (x : Csi) (b : Bind) (l : List Byte) : List Byte :=
  outBytes b.fmt (x.dtype = 0x1F) (fitLine b.width (csiPixels x.dtype l))

/-- A line goes to the memory target (R391, R396). -/
def lineToMem (s : State) (x : Csi) (l : List Byte) : State :=
  match x.mem with
  | some b =>
    if x.line < b.height && fmtSuits x.dtype b.fmt then
      memWrite s b.fn (b.base + b.frame % b.bufs * b.pitch * b.height + x.line * b.pitch) (bindLine x b l)
    else s
  | none => s

/-- A line goes to the ring target (R397): it is complete there within 0.4 us, at a free instant. -/
def lineToRing (s : State) (x : Csi) (l : List Byte) : State :=
  match x.ring with
  | some b =>
    if x.line < b.height && fmtSuits x.dtype b.fmt then
      let r : RingLine := { src := x.line, frame := x.startDt, done := s.dt + s.free % 401, bytes := bindLine x b l }
      ({ s with media := { s.media with rings := put s.media.rings (64 * b.ring + x.line % 64) r } }).drawn
    else s
  | none => s

/-- CSI_LINE (R389, R391, R392, R396, R397). -/
def execCsiLine (t : Time) (port : Fin 8) (crcOk : Bool) (pixels : List Byte) (s : State) : Answer :=
  let s := s.at t
  let x := s.csi port
  if !s.up 12 || !x.inFrame || !imageType x.dtype then .next s
  else
    let s1 := s.modCsi port fun x => { x with line := x.line + 1, crc := if crcOk then x.crc else satInc x.crc 0xFF }
    if crcOk then .next (lineToRing (lineToMem s1 x pixels) x pixels) else .next s1

/-- CSI_FRAME_DONE (R391, R396): the end of a frame. -/
def execCsiFrameDone (t : Time) (port : Fin 8) (s : State) : Answer :=
  let s := s.at t
  let x := s.csi port
  if !s.up 12 || !x.inFrame then .next s
  else
    let wrong := fun (o : Option Bind) => match o with
      | some b => x.line ≠ b.height
      | none => false
    let next := fun (o : Option Bind) => o.map fun b => { b with frame := b.frame + 1 }
    let s1 := s.modCsi port fun x => { x with
      inFrame := false, mem := next x.mem, ring := next x.ring
      size := if wrong x.mem || wrong x.ring then satInc x.size 0xFF else x.size }
    match x.mem with
    | some b =>
      match b.fence with
      | some n => .next (signalFence s1 b.fn n (b.frame + 1))
      | none => .next s1
    | none => .next s1

/-- CSI_SIGNAL_LOST: no frame start for 200 ms (chapter 9, Events). -/
def execCsiSignalLost (t : Time) (port : Fin 8) (s : State) : Answer :=
  let s := s.at t
  let x := s.csi port
  if !s.up 12 || !x.signal || s.dt < x.startDt + 200 * ms then .next s
  else .next (signalEvent (s.modCsi port fun x => { x with signal := false }) port x 1 x.frames)

/-! ### CAMERA_BIND (Table 09.2) -/

def cbPort (c : Cmd) : Nat := c.f 10 0 3
def cbRing (c : Cmd) : Bool := c.b 10 3
def cbEnable (c : Cmd) : Bool := c.b 10 4
def cbPixel (c : Cmd) : Nat := [2, 3, 4].getD (c.f 10 12 2) 4

/-- The binding a command describes. -/
def bindOf (c : Cmd) : Bind :=
  { fn := c.fn.val, lanes := c.f 10 5 3, vc := c.f 10 8 4, fmt := c.f 10 12 2, ring := c.f 10 14 2, bufs := c.f 10 16 4
    width := c.f 11 0 16, height := c.f 11 16 16, base := c.d 12, pitch := c.f 14 0 20
    fence := if c.b 15 31 then some (c.f 15 0 20) else none }

/-- R393. -/
def cbMalformed (s : State) (c : Cmd) : Bool :=
  let b := bindOf c
  let x := s.csi (cbPort c)
  !c.z 10 20 12 || !c.z 14 20 12 || !c.z 15 20 11 ||
  (cbEnable c &&
    (!(b.lanes = 1 || b.lanes = 2 || b.lanes = 4) || b.fmt > 2 || b.width < 16 || b.width > 4096 || b.height < 16 ||
      b.height > 4320 || (x.signal && imageType x.dtype && !fmtSuits x.dtype b.fmt) ||
      (if cbRing c then b.width * cbPixel c > 8192
       else b.bufs < 2 || b.bufs > 8 || b.base % 256 ≠ 0 || b.pitch % 64 ≠ 0 || b.pitch < b.width * cbPixel c)))

/-- R394. -/
def cbDenied (s : State) (c : Cmd) : Bool :=
  let g := (s.fnc c.fn).grant
  !g.csiMask.testBit (cbPort c) || (cbRing c && !s.accepts c.fn 8) ||
  (!cbRing c && cbEnable c && c.b 15 31 && !(c.f 15 0 20 < g.fences))

/-- The ring is bound to another port, in force or recorded (R394). -/
def cbNores (s : State) (c : Cmd) : Bool :=
  cbRing c && cbEnable c && (List.range 8).any fun p =>
    p ≠ cbPort c && (((s.csi p).pendRing.getD (s.csi p).ring).map (·.ring)) = some (c.f 10 14 2)

/-- A binding is recorded and completes (R395). -/
def runBind (s : State) (f : Flight) : State :=
  let c := f.cmd
  let b := if cbEnable c then some (bindOf c) else none
  complete (s.modCsi (cbPort c) fun x => if cbRing c then { x with pendRing := some b } else { x with pendMem := some b })
    f.id stOk noPay

def specCameraBind : OpSpec :=
  { op := 0x0302, engine := some 3, malformed := cbMalformed, denied := cbDenied, nores := cbNores
    isl := fun _ _ => 12, run := runBind }

/-- CAMERA_BIND (R393-R395). -/
def execCameraBind (t : Time) (c : Cmd) (s : State) : Answer := .next (startCmd (s.at t) specCameraBind c)

/-! ### Codec sessions -/

/-- The key of a session: encode sessions stand 16 above decode sessions of the same number. -/
def sessKey (fn n : Nat) (enc : Bool) : Nat := 32 * fn + n + 16 * b2n enc

def State.session (s : State) (k : Nat) : Option Session := (s.media.sessions.find? fun e => e.1 = k).map fun e => e.2
def State.setSession (s : State) (k : Nat) (x : Session) : State :=
  { s with media := { s.media with sessions := put s.media.sessions k x } }
def State.closeSession (s : State) (k : Nat) : State :=
  { s with media := { s.media with sessions := dropKeys s.media.sessions (· = k) } }

/-- Pixels a second over the open sessions of one kind, but for one key (R400, R404). -/
def State.codecLoad (s : State) (enc : Bool) (but : Nat) : Nat :=
  (s.media.sessions.filter fun (e : Nat × Session) => e.2.enc = enc && e.1 ≠ but).foldl
    (fun n (e : Nat × Session) => n + e.2.w * e.2.h * e.2.fps) 0

/-- Sessions a function has open, but for one key. -/
def State.openSessions (s : State) (fn but : Nat) : Nat :=
  (s.media.sessions.filter fun (e : Nat × Session) => e.1 / 32 = fn && e.1 ≠ but).length

def mdInit (c : Cmd) : Bool := c.b 10 4
def mdEnd (c : Cmd) : Bool := c.b 10 5

/-- Rf and Os of chapter 9, and the area an INIT needs (R401). -/
def refBytes (w h : Nat) (ten : Bool) : Nat := ceilDiv w 64 * 64 * (ceilDiv h 64 * 64) * (if ten then 6 else 3) / 2
def pictureBytes (w h fmt : Nat) : Nat := if fmt = 0 then w * h * 2 else if fmt = 1 then w * h * 4 else ceilDiv (w * h * 4 * 260) 256
def slotBytes (w h fmt : Nat) : Nat := ceilDiv (pictureBytes w h fmt) 65536 * 65536
def areaBytes (w h fmt slots : Nat) (ten : Bool) : Nat := 17 * refBytes w h ten + slots * slotBytes w h fmt + 1048576

def mdMalformed (s : State) (c : Cmd) : Bool :=
  let w := c.f 18 0 16
  let h := c.f 18 16 16
  !c.z 10 11 21 || c.f 10 7 2 = 3 || !c.z 13 24 8 || !c.z 14 24 8 || c.w 15 ≠ 0 || !c.zw 21 31 ||
  (c.f 13 0 24 = 0 && !mdEnd c) ||
  (if mdInit c then
    c.d 16 % 65536 ≠ 0 || w = 0 || w > 4096 || h = 0 || h > 2304 || c.f 19 0 5 < 4 || c.f 19 0 5 > 24 || !c.z 19 6 2 ||
    !c.z 19 16 16 || c.f 19 8 8 = 0 || c.f 19 8 8 > 144 ||
    c.w 20 * 1024 < areaBytes w h (c.f 10 7 2) (c.f 19 0 5) (c.b 19 5) || !s.inMem c.fn (c.d 16) (c.w 20 * 1024)
   else (s.session (sessKey c.fn (c.f 10 0 4) false)).isNone)

/-- CODEC sessions beyond the grant, or BCS output without F_BCS_WRITE (R66). -/
def mdDenied (s : State) (c : Cmd) : Bool :=
  (mdInit c && s.openSessions c.fn (sessKey c.fn (c.f 10 0 4) false) ≥ (s.fnc c.fn).grant.codec) ||
  (c.f 10 7 2 = 2 && !s.accepts c.fn 4)

def mdNores (s : State) (c : Cmd) : Bool :=
  mdInit c && s.codecLoad false (sessKey c.fn (c.f 10 0 4) false) + c.f 18 0 16 * c.f 18 16 16 * c.f 19 8 8 > 1990656000

/-- A picture into the lowest free slot, with its event (R402, R403). -/
def putPicture (s : State) (fn n concealed : Nat) : State :=
  let k := sessKey fn n false
  match s.session k with
  | none => s
  | some x =>
    match x.free with
    | [] => s
    | slot :: r =>
      let at_ := x.area + 17 * refBytes x.w x.h x.depth10 + slot * slotBytes x.w x.h x.fmt
      let px := (List.range (pictureBytes x.w x.h x.fmt)).map (Config.pictureByte s.draws)
      let s1 := memWrite s.drawn fn at_ px
      let s2 := s1.setSession k { x with free := r, out := x.out + 1, concealed := x.concealed + b2n (concealed ≠ 0) }
      sendEvent s2 12 fn 0x0380 (n + 2 ^ 8 * slot + 2 ^ 16 * b2n (concealed ≠ 0)) (x.out % 2 ^ 32) (concealed % 2 ^ 32)

/-- Output slots come back, and decodes that waited for one complete (R402). -/
def releaseSlots (s : State) (fn n mask : Nat) : State :=
  let k := sessKey fn n false
  match s.session k with
  | none => s
  | some x =>
    let free := (List.range x.slots).filter fun i => mask.testBit i || x.free.contains i
    let s1 := s.setSession k { x with free := free, waiting := if free = [] then x.waiting else [] }
    if free = [] then s1 else completeAll s1 x.waiting stOk noPay

/-- A decode that has its access unit runs: it waits for a free slot, and END flushes a free number of pictures. -/
def decodeAu (s : State) (f : Flight) : State :=
  let c := f.cmd
  let fn := c.fn.val
  let n := c.f 10 0 4
  let k := sessKey fn n false
  let s1 := releaseSlots s fn n (c.f 14 0 24)
  match s1.session k with
  | none => complete s1 f.id stMalformed noPay
  | some x =>
    if mdEnd c then
      let m := s1.free % (x.free.length + 1)
      let s2 := (List.range m).foldl (fun s _ => putPicture s.drawn fn n (s.free % 2 * (s.free % 2 ^ 32))) s1.drawn
      complete (completeAll (s2.closeSession k) x.waiting stOk noPay) f.id stOk noPay
    else if x.free = [] then (s1.setSession k { x with waiting := x.waiting ++ [f.id] }).modFlight f.id fun f => { f with holds := true }
    else complete s1 f.id stOk noPay

def runDecode (s : State) (f : Flight) : State :=
  let c := f.cmd
  withMem s f [(c.d 11, c.f 13 0 24)] [] fun s =>
    decodeAu (if mdInit c then s.setSession (sessKey c.fn (c.f 10 0 4) false)
        { enc := false, codec := c.f 10 6 1, w := c.f 18 0 16, h := c.f 18 16 16, fps := c.f 19 8 8, area := c.d 16
          slots := c.f 19 0 5, free := List.range (c.f 19 0 5), fmt := c.f 10 7 2, depth10 := c.b 19 5 }
      else s) f

def specDecode : OpSpec :=
  { op := 0x0300, engine := some 3, chain := fun _ => 2, malformed := mdMalformed, denied := mdDenied, nores := mdNores
    isl := fun _ _ => 12, run := runDecode }

/-- MEDIA_DECODE (R399-R403). -/
def execMediaDecode (t : Time) (c : Cmd) (s : State) : Answer := .next (startCmd (s.at t) specDecode c)

/-- MEDIA_PICTURE (R402, R403): the output process releases a picture, with `concealed` blocks concealed. -/
def execMediaPicture (t : Time) (fn : Fin 64) (session : Fin 16) (concealed : Nat) (s : State) : Answer :=
  let s := s.at t
  if s.up 12 then .next (putPicture s fn session concealed) else .next s

/-! ### The encoder -/

def meCamera (c : Cmd) : Bool := c.b 10 8

def meMalformed (s : State) (c : Cmd) : Bool :=
  let w := c.f 18 0 16
  let h := c.f 18 16 16
  !c.z 10 12 20 || !c.z 13 20 12 || !c.zw 14 15 || !c.zw 25 31 ||
  (!meCamera c && !mdEnd c && (c.d 11 % 256 ≠ 0 || c.f 13 0 20 % 64 ≠ 0)) ||
  (if mdInit c then
    w = 0 || w > 4096 || h = 0 || h > 4096 || c.f 19 0 8 = 0 || c.f 19 8 4 = 0 || c.f 19 8 4 > 8 || !c.z 19 13 19 ||
    c.w 20 < 100 || c.w 20 > 100000 || c.w 23 = 0 || !c.z 24 8 24 || !s.inMem c.fn (c.d 16) (4 * (w * h * 3 / 2) + 1048576)
   else (s.session (sessKey c.fn (c.f 10 0 4) true)).isNone)

/-- The port holds a binding of either target, in force or recorded (R395, R406). -/
def Csi.bound (x : Csi) : Bool := (x.pendMem.getD x.mem).isSome || (x.pendRing.getD x.ring).isSome

/-- CODEC sessions beyond the grant, or a camera source without a binding (R406). -/
def meDenied (s : State) (c : Cmd) : Bool :=
  mdInit c && (s.openSessions c.fn (sessKey c.fn (c.f 10 0 4) true) ≥ (s.fnc c.fn).grant.codec ||
    (meCamera c && !(s.csi (c.f 10 9 3)).bound))

def meNores (s : State) (c : Cmd) : Bool :=
  mdInit c && s.codecLoad true (sessKey c.fn (c.f 10 0 4) true) + c.f 18 0 16 * c.f 18 16 16 * c.f 19 0 8 > 995328000

/-- The session an INIT opens. -/
def encOf (c : Cmd) : Session :=
  { enc := true, codec := c.f 10 6 1, w := c.f 18 0 16, h := c.f 18 16 16, fps := c.f 19 0 8, area := c.d 16
    camera := if meCamera c then some (c.f 10 9 3) else none, ring := c.d 21, ringKib := c.w 23, rows := c.f 19 8 4
    cbr := c.b 19 12, kbps := c.w 20, irPeriod := c.f 24 0 8, idrDue := true }

def runEncode (s : State) (f : Flight) : State :=
  let c := f.cmd
  let k := sessKey c.fn (c.f 10 0 4) true
  let go := fun s : State =>
    let s1 := if mdInit c then s.setSession k (encOf c) else s
    match s1.session k with
    | none => complete s1 f.id stMalformed noPay
    | some x =>
      let s2 := if mdEnd c then s1.closeSession k else s1.setSession k { x with idrDue := x.idrDue || c.b 10 7 }
      complete s2 f.id stOk noPay
  if meCamera c || mdEnd c then go s
  else
    let h := if mdInit c then c.f 18 16 16 else ((s.session k).map (·.h)).getD 0
    withMem s f [(c.d 11, c.f 13 0 20 * h)] [] go

def specEncode : OpSpec :=
  { op := 0x0301, engine := some 3, chain := fun _ => 2, malformed := meMalformed, denied := meDenied, nores := meNores
    isl := fun _ _ => 12, run := runEncode }

/-- MEDIA_ENCODE (R404-R407). -/
def execMediaEncode (t : Time) (c : Cmd) (s : State) : Answer := .next (startCmd (s.at t) specEncode c)

/-- Slices of a picture of a session: a slice covers SLICE_ROWS rows of 32 lines for HEVC, 16 for AVC (R405). -/
def Session.slices (x : Session) : Nat := ceilDiv x.h (max (x.rows * (if x.codec = 0 then 32 else 16)) 1)

/-- With CBR a picture stays within BITRATE / FPS and 10 % (R407). -/
def Session.fits (x : Session) (n : Nat) : Bool := !x.cbr || (x.coded + n) * 8 * x.fps * 10 ≤ x.kbps * 1000 * 11

/-- Bytes go into a bitstream ring of `n` bytes at a position, wrapping at its end (R405). -/
def ringPut (s : State) (fn base n : Nat) : Nat → Nat → List Byte → State
  | 0, _, _ => s
  | fuel + 1, pos, l =>
    if l = [] || n = 0 then s
    else ringPut (memWrite s fn (base + pos) (l.take (n - pos))) fn base n fuel 0 (l.drop (n - pos))

/-- MEDIA_SLICE (R405-R407): a slice's NAL units go into the ring, wrapping at its end. An IDR slice is accepted under
intra-refresh only while INIT or FORCE_IDR asks for one, and under CBR only what keeps the picture within its size. -/
def execMediaSlice (t : Time) (fn : Fin 64) (session : Fin 16) (idr : Bool) (nal : List Byte) (s : State) : Answer :=
  let s := s.at t
  let k := sessKey fn session true
  match s.session k with
  | none => .next s
  | some x =>
    if !s.up 12 || (idr && x.irPeriod ≠ 0 && !x.idrDue) || !x.fits nal.length then .next s
    else
      let n := x.ringKib * 1024
      let s1 := ringPut s fn x.ring n (nal.length / max n 1 + 2) x.ringPos nal
      let last := x.slice + 1 ≥ x.slices
      let s2 := s1.setSession k { x with
        ringPos := (x.ringPos + nal.length) % n, idrDue := x.idrDue && idr
        slice := if last then 0 else x.slice + 1, coded := if last then 0 else x.coded + nal.length }
      .next (sendEvent s2 12 fn 0x0381 (session + 2 ^ 16 * b2n idr) (x.ringPos % 2 ^ 32) (nal.length % 2 ^ 32))

/-- Every session of a function closes. -/
def closeSessions (s : State) (fn : Nat) : State :=
  { s with media := { s.media with sessions := dropKeys s.media.sessions fun k => k / 32 = fn } }

/-- The reset step of Media (R34, chapter 9): no binding, no session and no count survives. -/
def resetMedia (s : State) : State :=
  { s with media := { s.media with
      sessions := []
      csi := s.media.csi.map fun (e : Nat × Csi) => (e.1, { ({} : Csi) with starts := e.2.starts }) } }

end Sys2Proof.Machine
end

