-- ==== Sys2Proof/Machine/Network.lean ====
section
/-! DEFINITION. Chapter 10: the switch, stream filters and recovery functions (R410-R412, R423-R427), gPTP (R414,
R415, R36-R38), gate control lists (R417-R422), MACsec (R428, R429), host queues (R430-R432), CAN FD (R433-R436). -/

namespace Sys2Proof.Machine

/-- A frame drop counted at an external port (NET_PORT_STAT.DROPS). -/
def dropFrame (s : State) (p : Nat) : State :=
  if p < 8 then s.modEport p fun x => { x with drops := satInc x.drops 0xFFFF } else s

/-! ### Recovery functions (R424) -/

/-- The vector algorithm of IEEE 802.1CB (notes/assumptions/97.md): whether a sequence number is accepted, and the
function's new state, for a history of `len`. -/
def recover (r : Recov) (len seq : Nat) : Bool × Recov :=
  match r.last with
  | none => (true, { last := some seq, hist := [seq] })
  | some l =>
    let ahead := (seq + 65536 - l) % 65536
    let back := (l + 65536 - seq) % 65536
    if back < len then
      (if r.hist.contains seq then (false, r) else (true, { r with hist := seq :: r.hist }))
    else if ahead < len then
      (true, { last := some seq, hist := seq :: r.hist.filter fun k => (seq + 65536 - k) % 65536 < len })
    else (false, r)

/-- The history length of a recovery function, 1-32. -/
def State.histLen (s : State) (i : Nat) : Nat := min 32 (max 1 (look s.net.hist i 1))

/-! ### Gate control lists -/

/-- Entry i of a list, and its interval in ns. -/
def gclEntry (e : Tbl Word) (i : Nat) : Word := look e i 0x000001FF
def gclNs (e : Tbl Word) (i : Nat) : Nat := fld (gclEntry e i) 8 24 * 8

/-- The administrative values are in range (R419). -/
def Gcl.ok (x : Gcl) : Bool :=
  1 ≤ x.len && x.len ≤ 256 && 1000 ≤ x.cycle && x.cycle ≤ 1000000000 && (List.range x.len).all fun i => gclNs x.entries i ≠ 0

/-- The smallest base + n x cycle at or after an instant (R419). -/
def nextCycle (base cycle now : Nat) : Nat := if now ≤ base then base else base + ceilDiv (now - base) cycle * cycle

/-- The entry in force at an offset of the cycle (R417). -/
def entryNow (e : Tbl Word) (len pos : Nat) : Nat :=
  ((List.range len).foldl (fun (acc : Nat × Nat) i =>
    (acc.1 + gclNs e i, if acc.1 ≤ pos then i else acc.2)) (0, 0)).2

/-- The gates as the operational list drives them at this instant (R417, R422). -/
def driveGates (s : State) (p : Nat) : State :=
  s.modGcl p fun x =>
    if !x.oper.enable then { x with cur := 0, gates := 0xFF }
    else
      let i := entryNow x.oper.entries x.oper.len ((s.dt - x.oper.origin) % max x.oper.cycle 1)
      { x with cur := i, gates := fld (gclEntry x.oper.entries i) 0 8 }

/-- The takeover instant of a pending list (R420, R422). -/
def Gcl.takeover (x : Gcl) : Time := if x.oper.enable then nextCycle x.oper.origin x.oper.cycle x.change else x.change

/-- The list that drives a port at an instant: a pending list from its takeover on (R420). -/
def Gcl.listAt (x : Gcl) (t : Time) : GateList :=
  if x.pending && t ≥ x.takeover then
    { enable := x.enable, len := x.len, cycle := x.cycle, entries := x.entries, preempt := x.preempt, origin := x.takeover }
  else x.oper

/-- The windows of a list within one cycle: start, end, gates (R417). -/
def GateList.windows (g : GateList) : List (Nat × Nat × Nat) :=
  let bounds := (List.range (g.len + 1)).map fun i => min g.cycle ((List.range i).foldl (fun n k => n + gclNs g.entries k) 0)
  (List.range g.len).map fun i =>
    (bounds.getD i 0, if i + 1 = g.len then g.cycle else bounds.getD (i + 1) 0, fld (gclEntry g.entries i) 0 8)

/-- How long from an instant on a list holds gate q open: none where it never closes (R417, R422). -/
def GateList.openFor (g : GateList) (q : Nat) (t : Time) : Option Nat :=
  if !g.enable then none
  else
    let pos := (t - g.origin) % max g.cycle 1
    ((g.windows.filter fun w => w.1 < w.2.1 && !w.2.2.testBit q).map fun w =>
      if pos < w.2.1 then w.1 - pos else w.1 + g.cycle - pos).min?

/-- How long from an instant on gate q of a port stays open, over a pending takeover too. -/
def Gcl.openFor (x : Gcl) (q : Nat) (t : Time) : Option Nat :=
  let now := (x.listAt t).openFor q t
  if !x.pending || t ≥ x.takeover then now
  else
    let rest := x.takeover - t
    match now with
    | some n => if n < rest then some n else ((x.listAt x.takeover).openFor q x.takeover).map (rest + ·)
    | none => ((x.listAt x.takeover).openFor q x.takeover).map (rest + ·)

/-! ### Egress of the external ports (R413, R418) -/

/-- Twice the rate of a port in Gbit/s (NET_PORT_STAT.RATE). -/
def rate2 (r : Nat) : Nat := [0, 2, 5, 10, 20].getD r 0

/-- Nanoseconds that n bytes take on the line, and the bytes that fit in a time. The overhead of a frame is that of IEEE
802.3 and 802.1AE (notes/assumptions/167.md, PRESUMED): 8 bytes before it, 12 idle bytes after it, 32 with MACsec. -/
def lineNs (r n : Nat) : Nat := ceilDiv (16 * n) (max (rate2 r) 1)
def lineBytes (r ns : Nat) : Nat := ns * rate2 r / 16

/-- How a frame may start at an instant (R418): none while its gate is closed or its last bit would leave too late; else
the bytes that leave now, all of them unless it is to be preempted at the close of its window. -/
def startsWith (s : State) (p : Nat) (f : EFrame) (t : Time) : Option Nat :=
  let x := s.eport p
  let extra := 8 + (if x.macsec then 32 else 0)
  let rest := f.len - f.sent
  match (s.gcl p).openFor f.q t with
  | none => some rest
  | some w =>
    let k := lineBytes x.rate w - extra
    if w = 0 then none
    else if lineNs x.rate (rest + extra) ≤ w then some rest
    else if ((s.gcl p).listAt t).preempt.testBit f.q && k ≥ 64 && rest ≥ 128 then some (min k (rest - 64))
    else none

/-- The frames that may start at an instant: the oldest of each queue, and of the preemptable ones only the one in
fragments, if there is one. -/
def egressHeads (s : State) (p : Nat) (t : Time) : List (EFrame × Nat) :=
  let e := (s.eport p).egress
  let pre := fun (q : Nat) => ((s.gcl p).listAt t).preempt.testBit q
  ((List.range 8).filterMap fun q => e.find? (·.q = q)).filterMap fun f =>
    if f.sent = 0 && pre f.q && e.any (fun g => g.sent ≠ 0) then none else (startsWith s p f t).map fun n => (f, n)

/-- A frame, or a part of it, starts at an instant if one may. Which of several queues goes first, and whether the
credit-based shaper holds queue 5 or 6 back, is free (notes/assumptions/102.md). -/
def startOne (s : State) (p : Nat) (t : Time) : Option State :=
  let hs := egressHeads s p t
  if (s.eport p).freeAt > t || hs = [] then none
  else
    let shaped := hs.all fun e => e.1.q = 5 || e.1.q = 6
    match hs[s.free % (hs.length + b2n shaped)]? with
    | none => none
    | some (f, n) =>
      let x := s.eport p
      let extra := 8 + (if x.macsec then 32 else 0)
      let whole := f.sent + n ≥ f.len
      let rest := if whole then x.egress.erase f else x.egress.map fun g => if g = f then { f with sent := f.sent + n } else g
      let s1 := s.drawn.modEport p fun x => { x with egress := rest, freeAt := t + lineNs x.rate (n + extra + 12) }
      some (if whole then s1.emit (.frame p f.len t) else s1)

/-- Serve the egress queues of a port up to this instant. -/
def serveN (p : Nat) : Nat → State → State
  | 0, s => s
  | n + 1, s =>
    let t := max (s.eport p).freeAt (s.eport p).served
    match if t < s.dt then startOne s p t else none with
    | some s' => serveN p n s'
    | none => match startOne s p s.dt with
      | some s' => serveN p n s'
      | none => s

/-- A port serves its queues up to now. -/
def serveEgress (s : State) (p : Nat) : State :=
  (serveN p (2 * (s.eport p).egress.length + 1) s).modEport p fun x => { x with served := s.dt }

/-! ### Forwarding -/

/-- What the switch knows of a frame: ingress port, length with FCS, destination, VLAN, PCP, R-tag, the bytes after the
EtherType, reception stamp. -/
structure Frame where
  port    : Nat
  len     : Nat
  dst     : Nat
  vid     : Nat
  pcp     : Nat
  rtag    : Option Nat
  payload : List Byte
  stamp   : Time

/-- A filter matches a frame (R423). -/
def filterHits (x : StreamFilter) (f : Frame) : Bool :=
  x.valid && x.vid = f.vid && x.dst = f.dst && (!x.prioEn || x.prio = f.pcp)

/-- The lowest-numbered filter that matches. -/
def State.filterFor (s : State) (f : Frame) : Option (Nat × StreamFilter) :=
  (s.net.filters.filter fun (e : Nat × StreamFilter) => filterHits e.2 f).foldl
    (fun (b : Option (Nat × StreamFilter)) e => match b with
      | some x => if e.1 < x.1 then some e else b
      | none => some e) none

/-- The bytes that wait in the egress queues of all ports. -/
def State.egressBytes (s : State) : Nat :=
  (List.range 8).foldl (fun n p => (s.eport p).egress.foldl (fun n f => n + f.len) n) 0

/-- A frame enters the egress queues of external ports whose link is up, by the port's PCP-to-queue map (R413), while the
frame memory holds it (R412; notes/assumptions/102.md). -/
def sendOut (s : State) (mask : Nat) (f : Frame) : State :=
  (maskList mask 8).foldl (fun s p =>
    if !(s.eport p).link || s.egressBytes + f.len > 15 * 2 ^ 18 then s
    else serveEgress ((serveEgress s p).modEport p fun x => { x with egress := x.egress ++ [{ q := Config.pcpQueue p f.pcp % 8, len := f.len }] }) p) s

/-- The oldest posted buffer of a host network queue (R431). -/
def State.postedFor (s : State) (fn q : Nat) : Option Flight :=
  (s.net.posts.filterMap s.flight?).find? fun f => f.cmd.fn.val = fn && f.cmd.f 13 0 4 = q

/-- A frame for (FN, NETQ) fills the oldest posted buffer (R431); its header bytes are free ones. -/
def toHost (s : State) (fn q filter : Nat) (f : Frame) : State :=
  match s.postedFor fn q with
  | none => s.modNet fun n => { n with noPost := n.noPost + 1 }
  | some fl =>
    let len := f.len - 4
    let k := len - f.payload.length
    let bytes := (leBytes k s.free ++ f.payload).take len
    let s1 := s.drawn.modNet fun n => { n with posts := n.posts.filter (· ≠ fl.id) }
    withWrite s1 fl (fl.cmd.d 10) bytes [len, f.port + 2 ^ 16 * filter, lo32 f.stamp, hi32 f.stamp]

/-! ### IEEE 1722 listeners (E10; notes/assumptions/106.md) -/

/-- gPTP time minus DT for the presentation times of a stream (R414). -/
def State.streamOffset (s : State) (key : Nat) : Int := (s.ptp (Config.streamDomain key % 2)).offset

/-- The presentation time of a 32-bit IEEE 1722 timestamp, in DT: the one nearest to now. -/
def State.presentAt (s : State) (key ts : Nat) : Int :=
  let now : Int := s.dt + s.streamOffset key
  now + signed 32 (code 32 (ts - now)) - s.streamOffset key

/-- The samples of an AAF frame of one channel at 48 kHz, none where it is another frame: stream ID, timestamp, values. -/
def aafSamples (p : List Byte) (wide : Bool) : Option (Nat × Nat × List Int) :=
  let b := fun i => (p.getD i 0).toNat
  let n := if wide then 4 else 3
  if p.length < 24 + 6 * n || b 0 ≠ 2 || b 16 ≠ (if wide then 2 else 3) || b 17 ≠ 0x50 || b 18 ≠ 1 then none
  else some (beNat ((p.drop 4).take 8), beNat ((p.drop 12).take 4),
    (List.range 6).map fun k => signed 32 (beNat ((p.drop (24 + n * k)).take n) * 2 ^ (32 - 8 * n)))

/-- A frame that reaches E10 gives its samples to the listeners of its stream ID, each with its presentation time. -/
def toListener (s : State) (payload : List Byte) : State :=
  if !s.up 15 then s
  else s.modAudio fun a => { a with streams := a.streams.map fun (e : Nat × AStream) =>
    match if e.2.kind = 0 then aafSamples payload e.2.wide else none with
    | some (sid, ts, xs) =>
      if sid = e.2.sid then
        (e.1, { e.2 with due := e.2.due ++ xs.zipIdx.map fun x => (3 * s.presentAt e.1 ts + 62500 * (x.2 : Int), x.1) })
      else e
    | none => e }

/-- Forward a frame by its filter (R423, R424). -/
def filtered (s : State) (i : Nat) (x : StreamFilter) (f : Frame) : State :=
  if f.len > x.maxSdu then dropFrame s f.port
  else
    let r := match x.recoveryEn, f.rtag with
      | true, some seq => recover (look s.net.recov x.recovery {}) (s.histLen x.recovery) seq
      | _, _ => (true, look s.net.recov x.recovery {})
    let s1 := if x.recoveryEn then s.modNet fun n => { n with recov := put n.recov x.recovery r.2 } else s
    if !r.1 then s1
    else
      let g := if x.recoveryEn && f.rtag.isSome then { f with len := f.len - 6 } else f
      let s2 := sendOut s1 (x.portMask % 256) g
      let s3 := if x.portMask.testBit 8 then toHost s2 x.fn x.netq i g else s2
      let s4 := if x.portMask.testBit 10 then toListener s3 f.payload else s3
      if x.portMask.testBit 9 && f.port < 8 then
        passTelegram s4 (fun e => e.source = 2 && e.id % 1024 = i) f.payload f.stamp
      else s4

/-- Forward a frame (R410, R423): without a filter to a free set of external ports, the address table being the
switch's own (notes/assumptions/98.md). -/
def forward (s : State) (f : Frame) : State :=
  match s.filterFor f with
  | some (i, x) => filtered s i x f
  | none => sendOut s.drawn (s.free % 256 &&& (255 ^^^ (2 ^ f.port % 256))) f

/-- ETH_FRAME_RX (R411, R416, R423, R424, R429). -/
def execEthFrameRx (t : Time) (port : Fin 8) (f : EthFrame) (s : State) : Answer :=
  let s := s.at t
  let must := match s.img with
    | some im => im.macsecReq.contains port.val
    | none => false
  if !s.up 13 || !(s.eport port).link then .next s
  else if f.len < 64 || f.len > 9216 || !f.fcsOk || (f.macsec && !(f.macsecOk && (s.eport port).macsec)) || (!f.macsec && must) then .next (dropFrame s port)
  else
    .next (forward s { port := port, len := f.len, dst := f.dst, vid := f.vid, pcp := f.pcp.val, rtag := f.rtag
                       payload := f.payload, stamp := s.stamp 13 })

/-! ### Time synchronisation -/

/-- DT follows a gPTP domain (R36). -/
def State.follows (s : State) (d : Nat) : Bool := s.time.source = d + 1

/-- PTP_SYNC_RX (R414, R415, R37): a Sync of a domain with its time and rate. -/
def execPtpSyncRx (t : Time) (d : Fin 2) (port : Fin 8) (gptpTime : Int) (rate : Int) (s : State) : Answer :=
  let s := s.at t
  if !s.up 13 || !(s.eport port).link then .next s
  else
    let s1 := s.modPtp d fun x => { x with
      synced := true, port := port.val, domain := x.pend.orElse fun _ => x.domain, pend := none
      offset := gptpTime - s.stamp 13, last := s.dt }
    if s.follows d then
      .next { s1 with time := { s1.time with locked := true, holdover := false, rate := clampI rate (-20000) 20000 } }
    else .next s1

/-- A domain loses synchronisation; a DT disciplined by it enters holdover (R415, R38). -/
def loseSync (s : State) (d : Nat) : State :=
  if !(s.ptp d).synced then s
  else
    let s1 := s.modPtp d fun x => { x with synced := false }
    if s.follows d then report { s1 with time := { s1.time with locked := false, holdover := true } } 1 0x18 else s1

/-- PTP_SYNC_TIMEOUT (R415, R38): the window of three sync intervals of the port has closed without a Sync. -/
def execPtpSyncTimeout (t : Time) (d : Fin 2) (s : State) : Answer :=
  let s := s.at t
  let x := s.ptp d
  if s.up 13 && s.dt > x.last && s.dt ≥ x.last + 3 * Config.syncInterval x.port then .next (loseSync s d) else .next s

/-- PTP_OFFSET_LO_READ (R42): the offset is captured for the reading initiator. -/
def execPtpOffsetLoRead (t : Time) (ini : Fin 128) (d : Fin 2) (s : State) : Answer :=
  let s := s.at t
  if !s.canRead ini 13 then .next s
  else
    let v := (s.ptp d).offset
    .next ({ s with time := { s.time with snapPtp := put s.time.snapPtp (2 * ini.val + d.val) v } }.emit
      (.readData ini (code 32 v)))

/-! ### Gate control lists: commit and takeover -/

/-- GCL_COMMIT (R419, R421): a write of COMMIT. -/
def execGclCommit (t : Time) (fn : Fin 64) (p : Fin 8) (s : State) : Answer :=
  let s := s.at t
  let x := s.gcl p
  if fn.val ≥ 2 || !s.reach fn || !s.up 13 then .next s
  else if !s.mayWrite fn 6 then .next s.dropGroup
  else if !x.ok then .next (s.modGcl p fun x => { x with err := true })
  else .next (s.modGcl p fun x => { x with err := false, pending := true, change := nextCycle x.base x.cycle s.dt })

/-- GCL_TAKEOVER (R420, R422). -/
def execGclTakeover (t : Time) (p : Fin 8) (s : State) : Answer :=
  let s := s.at t
  let x := s.gcl p
  if !s.up 13 || !x.pending || s.dt < x.takeover then .next s
  else
    let at_ := x.takeover
    let s1 := (serveEgress s p).modGcl p fun x => { x with pending := false, oper := x.listAt at_ }
    .next (sendManagers (driveGates s1 p) 13 0x0681 p (lo32 at_) (hi32 at_))

/-- GATE_INTERVAL_END (R417, R418): the gates follow the list, and what may start now leaves. -/
def execGateIntervalEnd (t : Time) (p : Fin 8) (s : State) : Answer :=
  let s := s.at t
  if s.up 13 then .next (serveEgress (driveGates s p) p) else .next s

/-! ### Filters and MACsec -/

/-- A filter with one word written (Table 10.3). -/
def setFilterWord (x : StreamFilter) (i : Nat) (w : Word) : StreamFilter :=
  match i with
  | 0 => { x with valid := w.getLsbD 0, prioEn := w.getLsbD 1, prio := fld w 2 3, vid := fld w 16 12 }
  | 1 => { x with dst := x.dst / 2 ^ 32 * 2 ^ 32 + w.toNat }
  | 2 => { x with dst := fld w 0 16 * 2 ^ 32 + x.dst % 2 ^ 32, maxSdu := fld w 16 14 }
  | _ => { x with portMask := fld w 0 11, recovery := fld w 12 8, recoveryEn := w.getLsbD 20, fn := fld w 21 6
                  netq := fld w 27 4 }

/-- The function belongs to a manager: its own PF, or a VF of its port (R427). -/
def State.ofPort (s : State) (pf fn : Nat) : Bool := fn = pf || (fn ≥ 2 && s.portOf fn = pf)

/-- FILTER_WRITE (R425, R427): a write of one word of a stream filter. -/
def execFilterWrite (t : Time) (fn : Fin 64) (f : Fin 1024) (word : Fin 4) (val : Word) (s : State) : Answer :=
  let s := s.at t
  let x := look s.net.filters f {}
  let y := setFilterWord x word.val val
  if fn.val ≥ 2 || !s.reach fn || !s.up 13 then .next s
  else if s.net.fixed.contains f.val || (x.valid && !s.ofPort fn x.fn) || y.portMask.testBit 9 ||
    (word.val = 3 && (!s.ofPort fn y.fn || (y.portMask.testBit 8 && y.netq ≥ (s.fnc y.fn).grant.netQueues))) then
    .next (s.modNet fun n => { n with dropped := n.dropped + 1 })
  else .next (s.modNet fun n => { n with filters := put n.filters f y })

/-- NET_LINK to both managers (Table 10.4). -/
def netLink (s : State) (p : Nat) : State :=
  let x := s.eport p
  sendManagers s 13 0x0680 p (b2n x.link + 2 * x.rate + 2 ^ 4 * b2n x.macsec) 0

/-- SAK_INSTALL (R428): the Lantern installs a SAK, and the port is secured. -/
def execSakInstall (t : Time) (p : Fin 8) (s : State) : Answer :=
  let s := s.at t
  if !s.up 13 || !s.up 0 || !(s.eport p).link then .next s
  else
    let s1 := s.modEport p fun x => { x with saks := x.saks + 1, macsec := true }
    .next (if (s.eport p).macsec then s1 else netLink s1 p)

/-- ETH_LINK_CHANGE (Table 10.1, Table 10.4). -/
def execEthLinkChange (t : Time) (p : Fin 8) (up : Bool) (rate : Fin 5) (s : State) : Answer :=
  let s := s.at t
  if !s.up 13 then .next s
  else .next (netLink ((if (s.eport p).link then serveEgress s p else s).modEport p fun x => { x with
    egress := if up then x.egress else [], link := up, rate := if up then rate.val else 0, macsec := up && x.macsec, saks := if up then x.saks else 0 }) p)

/-! ### Host queues (R430-R432) -/

def netMalformed (tx : Bool) (c : Cmd) : Bool :=
  c.d 10 % 64 ≠ 0 || !c.z 12 14 18 || !c.z 13 5 27 || !c.zw 14 15 ||
  (if tx then c.f 12 0 14 < 60 || c.f 12 0 14 > 9212 else c.f 12 0 14 < 9212)

def netDenied (s : State) (c : Cmd) : Bool := c.f 13 0 4 ≥ (s.fnc c.fn).grant.netQueues || !s.accepts c.fn 16

/-- The frame a NET_TX sends, read from its buffer: IEEE 802.3 and 802.1Q headers (notes/assumptions/99.md). -/
def txFrame (b : List Byte) (stamp : Time) : Frame :=
  let type_ := fun k => beNat ((b.drop k).take 2)
  let tag := type_ 12 = 0x8100
  let at_ := if tag then 18 else 14
  let rt := type_ (at_ - 2) = 0xF1C1
  { port := 8, len := b.length + 4, dst := beNat (b.take 6), vid := if tag then type_ 14 % 4096 else 0
    pcp := if tag then type_ 14 / 8192 else 0, rtag := if rt then some (type_ (at_ + 2)) else none
    payload := b.drop (if rt then at_ + 6 else at_), stamp := stamp }

/-- A PTP event message: EtherType 0x88F7 and a message type below 4. -/
def ptpEvent (b : List Byte) : Bool :=
  beNat ((b.drop 12).take 2) = 0x88F7 && (b.getD 14 0).toNat % 16 < 4

/-- NET_TX: the frame enters the switch from E8; the egress stamp of a PTP event message is a free value. -/
def runNetTx (s : State) (f : Flight) : State :=
  let c := f.cmd
  withMem s f [(c.d 10, c.f 12 0 14)] [] fun s =>
    let b := memRead s c.fn (c.d 10) (c.f 12 0 14)
    let egress := if c.b 13 4 && ptpEvent b then s.free % 2 ^ 64 else 0
    complete (forward s.drawn (txFrame b (s.stamp 13))) f.id stOk [c.f 12 0 14, 0, lo32 egress, hi32 egress]

def specNetTx : OpSpec :=
  { op := 0x0600, engine := some 6, malformed := fun _ c => netMalformed true c, denied := netDenied
    isl := fun _ _ => 13, run := runNetTx }

/-- NET_TX (R430, R432). -/
def execNetTx (t : Time) (c : Cmd) (s : State) : Answer := .next (startCmd (s.at t) specNetTx c)

def specNetRxPost : OpSpec :=
  { op := 0x0601, engine := some 6, malformed := fun _ c => netMalformed false c, denied := netDenied
    isl := fun _ _ => 13, run := fun s f => s.modNet fun n => { n with posts := n.posts ++ [f.id] } }

/-- NET_RX_POST (R431, R432). -/
def execNetRxPost (t : Time) (c : Cmd) (s : State) : Answer := .next (startCmd (s.at t) specNetRxPost c)

/-! ### CAN FD -/

/-- CAN_FRAME_RX (R267, R433-R435): a valid frame goes to Watchlamp with its stamp. -/
def execCanFrameRx (t : Time) (p : Fin 2) (f : CanFrame) (s : State) : Answer :=
  let s := s.at t
  if !s.up 13 || (s.can p).state = 2 || f.remote then .next s
  else .next (passTelegram s (fun e => e.source.val = p.val && e.ide = f.ide && e.id = f.id) f.payload (s.stamp 13))

/-- A CAN port in a new state, with its event (Table 10.4). -/
def canState (s : State) (p new : Nat) : State :=
  if (s.can p).state = new then s
  else
    let s1 := s.modCan p fun x => { x with state := new }
    sendManagers s1 13 0x0682 p new (s1.can p).offs

/-- CAN_BUS_OFF (R436). -/
def execCanBusOff (t : Time) (p : Fin 2) (s : State) : Answer :=
  let s := s.at t
  if !s.up 13 || (s.can p).state ≥ 2 then .next s
  else .next (report (canState (s.modCan p fun x => { x with offs := satInc x.offs 0xFF, tec := 0xFF, offAt := s.dt }) p 2) 13 0x10)

/-- CAN_BUS_OFF_RECOVERED (R436): 128 occurrences of 11 recessive bits have passed, no less than 1408 bit times. -/
def execCanBusOffRecovered (t : Time) (p : Fin 2) (s : State) : Answer :=
  let s := s.at t
  if !s.up 13 || (s.can p).state ≠ 2 || (s.dt - (s.can p).offAt) * (s.can p).nominal < 1408000000 then .next s
  else .next (canState (s.modCan p fun x => { x with tec := 0, rxec := 0 }) p 0)

/-- CAN_BUS_ERROR: the counters as ISO 11898-1 moves them; above 127 the port is error-passive. -/
def execCanBusError (t : Time) (p : Fin 2) (tec rxec : Nat) (s : State) : Answer :=
  let s := s.at t
  if !s.up 13 || (s.can p).state = 2 then .next s
  else
    let s1 := s.modCan p fun x => { x with tec := min tec 0xFF, rxec := min rxec 0xFF }
    if (s.can p).state = 3 then .next s1 else .next (canState s1 p (if tec > 127 || rxec > 127 then 1 else 0))

/-! ### Load and reset -/

/-- What the Watch island loads into Network: E9 filters, recovery functions, CAN settings (R425, R433, R438). -/
def loadNetwork (s : State) : State :=
  match s.img with
  | none => s
  | some im => s.modNet fun n => { n with
      filters := im.e9Filters, fixed := im.e9Filters.map fun (e : Nat × StreamFilter) => e.1, hist := im.recoveryHist
      can := [0, 1].map fun p => (p, {
        state := if im.canListenOnly.toList.getD p false then 3 else 0
        nominal := im.canNominal.toList.getD p 0, data := im.canData.toList.getD p 0, tdc := im.canData.toList.getD p 0 > 1000 }) }

/-- The reset step of Network (R437, R438, R38); telegrams still on the crossing to Watchlamp are discarded (R31). -/
def resetNetwork (s : State) : State :=
  let s1 := loseSync (loseSync s 0) 1
  (s1.modNet fun _ => {}).modWl fun w => { w with inbox := [] }

end Sys2Proof.Machine
end

