-- ==== Sys2Proof/Machine/Audio.lean ====
section
/-! DEFINITION. Chapter 11: the sample boundary (R440-R456, R458-R468), audio commands and TDM ports. Samples are
integers in units of 2^-31 and gains in units of 2^-22; how a product is rounded is free (notes/assumptions/104.md). -/

namespace Sys2Proof.Machine

/-- A quotient that the spec does not say how to round (R447, notes/assumptions/104.md): itself where it is whole, else
one of its two neighbours, which is a free choice at each sample. -/
def nearby (n : Nat) (num den : Int) : Int :=
  if num % den = 0 then num / den else num / den + b2n (Config.roundsUp n num den)

/-- Unity in Q2.22 (R446), and a product of a sample with a gain. -/
def unity : Int := 4194304
def scaleBy (n : Nat) (x g : Int) : Int := nearby n (x * g) unity

/-- Saturation to full scale (R441). -/
def fullScale (x : Int) : Int := clampI x (-2147483648) 2147483647

def gkey (o i : Nat) : Nat := 128 * o + i
def ekey (o sec k : Nat) : Nat := 32 * o + 5 * sec + k

/-- A node gain, an equaliser coefficient and the mode of a bank (R446, R450, R453). -/
def AudioBank.node (b : AudioBank) (o i : Nat) : Int := look b.gain (gkey o i) 0
def AudioBank.coef (b : AudioBank) (o sec k : Nat) : Int := look b.eq (ekey o sec k) (if k = 0 then unity else 0)
def AudioBank.auto (b : AudioBank) (o : Nat) : Bool := look b.mode o false

/-! ### Ramps (R448, R449, R454, R456) -/

/-- The value at this sample of the window. -/
def Ramp.now (r : Ramp) : Int := r.from_ + nearby (r.k + 1) ((r.to_ - r.from_) * (min (r.k + 1) r.len)) r.len

/-- The value in effect, where no ramp runs the target. -/
def inEffect (t : Tbl Ramp) (k : Nat) (v : Int) : Int :=
  match t.find? fun (e : Nat × Ramp) => e.1 = k with
  | some e => e.2.now
  | none => v

/-- The value of the sample before this one, from which a new ramp starts. -/
def before (t : Tbl Ramp) (k : Nat) (v : Int) : Int :=
  match t.find? fun (e : Nat × Ramp) => e.1 = k with
  | some e => e.2.from_ + nearby e.2.k ((e.2.to_ - e.2.from_) * e.2.k) e.2.len
  | none => v

/-- A change to a new value: a ramp of `len` samples from the value in effect. -/
def rampTo (t : Tbl Ramp) (k len : Nat) (old new : Int) : Tbl Ramp :=
  if old = new && !t.any (fun (e : Nat × Ramp) => e.1 = k) then t
  else put t k { from_ := before t k old, to_ := new, k := 0, len := len }

/-- Every ramp moves on by a sample; one that has ended is dropped. -/
def stepRamps (t : Tbl Ramp) : Tbl Ramp :=
  (t.map fun (e : Nat × Ramp) => (e.1, { e.2 with k := e.2.k + 1 })).filter fun (e : Nat × Ramp) => e.2.k < e.2.len

/-! ### Parameters (R448, R451, R458-R465) -/

/-- Write a parameter into a bank. -/
def AudioBank.write (b : AudioBank) (p : AudioParam) : AudioBank :=
  match p with
  | .gain o i g => { b with gain := put b.gain (gkey o i) g }
  | .eq o sec cs => { b with eq := (cs.zipIdx).foldl (fun t (e : Int × Nat) => put t (ekey o sec e.2) e.1) b.eq }
  | .coef o sec k v => { b with eq := put b.eq (ekey o sec k) v }
  | .mode o m => { b with mode := put b.mode o m }

/-- Write a parameter into the active bank; a gain ramps (R448). -/
def applyActive (a : Audio) (p : AudioParam) : Audio :=
  let a1 := { a with active := a.active.write p }
  match p with
  | .gain o i g => { a1 with ramps := rampTo a.ramps (gkey o i) 64 (a.active.node o i) g }
  | _ => a1

/-- Write a parameter into the shadow bank. -/
def applyShadow (a : Audio) (p : AudioParam) : Audio := { a with shadow := a.shadow.write p }

/-- Make the shadow bank of an output active (R459): afterwards both banks are equal. -/
def swapOutput (a : Audio) (o : Nat) : Audio :=
  let a1 := (List.range 128).foldl (fun a i => applyActive a (.gain o i (a.shadow.node o i))) a
  let a2 := (List.range 30).foldl (fun a j => applyActive a (.coef o (j / 5) (j % 5) (a.shadow.coef o (j / 5) (j % 5)))) a1
  applyActive a2 (.mode o (a.shadow.auto o))

/-- Table 11.4: the parameter at a safe-load address, none where the address is undefined. -/
def safeParam (addr : Nat) (v : Int) : Option AudioParam :=
  if addr < 0x3000 then (if addr % 128 ≤ 123 then some (.gain (addr / 128) (addr % 128) v) else none)
  else if 0x4000 ≤ addr && addr < 0x4C00 then
    let j := (addr - 0x4000) % 32
    if j < 30 then some (.coef ((addr - 0x4000) / 32) (j / 5) (j % 5) v) else none
  else none

/-- A function may change a parameter (R465). -/
def State.mayParam (s : State) (fn : Nat) (p : AudioParam) : Bool :=
  let g := (s.fnc fn).grant
  match p with
  | .gain o i _ => g.aoutMask.testBit o && g.ainMask.testBit i && i < 124
  | .eq o _ _ => g.aoutMask.testBit o
  | .coef o _ _ _ => g.aoutMask.testBit o
  | .mode o _ => g.aoutMask.testBit o

/-- The safe-load transfer of a function at a boundary (R463-R465), of a TRIGGER set before it (R44). -/
def runSafeLoad (s : State) (fn : Nat) : State :=
  let x := s.safeLoad fn
  if !x.trig || x.trigAt ≥ s.dt then s
  else
    let s1 := (List.range (min x.count 5)).foldl (fun s e =>
      match safeParam (look x.addr e 0) (signed 24 (look x.data e 0)) with
      | some p =>
        if s.mayParam fn p then s.modAudio fun a => applyShadow (applyActive a p) p
        else s.modSafeLoad fn fun y => { y with skip := satInc y.skip 0xFFFF }
      | none => s.modSafeLoad fn fun y => { y with skip := satInc y.skip 0xFFFF }) s
    s1.modSafeLoad fn fun y => { y with trig := false }

/-- The swaps due at a boundary, in the order they started (R459, R462). -/
def runSwaps (s : State) (b : Time) : State :=
  let due := (s.audio.swaps.filterMap s.flight?).filter fun f => b ≥ f.cmd.d 13
  due.foldl (fun s f =>
    let c := f.cmd
    let outs := maskList (c.w 10 + 2 ^ 32 * c.w 11 + 2 ^ 64 * c.w 12) 96
    let s1 := s.modAudio fun a => outs.foldl swapOutput { a with swaps := a.swaps.filter (· ≠ f.id) }
    completeAt s1 f.id (if c.d 13 ≠ 0 && b > c.d 13 + 20833 then stLate else stOk) noPay b) s

/-- The IMMEDIATE writes checked before a boundary (R44), in the order their commands started (R458, R460). -/
def runImms (s : State) : State :=
  let l := s.audio.imms.filter (·.since < s.dt)
  completeAll (s.modAudio fun a => { (l.foldl (fun a e => e.params.foldl applyActive a) a) with
    imms := a.imms.filter (·.since ≥ s.dt) }) (l.map (·.flight)) stOk noPay

/-- Stream bindings checked before a boundary take effect (R466, R44). -/
def runBindings (s : State) : State :=
  let l := s.audio.pendStr.filter (·.since < s.dt)
  let s1 := s.modAudio fun a => { a with
    pendStr := a.pendStr.filter (·.since ≥ s.dt)
    streams := l.foldl (fun t e => match e.bind with
      | some x => put t e.key x
      | none => dropKeys t (· = e.key)) a.streams }
  completeAll s1 (l.map (·.flight)) stOk noPay

/-- The loopback selections written before a boundary take effect (R473, R44). -/
def takeLoops (s : State) : State :=
  s.modAudio fun a => { a with loopA := if a.loopAt < s.dt then a.loopSel else a.loopWas }

/-! ### Inputs -/

/-- The stream of a kind and index. -/
def State.stream (s : State) (kind i : Nat) : Option AStream := (s.audio.streams.find? fun e => e.1 = 32 * kind + i).map (·.2)

/-- A TDM port passes samples: it runs and is not in SYNC_LOST (R443). -/
def State.tdmLive (s : State) (p : Nat) : Bool := (s.tdm p).cfgA.getLsbD 0 && !(s.tdm p).lost

/-- A tone generator's sample (R285, R286, R568). -/
def State.toneNow (s : State) (n : Nat) : Int :=
  match s.img with
  | none => 0
  | some im =>
    let c := im.tones.toList.getD n ⟨0, 0, 0, 0⟩
    if s.toneEnv n s.audio.sample = 0 then 0
    else nearby s.audio.sample (Config.toneSample c.freq c.level s.audio.sample * s.toneEnv n s.audio.sample) 64

/-- A TDM port that runs as a slave: its rate converter adds two samples of delay (R442). -/
def State.tdmSlave (s : State) (p : Nat) : Bool := !(s.tdm p).cfgA.getLsbD 1

/-- What a TDM port takes in at a boundary for one of its input slots: from its rate converter in slave mode (R442),
silence in SYNC_LOST (R443). -/
def State.slotIn (s : State) (tdmIn convIn : Tbl Int) (i : Nat) : Int :=
  if s.tdmLive (i / 16) then fullScale (look (if s.tdmSlave (i / 16) then convIn else tdmIn) i 0) else 0

/-- Move a sample into a delay line of two samples. -/
def shiftIn (t : Tbl (Int × Int)) (k : Nat) (x : Int) : Tbl (Int × Int) := put t k (x, (look t k (0, 0)).1)

/-- The sample that a listener has due at the boundary stamped b: that of the latest presentation time since the boundary
before it (chapter 10, E10; R468). -/
def AStream.dueAt (x : AStream) (last b : Time) : Option Int :=
  ((x.due.filter fun e => 3 * (last : Int) < e.1 && e.1 ≤ 3 * (b : Int)).getLast?).map (·.2)

/-- The samples of IN0-IN127 at a boundary (Table 11.1). The test tones are free values, and so is a sample of host
playback whose channel does not answer: Audio does not wait (R467). -/
def audioIn (s : State) (tdmIn convIn : Tbl Int) (b : Time) (i : Nat) : Int :=
  if i < 64 then
    (if s.tdmLive (i / 16) && s.tdmSlave (i / 16) then (look s.audio.delayIn i (0, 0)).2 else s.slotIn tdmIn convIn i)
  else if i < 80 then
    match s.stream 0 (i - 64) with
    | some x => (x.dueAt s.audio.boundAt b).getD 0
    | none => 0
  else if i < 112 then
    match s.stream 2 (i - 80) with
    | some x =>
      if s.fetchable x.fn (x.ring + 4 * x.pos) 4 then signed 32 (memNat s x.fn (x.ring + 4 * x.pos) 4)
      else signed 32 (Config.draw (s.draws + (i - 76)))
    | none => 0
  else if i < 116 then signed 32 (Config.draw (s.draws + (i - 112)))
  else if i < 124 then
    (if look s.audio.loopA (i - 116) 0 < 96 then look s.audio.outs (look s.audio.loopA (i - 116) 0) 0 else 0)
  else s.toneNow (i - 124)

/-- The reads of host playback at a boundary, before their samples are used (R358). -/
def playReads (s : State) : State :=
  s.audio.streams.foldl (fun s e =>
    if e.2.kind = 2 && s.fetchable e.2.fn (e.2.ring + 4 * e.2.pos) 4 then readRange s e.2.fn (e.2.ring + 4 * e.2.pos) 4 else s) s

/-! ### One output (Table 11.2) -/

/-- The integer square root, by its bits from 2^27 down. -/
def isqrt (n : Nat) : Nat := (List.range 28).foldl (fun r i => let t := r + 2 ^ (27 - i); if t * t ≤ n then t else r) 0

/-- The target scale (R453), rounded to Q2.22. -/
def targetScale (auto : Bool) (n : Nat) : Int :=
  if n = 0 then unity
  else if auto then (((isqrt (2 ^ 46 / n) + 1) / 2 : Nat) : Int)
  else ((roundDiv 4194304 n : Nat) : Int)

/-- Inputs that count on an output (R452): active in the last 480 samples, with a node gain in effect. -/
def Audio.activeInputs (a : Audio) (o : Nat) : Nat :=
  ((List.range 124).filter fun i =>
    look a.loud i 0 + 480 > a.sample && look a.loud i 0 ≠ 0 && inEffect a.ramps (gkey o i) (a.active.node o i) ≠ 0).length

/-- A tone routed to an output sounds (R456). -/
def State.duckDue (s : State) (o : Nat) : Bool :=
  (List.range 4).any fun j => s.audio.active.node o (124 + j) ≠ 0 && (look s.wl.tones j {}).on

/-- Scale and duck targets of an output start their ramps (R454, R456). -/
def setTargets (s : State) (o : Nat) : State :=
  let a := s.audio
  let target := fun (t : Tbl Ramp) => match t.find? fun (e : Nat × Ramp) => e.1 = o with
    | some e => e.2.to_
    | none => unity
  let sc := targetScale (a.active.auto o) (a.activeInputs o)
  let dk := if s.duckDue o then unity / 2 else unity
  s.modAudio fun a => { a with
    scale := if target a.scale = sc then a.scale else put a.scale o { from_ := before a.scale o unity, to_ := sc, k := 0, len := 480 }
    duck := if target a.duck = dk then a.duck else put a.duck o { from_ := before a.duck o unity, to_ := dk, k := 0, len := 64 } }

/-- The threshold of the limiter, -1 dBFS (R455), and the gain that holds a sample at it. -/
def limiterThreshold : Nat := 1913946816
def limiterTarget (x : Int) : Int :=
  if x.natAbs ≤ limiterThreshold then unity else ((limiterThreshold * 4194304 / x.natAbs : Nat) : Int)

/-- One sample of the limiter of an output (R455): it comes down to its target within an attack of 48 samples and back up
within a release of 2400; its steps inside them are free (notes/assumptions/105.md). -/
def Limiter.next (l : Limiter) (o n : Nat) (x : Int) : Limiter :=
  let goal := limiterTarget x
  let part := (Config.limiterStep o n % ((goal - l.gain).natAbs + 1) : Nat)
  if goal < l.gain then
    { gain := if l.down ≥ 47 then goal else l.gain - part, down := l.down + 1, up := 0 }
  else if goal > l.gain then
    { gain := if l.up ≥ 2399 then goal else l.gain + part, down := 0, up := l.up + 1 }
  else { l with down := 0, up := 0 }

/-- One equaliser section (R450): its output and its state variables x1, x2, y1, y2. -/
def eqSection (a : Audio) (o : Nat) (acc : Int × Tbl Int) (sec : Nat) : Int × Tbl Int :=
  let k := 32 * o + 4 * sec
  let v := fun j => look acc.2 (k + j) 0
  let c := a.active.coef o sec
  let y := fullScale (nearby a.sample (c 0 * acc.1 + c 1 * v 0 + c 2 * v 1 - c 3 * v 2 - c 4 * v 3) unity)
  (y, put (put (put (put acc.2 (k + 1) (v 0)) k acc.1) (k + 3) (v 2)) (k + 2) y)

/-- Form one output (Table 11.2) from the inputs. -/
def formOutput (x : Nat → Int) (s : State) (o : Nat) : State :=
  let a := s.audio
  let g := fun i => inEffect a.ramps (gkey o i) (a.active.node o i)
  let mixed := (List.range 124).foldl (fun n i => if g i = 0 then n else n + scaleBy (128 * a.sample + i) (x i) (g i)) 0
  let sc := scaleBy a.sample mixed (inEffect a.scale o (targetScale (a.active.auto o) (a.activeInputs o)))
  let dk := scaleBy a.sample sc (inEffect a.duck o (if s.duckDue o then unity / 2 else unity))
  let eq := (List.range 6).foldl (eqSection a o) (dk, a.eqState)
  let lim := (look a.limiter o {}).next o a.sample eq.1
  let l := if a.active.auto o then fullScale (scaleBy a.sample eq.1 lim.gain) else eq.1
  let alarm := (List.range 4).foldl (fun n j => n + x (124 + j) * g (124 + j)) (l * unity)
  s.modAudio fun a => { a with
    eqState := eq.2, limiter := if a.active.auto o then put a.limiter o lim else a.limiter
    outs := put a.outs o (fullScale ((alarm + unity / 2) / unity)) }

/-! ### Streams at a boundary (R467, R468) -/

/-- The IEEE 1722 AAF frame of six samples of a talker (notes/assumptions/106.md, PRESUMED): header with the stream ID and
the presentation time of its first sample, its maximum transit time after that sample, then the samples. -/
def aafFrame (s : State) (key : Nat) (x : AStream) : List Byte :=
  let n := if x.wide then 4 else 3
  let be := fun (k v : Nat) => (leBytes k v).reverse
  let ts := code 32 (x.first + s.streamOffset key + 1000 * (x.transit : Int))
  be 1 2 ++ be 1 0x81 ++ be 1 x.seq ++ be 1 0 ++ be 8 x.sid ++ be 4 ts ++
  be 1 (if x.wide then 2 else 3) ++ be 1 0x50 ++ be 1 1 ++ be 1 (8 * n) ++ be 2 (6 * n) ++ be 2 0 ++
  x.buf.flatMap fun v => be n (code 32 v / 2 ^ (32 - 8 * n))

/-- A talker's frame enters the switch at E10 (chapter 10), with its VLAN tag and FCS. -/
def talk (s : State) (key : Nat) (x : AStream) : State :=
  forward s { port := 10, len := 22 + (aafFrame s key x).length, dst := x.dst, vid := x.vid, pcp := x.pcp, rtag := none
              payload := aafFrame s key x, stamp := s.stamp 15 }

/-- A stream moves one sample. -/
def moveStream (s : State) (e : Nat × AStream) : State :=
  let x := e.2
  let i := e.1 % 32
  let setS := fun (s : State) (y : AStream) => s.modAudio fun a => { a with streams := put a.streams e.1 y }
  if x.kind = 0 then s
  else if x.kind = 1 then
    let y := { x with
      pos := (x.pos + 1) % 6, buf := x.buf ++ [look s.audio.outs (64 + i) 0]
      first := if x.pos = 0 then s.stamp 15 else x.first }
    if x.pos = 5 then talk (setS s { y with buf := [], seq := (x.seq + 1) % 256 }) e.1 y else setS s y
  else
    let s1 := if x.kind = 3 then memWrite s x.fn (x.ring + 4 * x.pos) (leBytes 4 (code 32 (look s.audio.outs (80 + i) 0))) else s
    let pos := x.pos + 1
    let ends := pos % x.period = 0
    let done := if ends then x.done + 1 else x.done
    let s2 := setS s1 { x with pos := pos % x.len, done := done }
    match x.fence with
    | some n => if ends then signalFence s2 x.fn n done else s2
    | none => s2

/-- Listeners without a sample count a gap (R468); what was due by this boundary is gone. -/
def listen (s : State) (b : Time) : State :=
  s.modAudio fun a => { a with
    gaps := a.streams.foldl (fun t (e : Nat × AStream) =>
      if e.2.kind = 0 && (e.2.dueAt a.boundAt b).isNone then put t (e.1 % 32) (satInc (look t (e.1 % 32) 0) 0xFFFF) else t) a.gaps
    streams := a.streams.map fun (e : Nat × AStream) => (e.1, { e.2 with due := e.2.due.filter fun d => d.1 > 3 * (b : Int) })
    boundAt := b }

/-- The samples at the TDM output slots (R442, R443): those of the outputs, two samples later on a slave port, zeros in
SYNC_LOST. -/
def drivePins (s : State) : State :=
  s.modAudio fun a => { a with
    pins := (List.range 64).map fun (i : Nat) =>
      (i, if !s.tdmLive (i / 16) then 0
          else if s.tdmSlave (i / 16) then (look a.delayOut i (0, 0)).2 else look a.outs i 0)
    delayOut := (List.range 64).foldl (fun t i => shiftIn t i (look a.outs i 0)) a.delayOut }

/-- SAMPLE_BOUNDARY (R440-R468): bindings, bank swaps, IMMEDIATE writes and safe-loads in the order of R460, then one
sample of every output and every stream. -/
def execSampleBoundary (t : Time) (tdmIn convIn : Tbl Int) (s : State) : Answer :=
  let s := s.at t
  if !s.up 15 then .next s
  else
    let b := s.stamp 15
    let s1 := runImms (runSwaps (runBindings (takeLoops s)) b)
    let s2 := playReads ((List.range 64).foldl runSafeLoad s1)
    let xs := (List.range 128).map (audioIn s2 tdmIn convIn b)
    let s3 := { (listen s2 b) with draws := s2.draws + 36 }
    let s4 := (List.range 96).foldl setTargets s3
    let s5 := drivePins ((List.range 96).foldl (formOutput fun i => xs.getD i 0) s4)
    let s6 := s5.audio.streams.foldl moveStream s5
    .next (s6.modAudio fun a => { a with
      sample := a.sample + 1
      loud := (List.range 124).foldl (fun l i => if (xs.getD i 0).natAbs > 67910 then put l i (a.sample + 1) else l) a.loud
      delayIn := (List.range 64).foldl (fun t i => shiftIn t i (s2.slotIn tdmIn convIn i)) a.delayIn
      ramps := stepRamps a.ramps, scale := a.scale.map fun (e : Nat × Ramp) => (e.1, { e.2 with k := min (e.2.k + 1) e.2.len })
      duck := a.duck.map fun (e : Nat × Ramp) => (e.1, { e.2 with k := min (e.2.k + 1) e.2.len }) })

/-! ### AUDIO_ROUTE (Table 11.3) -/

/-- Word w of entry i. -/
def arWord (s : State) (c : Cmd) (i w : Nat) : Nat := memNat s c.fn (c.d 11 + 32 * i + 4 * w) 4

/-- An entry breaks Table 11.3 (R461). -/
def arBad (s : State) (c : Cmd) (i : Nat) : Bool :=
  let w := arWord s c i
  let type_ := bits (w 0) 0 2
  type_ = 3 || bits (w 0) 2 7 > 95 || bits (w 0) 20 12 ≠ 0 || w 6 ≠ 0 || w 7 ≠ 0 ||
  (type_ ≠ 2 && bits (w 1) 24 8 ≠ 0) ||
  (type_ = 1 && (bits (w 0) 16 3 > 5 || [2, 3, 4, 5].any fun k => bits (w k) 24 8 ≠ 0))

/-- The parameter an entry sets. -/
def arParam (s : State) (c : Cmd) (i : Nat) : AudioParam :=
  let w := arWord s c i
  let v := fun k => signed 24 (w k)
  let o := bits (w 0) 2 7
  match bits (w 0) 0 2 with
  | 0 => .gain o (bits (w 0) 9 7) (v 1)
  | 1 => .eq o (bits (w 0) 16 3) [v 1, v 2, v 3, v 4, v 5]
  | _ => .mode o ((w 0).testBit 19)

/-- Check every entry, then write the shadow bank, and the active bank at the next boundary (R458, R461). -/
def runRoute (s : State) (f : Flight) : State :=
  let c := f.cmd
  let n := c.f 13 0 14
  withMem s f [(c.d 11, 32 * n)] [] fun s =>
    if (List.range n).any (arBad s c) then complete s f.id stMalformed noPay
    else
      let ps := (List.range n).map (arParam s c)
      if ps.any fun p => !s.mayParam c.fn p then complete s f.id stDenied noPay
      else
        let s1 := s.modAudio fun a => ps.foldl applyShadow a
        if c.b 10 0 || !s.accepts c.fn 12 then s1.modAudio fun a => { a with imms := a.imms ++ [⟨f.id, s.dt, ps⟩] }
        else complete s1 f.id stOk noPay

def specRoute : OpSpec :=
  { op := 0x0400, engine := some 4, isl := fun _ _ => 15, run := runRoute
    malformed := fun _ c =>
      !c.z 10 1 31 || c.d 11 % 32 ≠ 0 || c.f 13 0 14 = 0 || c.f 13 0 14 > 12288 || !c.z 13 14 18 || !c.zw 14 15 }

/-- AUDIO_ROUTE (R458, R461). -/
def execAudioRoute (t : Time) (c : Cmd) (s : State) : Answer := .next (startCmd (s.at t) specRoute c)

/-- The outputs a swap names. -/
def swapMask (c : Cmd) : Nat := c.w 10 + 2 ^ 32 * c.w 11 + 2 ^ 64 * c.w 12

def specSwap : OpSpec :=
  { op := 0x0401, engine := some 4, isl := fun _ _ => 15
    malformed := fun _ c => c.w 15 ≠ 0
    denied := fun s c => !s.accepts c.fn 12 || (maskList (swapMask c) 96).any fun o => !(s.fnc c.fn).grant.aoutMask.testBit o
    run := fun s f => s.modAudio fun a => { a with swaps := a.swaps ++ [f.id] } }

/-- AUDIO_BANK_SWAP (R459, R462). -/
def execAudioBankSwap (t : Time) (c : Cmd) (s : State) : Answer := .next (startCmd (s.at t) specSwap c)

/-! ### AUDIO_STREAM -/

def asKind (c : Cmd) : Nat := c.f 10 0 2
def asIndex (c : Cmd) : Nat := c.f 10 2 5
def asEnable (c : Cmd) : Bool := c.b 10 7

def asMalformed (c : Cmd) : Bool :=
  !c.z 10 9 23 || asIndex c > (if asKind c = 2 then 31 else 15) ||
  (if asKind c < 2 then !c.z 14 16 16 || c.w 15 ≠ 0 || !c.z 16 15 17 || !c.zw 18 31
   else
    !c.z 14 16 16 || !c.z 15 20 11 || !c.zw 16 31 ||
    (asEnable c && (c.d 11 % 64 ≠ 0 || c.f 14 0 16 < 48 || c.f 14 0 16 > 4800 || c.w 13 = 0 || c.w 13 % c.f 14 0 16 ≠ 0)))

/-- R466, and R79 for the fence of a host stream. -/
def asDenied (s : State) (c : Cmd) : Bool :=
  let g := (s.fnc c.fn).grant
  let i := asIndex c
  (match asKind c with
    | 0 => !g.ainMask.testBit (64 + i)
    | 1 => !g.aoutMask.testBit (64 + i)
    | 2 => !g.ainMask.testBit (80 + i)
    | _ => !g.aoutMask.testBit (80 + i)) ||
  (asKind c ≥ 2 && asEnable c && c.b 15 31 && !(c.f 15 0 20 < g.fences))

/-- The binding a command describes. -/
def asOf (c : Cmd) : AStream :=
  if asKind c < 2 then
    { fn := c.fn.val, kind := asKind c, wide := c.b 10 8, sid := c.d 11, dst := c.w 13 + 2 ^ 32 * c.f 14 0 16
      vid := c.f 16 0 12, pcp := c.f 16 12 3, transit := c.w 17 }
  else
    { fn := c.fn.val, kind := asKind c, ring := c.d 11, len := c.w 13, period := c.f 14 0 16
      fence := if c.b 15 31 then some (c.f 15 0 20) else none }

def specStream : OpSpec :=
  { op := 0x0402, engine := some 4, chain := fun _ => 2, malformed := fun _ c => asMalformed c, denied := asDenied
    isl := fun _ _ => 15
    run := fun s f => s.modAudio fun a => { a with pendStr :=
      a.pendStr ++ [⟨f.id, s.dt, 32 * asKind f.cmd + asIndex f.cmd, if asEnable f.cmd then some (asOf f.cmd) else none⟩] } }

/-- AUDIO_STREAM (R466). -/
def execAudioStream (t : Time) (c : Cmd) (s : State) : Answer := .next (startCmd (s.at t) specStream c)

/-- SAFE_LOAD_TRIGGER (R463, R472): a write of AUD_SL_CTRL with TRIGGER. -/
def execSafeLoadTrigger (t : Time) (fn : Fin 64) (s : State) : Answer :=
  let s := s.at t
  if !s.reach fn || !s.up 15 || !s.accepts fn 13 then .next s
  else .next (s.modSafeLoad fn fun x => { x with trig := true, trigAt := if x.trig then x.trigAt else s.dt })

/-! ### TDM ports (R442-R444) -/

/-- TDM_FRAME_SYNC: a good or off-rate frame of the port; settings written before it take effect. -/
def execTdmFrameSync (t : Time) (p : Fin 4) (offsetPpm : Int) (s : State) : Answer :=
  let s := s.at t
  if !s.up 15 then .next s
  else .next (s.modTdm p fun x =>
    let y := { x with cfgA := x.cfg, syncAt := s.dt }
    if y.cfgA.getLsbD 1 then { y with off := 0, lost := false, good := 0 }
    else if offsetPpm.natAbs > 1000 then { y with off := clampI offsetPpm (-32768) 32767, lost := true, good := 0 }
    else { y with off := offsetPpm, good := x.good + 1, lost := x.lost && x.good + 1 < 48 })

/-- TDM_SYNC_LOST (R443): no frame sync for 4 sample periods, 83.333 us, on a slave port that runs. -/
def execTdmSyncLost (t : Time) (p : Fin 4) (s : State) : Answer :=
  let s := s.at t
  if !s.up 15 || !(s.tdm p).cfgA.getLsbD 0 || (s.tdm p).cfgA.getLsbD 1 ||
    3 * (s.dt - (s.tdm p).syncAt) < 250000 then .next s
  else .next (s.modTdm p fun x => { x with lost := true, good := 0 })

/-! ### Load, functions, reset -/

/-- What the Watch island loads into Audio: the alarm node gains, and the settings of alarm-carrying ports (R471). -/
def loadAudio (s : State) : State :=
  match s.img with
  | none => s
  | some im => s.modAudio fun a =>
    let gains := im.alarmRoutes.map fun r => AudioParam.gain r.2.1.val (124 + r.1.val) (signed 24 r.2.2)
    { a with
      active := gains.foldl AudioBank.write a.active, shadow := gains.foldl AudioBank.write a.shadow
      tdm := im.alarmTdm.foldl (fun t e => upd t e.1.val {} fun x => { x with cfg := e.2, cfgA := e.2 }) a.tdm
      alarmTdm := ((im.alarmTdm.map fun (e : Fin 4 × Word) => e.1.val) ++
        (im.alarmRoutes.map fun (r : Fin 4 × Fin 96 × Nat) => r.2.1.val / 16).filter fun p => decide (p < 4)).eraseDups }

/-- Some alarm route is configured (R469). -/
def State.alarmRouted (s : State) : Bool :=
  match s.img with
  | some im => !im.alarmRoutes.isEmpty
  | none => false

/-- A function's streams end. -/
def dropStreams (s : State) (fn : Nat) : State :=
  s.modAudio fun a => { a with
    streams := a.streams.filter fun (e : Nat × AStream) => e.2.fn ≠ fn
    safe := dropKeys a.safe (· = fn)
    pendStr := a.pendStr.filter fun e => (e.bind.map (·.fn)) ≠ some fn }

/-- The reset step of Audio (R471): every bank, stream and setting returns to reset. -/
def resetAudio (s : State) : State := s.modAudio fun a => { ({} : Audio) with sample := a.sample, tdmDrop := a.tdmDrop }

end Sys2Proof.Machine
end

