-- ==== Sys2Proof/Machine/Faults.lean ====
section
/-! DEFINITION. Chapter 14: the fault collector, the watchdog, WICK and the lockstep comparator (R554-R568). -/

namespace Sys2Proof.Machine

/-- A fault code that Tables 14.1 and 14.2 name. -/
def faultKnown (isl src : Nat) : Bool :=
  (1 ≤ src && src ≤ 0x0B) || (isl = 1 && src = 0x0C) || (isl = 0 && src = 0x10) || (isl = 1 && 0x10 ≤ src && src ≤ 0x18) ||
  ((isl = 3 || isl = 13 || isl = 14) && src = 0x10) || ((isl = 4 || isl = 5 || isl = 10 || isl = 11) && (src = 0x10 || src = 0x11))

/-- The condition that makes a fault a CLASS_A_LOSS, at the instant it is recorded (R555, Tables 14.1 and 14.2). -/
def State.lossNow (s : State) (isl src : Nat) : Bool :=
  if src = 0x04 then isl = 15 && s.alarmRouted
  else if src = 0x0B then isl ≤ 1
  else if isl = 1 && src = 0x13 then [0, 1].any fun p => (s.pair p).stA = 2 && (s.pair p).stB = 2
  else if (isl = 10 || isl = 11) && src = 0x10 then
    (List.range 12).any fun h => mantleOf h = isl && (s.safeOf h).fault && (s.safeOf h).loss
  else false

/-- FAULT_REPORT (R555-R564, R568): an island reports a fault with the stamp taken there. -/
def execFaultReport (t : Time) (isl : Fin 16) (src : Fin 256) (stamp : Time) (s : State) : Answer :=
  let s := s.at t
  if s.boot.porst || !faultKnown isl src then .next s
  else .next (reportAt s isl src (s.lossNow isl src) stamp)

/-- The kick of the watchdog for the window at hand; at the close of a window without one it is that window's (R561,
R566). -/
def kick (s : State) : State :=
  updFaultPin (s.modFlt fun f => { f with
    kicked := true, kickAt := if f.kicked && s.dt = (f.kickAt + 2) * ms then f.kickAt + 1 else s.dt / ms })

/-- WATCHDOG_KICK (R561, R566): Watch firmware has completed its 1 ms cycle, in RUN the rule evaluation. -/
def execWatchdogKick (t : Time) (s : State) : Answer :=
  let s := s.at t
  if !s.flt.coresUp || s.boot.loadAt.isNone || !s.wl.evaluated then .next s else .next (kick s)

/-- The window of the last kick, or the one in which the image was loaded (R566). -/
def State.kickBase (s : State) : Option Nat :=
  if s.flt.kicked then some s.flt.kickAt else s.boot.loadAt.map (· / ms)

/-- FIRMWARE_WATCHDOG (R566, R568): a window of 1 ms has closed without its kick. -/
def execFirmwareWatchdog (t : Time) (s : State) : Answer :=
  let s := s.at t
  match s.kickBase with
  | some k => if s.flt.coresUp && s.dt ≥ (k + 2) * ms then .next (report s 1 0x11) else .next s
  | none => .next s

/-- LOCKSTEP_MISMATCH (R567, R568). -/
def execLockstepMismatch (t : Time) (s : State) : Answer :=
  let s := s.at t
  if !s.flt.coresUp then .next s else .next (report s 1 0x10)

/-- WICK_EDGE (R565): WICK rises at a DT multiple of 1 ms, first after the first kick, and falls halfway between. -/
def execWickEdge (t : Time) (s : State) : Answer :=
  let s := s.at t
  if !s.flt.coresUp || !s.flt.kicked then .next s
  else if s.dt % ms = 0 && (s.flt.wickOn || s.dt / ms > s.flt.kickAt) then
    .next (s.modFlt fun f => { f with wick := true, wickOn := true })
  else if s.dt % ms = ms / 2 then .next (s.modFlt fun f => { f with wick := false })
  else .next s

/-- FLT_DT_HI_READ: the high word of the stamp of the selected entry; ENTRY increments. -/
def execFltDtHiRead (t : Time) (fn : Fin 64) (s : State) : Answer :=
  let s := s.at t
  if fn.val ≥ 2 || !s.reach fn || !s.up 1 then .next s
  else
    let v := match s.flt.log[s.flt.idx]? with
      | some e => hi32 e.stamp
      | none => 0
    .next ((s.modFlt fun f => { f with idx := (f.idx + 1) % 64 }).emit (.readData fn v))

end Sys2Proof.Machine
end

