-- ==== Sys2Proof/Machine/Lantern.lean ====
section
/-! DEFINITION. Chapter 13: mailboxes and their commands, secure status, claims, performance holds, lifecycle
(R519-R544). -/

namespace Sys2Proof.Machine

/-! ### Mailboxes (R523-R528) -/

/-- The user of a mailbox (Table 13.3): the Watch island's MB12-MB15 have no function. -/
def State.mbUser (s : State) (m : Nat) : Option Nat :=
  if m < 4 then some 0 else if m < 8 then some 1 else if m < 12 then (s.mbox m).mapped else none

/-- Bytes of the payload of a message (Table 13.4). -/
def LanMsg.payload (g : LanMsg) : List Byte := wordBytes (g.words.drop 2)
def LanMsg.cmd (g : LanMsg) : Nat := bits (wordAt g.words 0) 0 8
def LanMsg.byte0 (g : LanMsg) : Nat := bits (wordAt g.words 2) 0 8
/-- Payload bytes 0-47 as a big-endian number. -/
def LanMsg.num48 (g : LanMsg) : Nat := beNat (g.payload.take 48)

/-- The request payload size of a command, none for an undefined CMD (R527). -/
def cmdLen (c : Nat) : Option Nat :=
  if c = 0x01 || c = 0x10 then some 0
  else if c = 0x02 || c = 0x03 || c = 0x20 then some 1
  else if c = 0x11 || c = 0x12 || c = 0x21 || c = 0x22 then some 48
  else none

/-- A TARGET of Table 13.6 that may be claimed (R532). -/
def claimTarget (x : Nat) : Bool :=
  (x / 16 = 0 && 2 ≤ x % 16) || (x / 16 = 1 && x % 16 < 8) || (x / 16 = 2 && x % 16 < 12)

/-- A message that is answered MALFORMED (R527, R532, R536). -/
def LanMsg.malformed (g : LanMsg) : Bool :=
  bits (wordAt g.words 0) 16 16 ≠ 0 || some (bits (wordAt g.words 1) 0 8) ≠ cmdLen g.cmd ||
  bits (wordAt g.words 1) 8 24 ≠ 0 || (g.cmd = 0x02 && !claimTarget g.byte0) || (g.cmd = 0x03 && g.byte0 > 31) ||
  (g.cmd = 0x20 && g.byte0 > 3)

/-- Table 13.5, column Users: the slot holder once it is secure, or while it authenticates; the PFs. -/
def State.mbAllowed (s : State) (m c : Nat) : Bool :=
  if c = 0x01 then true
  else match s.mbUser m with
    | none => false
    | some fn =>
      if c = 0x02 || c = 0x03 then 8 ≤ m && m < 12 && (s.fnc fn).secure
      else if c = 0x10 || c = 0x11 || c = 0x12 then 8 ≤ m && m < 12 && (s.fnc fn).auth.isSome
      else m < 8

/-- The words of a reply (Table 13.4). -/
def replyWords (g : LanMsg) (status : Nat) (pay : List Byte) : List Nat :=
  [g.cmd + 2 ^ 8 * bits (wordAt g.words 0) 8 8 + 2 ^ 16 * status, pay.length] ++
  (List.range 14).map fun i => leNat ((pay.drop (4 * i)).take 4)

/-- Write all sixteen reply words, clear BUSY and set DONE, and tell the user (R526, R553); a message whose user has
been lost is answered to nobody (R528). -/
def reply (s : State) (g : LanMsg) (status : Nat) (pay : List Byte) : State :=
  if !g.live then s
  else
    let ws := replyWords g status pay
    let s1 := s.modMbox g.mb fun x => { x with
      rsp := ws.zipIdx.map fun e => (e.2, BitVec.ofNat 32 e.1), busy := false, done := true, doneAt := some (s.stamp 0) }
    sendTo s1 0 (s.mbUser g.mb) 8 g.mb (ws.getD 0 0 % 65536) status

/-- Answer the messages of undefined CMD that stand at the front (R527, notes/assumptions/114.md). -/
def serveUndefined (s : State) : List LanMsg → State
  | [] => s.modLan fun l => { l with order := [] }
  | g :: r =>
    if (cmdLen g.cmd).isSome then s.modLan fun l => { l with order := g :: r }
    else serveUndefined (reply s g stMalformed []) r

/-- Serve the message at the front when it is this command of this mailbox (R525): MALFORMED, then DENIED, then the
command's own answer. -/
def serve (s : State) (m c : Nat) (run : State → LanMsg → State) : State :=
  match s.lan.order with
  | [] => s
  | g :: r =>
    if !s.up 0 || g.mb ≠ m || g.cmd ≠ c then s
    else
      let s0 := s.modLan fun l => { l with order := r }
      let s1 := if g.malformed then reply s0 g stMalformed []
        else if !s0.mbAllowed m c then reply s0 g stDenied []
        else run s0 g
      serveUndefined s1 s1.lan.order

/-- A function may write the mailbox control: a PF through its LAN window, a slot holder through its page (R55,
R523). -/
def State.mbGate (s : State) (fn m : Nat) : Option State :=
  if !s.reach fn || !s.up 0 then some s
  else if fn < 2 && !s.mayWrite fn 10 then some s.dropGroup
  else if s.mbUser m ≠ some fn then some (worldViolation s 0 fn)
  else none

/-- The sixteen request words of a mailbox. -/
def Mbox.request (x : Mbox) : List Word := (List.range 16).map fun w => look x.req w 0

/-- DONE after software writes 1 to it in Lantern cycle `now`: it stays set if the hardware has set it in that cycle
(R16). -/
def Mbox.doneLeft (x : Mbox) (now : Time) : Bool := x.done && x.doneAt = some now

/-- A message takes its place behind those whose GO became visible before; of one Lantern cycle the lowest mailbox comes
first (R525). -/
def queueMail (g : LanMsg) : List LanMsg → List LanMsg
  | [] => [g]
  | x :: r => if x.seen = g.seen && x.mb > g.mb then g :: x :: r else x :: queueMail g r

/-- MAILBOX_GO (R523-R525): a write of LAN_MB_CTRL with GO. -/
def execMailboxGo (t : Time) (fn : Fin 64) (mb : Fin 16) (w : Word) (s : State) : Answer :=
  let s := s.at t
  if !w.getLsbD 0 then .next s
  else match s.mbGate fn mb with
    | some s1 => .next s1
    | none =>
      let x := s.mbox mb
      if x.busy || x.done then
        .next (s.modMbox mb fun x => { x with overrun := true, done := if w.getLsbD 2 then x.doneLeft (s.stamp 0) else x.done })
      else
        let g : LanMsg := { mb := mb, words := x.request, seen := s.stamp 0 }
        let s1 := s.modMbox mb fun x => { x with busy := true, overrun := false }
        .next (serveUndefined s1 (queueMail g s1.lan.order))

/-- MAILBOX_DONE_CLEAR (R526): the user writes 1 to DONE. -/
def execMailboxDoneClear (t : Time) (fn : Fin 64) (mb : Fin 16) (s : State) : Answer :=
  let s := s.at t
  match s.mbGate fn mb with
  | some s1 => .next s1
  | none => .next (s.modMbox mb fun x => { x with done := x.doneLeft (s.stamp 0) })

/-- The user of mailboxes is lost (R528): they return to BUSY = 0 and DONE = 0; the message being served finishes
without an answer, those behind it are dropped. -/
def dropMail (s : State) (p : Nat → Bool) : State :=
  let order := match s.lan.order with
    | [] => []
    | g :: r => (if p g.mb then { g with live := false } else g) :: r.filter fun x => !p x.mb
  let s1 := ((List.range 12).filter p).foldl (fun s m => s.modMbox m fun x => { x with busy := false, done := false }) s
  serveUndefined s1 order

/-! ### INFO -/

/-- INFO (Table 13.5). -/
def execInfo (t : Time) (mb : Fin 16) (s : State) : Answer :=
  .next (serve (s.at t) mb 0x01 fun s g =>
    reply s g stOk (leBytes 4 s.lan.life ++ leBytes 4 (Config.fwVersion 0).toNat ++ leBytes 4 (Config.fwVersion 1).toNat ++
      leBytes 4 (s.img.elim 0 (·.version)) ++ leBytes 8 Config.deviceId))

/-! ### Claims (R532-R536) -/

/-- The claim of an owner on a target. -/
def State.claimOf (s : State) (own tgt : Nat) : Option Nat :=
  (List.range 32).find? fun c =>
    let x := look s.lan.claims c {}
    x.valid && x.owner = own && x.target = tgt

/-- The lowest free claim. -/
def State.freeClaim (s : State) : Option Nat := (List.range 32).find? fun c => !(look s.lan.claims c {}).valid

/-- CLAIM (R532). -/
def execClaim (t : Time) (mb : Fin 16) (s : State) : Answer :=
  .next (serve (s.at t) mb 0x02 fun s g =>
    let own := (s.mbUser mb).getD 0
    match s.claimOf own g.byte0 with
    | some c => reply s g stOk (leBytes 1 c)
    | none =>
      match s.freeClaim with
      | some c =>
        reply (s.modLan fun l => { l with claims := put l.claims c ⟨g.byte0, true, own⟩ }) g stOk (leBytes 1 c)
      | none => reply s g stNoResource [])

/-- UNCLAIM (R536). -/
def execUnclaim (t : Time) (mb : Fin 16) (s : State) : Answer :=
  .next (serve (s.at t) mb 0x03 fun s g =>
    let x := look s.lan.claims g.byte0 {}
    if !x.valid then reply s g stOk []
    else if some x.owner ≠ s.mbUser mb then reply s g stDenied []
    else reply (s.modLan fun l => { l with claims := put l.claims g.byte0 {} }) g stOk [])

/-! ### Secure VFs (R529-R531, R651, R653) -/

/-- A fresh nonce (Table 13.5): any earlier nonce and r of the mailbox are gone. -/
def issueNonce (s : State) (m tgt : Nat) : State :=
  (s.modMbox m fun x => { x with nonce := some (s.free % 2 ^ 384), sigR := none, target := tgt }).drawn

/-- Reply with the nonce of the mailbox. -/
def replyNonce (s : State) (g : LanMsg) : State := reply s g stOk (leBytes 48 ((s.mbox g.mb).nonce.getD 0))

/-- AUTH_BEGIN (R529). -/
def execAuthBegin (t : Time) (mb : Fin 16) (s : State) : Answer :=
  .next (serve (s.at t) mb 0x10 fun s g => replyNonce (issueNonce s mb 0) g)

/-- Store r (R653). -/
def storeR (s : State) (g : LanMsg) : State :=
  reply (s.modMbox g.mb fun x => { x with sigR := some g.num48 }) g stOk []

/-- AUTH_SIG_R (R653). -/
def execAuthSigR (t : Time) (mb : Fin 16) (s : State) : Answer := .next (serve (s.at t) mb 0x11 storeR)

/-- Free the slot of a function and unmap its mailbox (R530, R531). -/
def freeSlot (s : State) (fn : Nat) : State :=
  let ms := [8, 9, 10, 11].filter fun m => (s.mbox m).mapped = some fn
  ms.foldl (fun s m => s.modMbox m fun x => { x with mapped := none, nonce := none, sigR := none })
    (dropMail s ms.contains)

/-- The claims of a function are released (R531). -/
def dropClaims (s : State) (fn : Nat) : State :=
  s.modLan fun l => { l with claims := l.claims.filter fun e => e.2.owner ≠ fn }

/-- An authentication ends without a verified signature (R530): OK with SECURE = 0, the slot freed. -/
def authFail (s : State) (fn : Nat) : State :=
  match (s.fnc fn).auth with
  | none => s
  | some a => freeSlot (complete (s.modFn fn fun f => { f with auth := none }) a.flight stOk noPay) fn

/-- An authentication ends with a verified signature (R529): the function is secure from here on, and its work holds
the performance counters (R538). -/
def authPass (s : State) (fn : Nat) : State :=
  match (s.fnc fn).auth with
  | none => s
  | some a =>
    let s1 := s.modFn fn fun f => { f with auth := none, secure := true }
    let s2 := complete s1 a.flight stOk [1, 0, 0, 0]
    ((List.range 16).filter fun i => s2.workIn i fn).foldl (fun s i => holdPerf s i fn) s2

/-- The bytes a signature covers (R529, R540): nonce, one byte, device ID. -/
def signedBytes (nonce b : Nat) : List Byte := leBytes 48 nonce ++ leBytes 1 b ++ leBytes 8 Config.deviceId

/-- Some key of the secure identity table that may authenticate the function verifies the signature (R529). -/
def State.authVerifies (s : State) (fn nonce r sg : Nat) : Bool :=
  match s.img with
  | some im => im.secureKeys.any fun k => k.fnMask.testBit fn && Config.ecdsa k.x k.y (signedBytes nonce fn) r sg
  | none => false

/-- AUTH_SIG_S (R529, R530, R653). -/
def execAuthSigS (t : Time) (mb : Fin 16) (s : State) : Answer :=
  .next (serve (s.at t) mb 0x12 fun s g =>
    let x := s.mbox mb
    let fn := (s.mbUser mb).getD 0
    let ok := match x.nonce, x.sigR with
      | some n, some r => s.authVerifies fn n r g.num48
      | _, _ => false
    let s1 := reply (s.modMbox mb fun x => { x with nonce := none, sigR := none }) g stOk (leBytes 1 (b2n ok))
    if ok then authPass s1 fn else authFail s1 fn)

/-- SECURE_AUTH_TIMEOUT (R530). -/
def execSecureAuthTimeout (t : Time) (fn : Fin 64) (s : State) : Answer :=
  let s := s.at t
  match (s.fnc fn).auth with
  | some a => if s.dt ≥ a.limit then .next (authFail s fn) else .next s
  | none => .next s

/-- A VF's secure status ends (R531, R651); at a reset of the PF or port its commands are abandoned elsewhere. -/
def endSecure (s : State) (fn : Nat) (portReset : Bool) : State :=
  let s1 := if portReset then s.modFn fn fun f => { f with auth := none } else authFail s fn
  dropClaims (freeSlot (s1.modFn fn fun f => { f with secure := false }) fn) fn

/-! ### Lifecycle (R539, R540) -/

/-- ADV_BEGIN. -/
def execAdvBegin (t : Time) (mb : Fin 16) (s : State) : Answer :=
  .next (serve (s.at t) mb 0x20 fun s g => replyNonce (issueNonce s mb g.byte0) g)

/-- ADV_SIG_R. -/
def execAdvSigR (t : Time) (mb : Fin 16) (s : State) : Answer := .next (serve (s.at t) mb 0x21 storeR)

/-- ADV_SIG_S (R539, R540): a verified step to the next state is scheduled for the next PORST_N. -/
def execAdvSigS (t : Time) (mb : Fin 16) (s : State) : Answer :=
  .next (serve (s.at t) mb 0x22 fun s g =>
    let x := s.mbox mb
    let ok := match x.nonce, x.sigR with
      | some n, some r => x.target = s.lan.life + 1 && (s.lan.life = 1 || s.lan.life = 2) &&
          Config.ecdsa Config.ownerKey.1 Config.ownerKey.2 (signedBytes n x.target) r g.num48
      | _, _ => false
    let s1 := s.modMbox mb fun x => { x with nonce := none, sigR := none }
    let s2 := if ok then s1.modLan fun l => { l with lifeNext := x.target } else s1
    reply s2 g stOk (leBytes 1 (b2n ok)))

/-! ### Performance counters (R537, R538) -/

/-- PERF_HOLD_END (R538): at a DT multiple of 1 ms with no secure work active in the island. -/
def execPerfHoldEnd (t : Time) (isl : Fin 16) (s : State) : Answer :=
  let s := s.at t
  if s.dt % ms ≠ 0 || (List.range 64).any fun fn => s.isSecure fn && s.workIn isl fn then .next s
  else .next (s.modIsl isl fun x => { x with perfHold := false })

end Sys2Proof.Machine
end

