-- ==== Sys2Proof/Machine/Layers.lean ====
section
/-! DEFINITION. Chapter 4: the FLIP command, its timeout, and the fetch of a layer (R156-R203). -/

namespace Sys2Proof.Machine

/-- The word index of word E0 of layer entry k (Table 04.5): each entry is a further descriptor of 16 words. -/
def entryAt (k : Nat) : Nat := 16 * (k + 1)

/-- A layer entry (Table 04.5). -/
def entryOf (c : Cmd) (k : Nat) : Layer :=
  let e := entryAt k
  { slot := c.f e 0 6, enable := c.b e 6, z := c.f e 8 3, format := c.f e 12 4, bcs := c.b e 16, premult := c.b e 17
    ignAlpha := c.b e 18, nearest := c.b e 19, csc := c.f e 20 2, lineLock := c.b e 22, alpha := c.f e 24 8
    csi := c.f (e + 1) 0 3, base := c.d (e + 2), hdrBase := c.d (e + 4), pitch := c.f (e + 6) 0 20
    srcX := c.f (e + 7) 0 16, srcY := c.f (e + 7) 16 16, srcW := c.f (e + 8) 0 16, srcH := c.f (e + 8) 16 16
    dstX := signed 16 (c.f (e + 9) 0 16), dstY := signed 16 (c.f (e + 9) 16 16)
    dstW := c.f (e + 10) 0 16, dstH := c.f (e + 10) 16 16
    fence := c.f (e + 11) 0 20, wait := c.b (e + 11) 31, value := c.d (e + 12) }

/-- Fields of the FLIP header (Table 04.4). -/
def flHead (c : Cmd) : Nat := c.f 10 0 4
def flEntries (c : Cmd) : Nat := c.f 10 4 4
def flNight (c : Cmd) : Nat := c.f 10 9 2
def flGroup (c : Cmd) : Nat := c.f 10 16 8
def flGsize (c : Cmd) : Nat := c.f 10 24 4

/-- The entries of a FLIP. -/
def flLayers (c : Cmd) : List Layer := (List.range (flEntries c)).map (entryOf c)

/-- Reserved fields of an entry are zero. -/
def entryZero (c : Cmd) (k : Nat) : Bool :=
  let e := entryAt k
  c.z e 7 1 && c.z e 11 1 && c.z e 23 1 && c.z (e + 1) 3 29 && c.z (e + 6) 20 12 && c.z (e + 11) 20 11 && c.zw (e + 14) (e + 15)

/-- A line-locked entry keeps R182: rv = 1 or 1/2, and the horizontal limits of Table 04.3. -/
def lineLockOk (l : Layer) : Bool :=
  1 ≤ l.srcW && l.srcW ≤ 4096 && 1 ≤ l.srcH && l.srcH ≤ 16384 && 1 ≤ l.dstW && l.dstW ≤ 8 * l.srcW && l.srcW ≤ 4 * l.dstW &&
  taps l.srcW l.dstW ≤ 5 && (l.srcH = l.dstH || 2 * l.srcH = l.dstH)

/-- An enabled entry keeps R164, R166, R172 and R182 and Table 04.1. -/
def entryOk (l : Layer) : Bool :=
  if l.lineLock then lineLockOk l
  else
    l.format ≤ 6 && l.base % 256 = 0 && scaleOk l &&
    (l.format ≠ 1 || (l.srcX % 2 = 0 && l.srcW % 2 = 0)) &&
    (if l.bcs then (l.format = 3 || l.format = 4) && l.hdrBase % 256 = 0 else l.pitch % 64 = 0)

/-- A group in formation of the issuer that a FLIP with this GROUP meets (R198, R200). -/
def State.forming (s : State) (fn g : Nat) : List (Nat × PFlip) :=
  let ms : List (Nat × PFlip) := (List.range 12).flatMap fun h =>
    ((s.head h).pend.filter fun p => p.fn = fn && p.group = g && !p.go && !p.timedOut).map fun p => (h, p)
  ms.filter fun e => (ms.filter fun (q : Nat × PFlip) => q.2.gid = e.2.gid).length < e.2.gsize

/-- The FLIP breaks R198 against a group in formation, or R188 on a clone. -/
def flipJoinBad (s : State) (c : Cmd) : Bool :=
  ((s.head (flHead c)).role = 2 && flEntries c ≠ 0) ||
  (flGroup c ≠ 0 && (s.forming c.fn (flGroup c)).any fun e => e.2.gsize ≠ flGsize c || e.1 = flHead c)

/-- MALFORMED (R186, R188, R198). -/
def flipMalformed (s : State) (c : Cmd) : Bool :=
  let es := flLayers c
  let on := es.filter (·.enable)
  flEntries c > 8 || flHead c > 11 || flNight c = 1 || !c.z 10 11 5 || !c.z 10 28 4 || !c.zw 13 15 ||
  (flGroup c ≠ 0 && !(2 ≤ flGsize c && flGsize c ≤ 12)) ||
  (es.map (·.slot)).eraseDups.length ≠ es.length || (on.map (·.z)).eraseDups.length ≠ on.length ||
  !on.all entryOk ||
  ((List.range (flEntries c)).any fun k => c.b (entryAt k) 6 && !entryZero c k) ||
  flipJoinBad s c

/-- DENIED (R187). -/
def flipDenied (s : State) (c : Cmd) : Bool :=
  let h := flHead c
  let fn := c.fn.val
  let g := (s.fnc fn).grant
  let es := flLayers c
  !g.layerRight.testBit h ||
  (es.any fun e => !g.slotMask.testBit e.slot || (if mantleOf h = 10 then e.slot ≥ 32 else e.slot < 32)) ||
  (es.any fun e => e.enable && e.wait && !(e.fence < g.fences)) ||
  (flNight c ≠ 0 && !g.headOwn.testBit h) ||
  (es.any fun e => e.enable && ((e.bcs && !e.lineLock && !s.accepts fn 3) || (e.lineLock && !s.accepts fn 8))) ||
  (flGroup c ≠ 0 && !s.accepts fn 9)

/-- NO_RESOURCE (R188, R189). -/
def flipNores (s : State) (c : Cmd) : Bool := (s.head (flHead c)).role = 0 || (s.head (flHead c)).pend.length ≥ 16

/-- FLIP_TIMEOUT in effect, in ns (MNT_LATCH_CFG). -/
def flipLimit (d : Head) : Nat :=
  let f := fld d.latchCfg 16 16
  (if f = 0 || f > 60000 then 1000 else f) * ms

/-- A FLIP reaches Mantle and is pending (R189, R198). -/
def pendFlip (s : State) (f : Flight) : State :=
  let c := f.cmd
  let h := flHead c
  if flipJoinBad s c then complete s f.id stMalformed noPay
  else
    let gid := match (s.forming c.fn (flGroup c)).head? with
      | some e => e.2.gid
      | none => f.id
    s.modHead h fun d => { d with pend := d.pend ++ [{
      flight := f.id, fn := c.fn, arrive := s.dt, limit := s.dt + flipLimit d, entries := flLayers c, replace := c.b 10 8
      night := flNight c, group := flGroup c, gsize := flGsize c, gid := gid, target := c.d 11 }] }

/-- FLIP (R186-R189, R198). -/
def specFlip : OpSpec :=
  { op := 0x0200, engine := some 2, chain := fun c => 1 + flEntries c, malformed := flipMalformed, denied := flipDenied
    nores := flipNores, isl := fun _ c => mantleOf (flHead c), run := pendFlip }

/-- FLIP starts. -/
def execFlip (t : Time) (c : Cmd) (s : State) : Answer := .next (startCmd (s.at t) specFlip c)

/-- A pending flip times out at this instant (R195, R200, R45): its limit has passed, it has not been let go with its
group, and it is not ready now. -/
def State.flipExpired (s : State) (p : PFlip) : Bool :=
  s.dt ≥ p.limit && !p.timedOut &&
  (if p.group = 0 then !s.flipReady p true false else !p.go && !s.groupReady p true)

/-- FLIP_TIMEOUT: a flip that expires takes the members of its group with it (R200); each completes at the next
blanking start of its head. -/
def execFlipTimeout (t : Time) (h : Fin 12) (s : State) : Answer :=
  let s := s.at t
  if !s.up (mantleOf h) then .next s
  else
    let gone := (s.head h).pend.filter s.flipExpired
    let hit := fun (p : PFlip) => gone.any fun q => q.flight = p.flight || (q.group ≠ 0 && q.fn = p.fn && q.group = p.group && q.gid = p.gid)
    .next ((List.range 12).foldl (fun s k => s.modHead k fun d => { d with
      pend := d.pend.map fun p => if hit p then { p with timedOut := true } else p }) s)

/-! ### Fetch (R165, R171, R174, R178, R179, R184, R358, R360) -/

/-- The output line that passes the tail of a head now, at the trimmed pixel clock (R139). -/
def State.lineNow (s : State) (h : Nat) : Nat :=
  let m := modeOf (s.head h).mode
  (s.dt - (s.head h).frameDt) * m.khz * (1000000 + (s.head h).trim).toNat / (m.ht * 1000000000000)

/-- The head whose running frame shows a slot, and the layer as that frame's latch left it (R180). -/
def State.shownBy (s : State) (n : Nat) : Option (Nat × PicLayer) :=
  ((s.slotOf n).head :: List.range 12).findSome? fun h =>
    if s.framing h then ((s.head h).pic.layers.find? (·.slot = n)).map fun p => (h, p) else none

/-- The source lines of a layer's crop that the uncovered lines of the frame need (R174, R178). -/
def PicLayer.neededLines (p : PicLayer) (m : Mode) : List Nat := linesFor p.layer (p.bareLines m)

/-- The block rows of a BCS surface that hold lines of the crop. -/
def blockRows (l : Layer) (ys : List Nat) : List Nat := (ys.map fun (y : Nat) => (l.srcY + y) / 4).eraseDups

/-- The blocks of a block row that the clipped destination needs (R174). -/
def rowBlocks (l : Layer) (m : Mode) (row : Nat) : List Nat :=
  let c := l.cols m
  (List.range ((l.srcX + c.2) / 16 - (l.srcX + c.1) / 16 + 1)).map fun i =>
    row * ceilDiv l.pitch 16 + (l.srcX + c.1) / 16 + i

/-- The ranges of the issuer's memory that the fetch of one line, or of one block row, reads. -/
def lineReads (l : Layer) (m : Mode) (y : Nat) : List (Nat × Nat) :=
  let c := l.cols m
  let last := (l.srcX + l.srcW - 1) / 2
  let lo := (pixelReach l.format (l.srcX + c.1) last).1
  let hi := pixelReach l.format (l.srcX + c.2) last
  [(l.base + (l.srcY + y) * l.pitch + lo, hi.1 + hi.2 - lo)]
def rowReads (s : State) (fn : Nat) (l : Layer) (m : Mode) (row : Nat) : List (Nat × Nat) :=
  (rowBlocks l m row).flatMap fun b => [(l.hdrBase + 4 * b, 4), (l.base + 256 * b, payloadLen s fn l b)]

/-- The ranges that the fetch of a layer for a frame reads, line by line or block row by block row. -/
def layerReads (s : State) (m : Mode) (p : PicLayer) : List (List (Nat × Nat)) :=
  if p.layer.bcs then (blockRows p.layer (p.neededLines m)).map (rowReads s p.fn p.layer m)
  else (p.neededLines m).map (lineReads p.layer m)

/-- Lines fetched and skipped by the fetch of a layer for a frame (MNT_SLOT_FETCH). -/
def fetchLines (m : Mode) (p : PicLayer) : Nat × Nat :=
  let l := p.layer
  let need := p.neededLines m
  if l.bcs then
    let rows := (blockRows l need).length
    (4 * rows, 4 * ((l.srcY + l.srcH - 1) / 4 - l.srcY / 4 + 1 - rows))
  else (need.length, l.srcH - need.length)

/-- Blocks that the fetch of a layer decodes as transparent black (R171). -/
def badBlocks (s : State) (m : Mode) (p : PicLayer) : Nat :=
  if p.layer.bcs then
    ((blockRows p.layer (p.neededLines m)).flatMap fun r =>
      (rowBlocks p.layer m r).filter fun b => (layerBlock s p.fn p.layer b).isNone).length
  else 0

/-- The lines or block rows of a fetch of which some part lies beyond the mapped part of the issuer's memory (R165). -/
def beyondReads (s : State) (m : Mode) (p : PicLayer) : Nat :=
  ((layerReads s m p).filter fun rs => rs.any fun r => r.2 ≠ 0 && !s.inMem p.fn r.1 r.2).length

/-- A line-locked layer misses a ring line for an output line (R183, R184). -/
def State.ringMissed (s : State) (h : Nat) (p : PicLayer) (y : Nat) : Bool :=
  let l := p.layer
  (l.span (modeOf (s.head h).mode) y).isSome && (linesFor l [y]).any fun r => (s.ringLine h l.csi (l.srcY + r) y).isNone

/-- The reads of a layer's fetch, through the memory-side cache: corrections, and a freeze on an uncorrectable word
(R358, R360). -/
def fetchReads (s : State) (m : Mode) (p : PicLayer) : State :=
  (layerReads s m p).flatten.foldl (fun s r => readRange s p.fn r.1 r.2) s

/-- LAYER_FETCH: the fetch of a memory layer for the running frame, or of a line-locked layer for the line at hand. -/
def execLayerFetch (t : Time) (slot : Fin 64) (s : State) : Answer :=
  let s := s.at t
  match s.shownBy slot with
  | none => .next s
  | some (h, p) =>
    let m := modeOf (s.head h).mode
    if p.layer.lineLock then
      if s.ringMissed h p (s.lineNow h) then .next (s.modSlot slot fun x => { x with ringMiss := satInc x.ringMiss 0xFFFF })
      else .next s
    else
      let n := fetchLines m p
      let held := s.perfHeld (mantleOf h)
      .next ((fetchReads s m p).modSlot slot fun x => { x with
        fetched := if held then x.fetched else n.1 % 65536, skipped := if held then x.skipped else n.2 % 65536
        bcsErr := satAdd x.bcsErr (badBlocks s m p) 0xFFFF, beyond := x.beyond + beyondReads s m p })

end Sys2Proof.Machine
end

