-- ==== Sys2Proof/Machine/Touch.lean ====
section
/-! DEFINITION. Chapter 12: panel frames and the touch processing chain (R474-R487), self-capacitance objects
(R488-R491), the baseline (R492-R496), TOUCH_CONFIG (R497-R500). -/

namespace Sys2Proof.Machine

/-! ### Holders and reports -/

/-- The holder of a panel or an object: the function whose record names it. -/
def State.panelHolder (s : State) (p : Nat) : Option Nat :=
  (List.range 64).find? fun i => (i < 2 || (s.fnc i).state ≠ 0) && (s.fnc i).grant.tpMask.testBit p
def State.objHolder (s : State) (o : Nat) : Option Nat :=
  (List.range 64).find? fun i => (i < 2 || (s.fnc i).state ≠ 0) && (s.fnc i).grant.scMask.testBit o

/-- Reports of a panel go out (TOUCH_CONFIG.ENABLE, R500). -/
def Panel.reports (x : Panel) : Bool := x.holder.isSome && (x.cfg.map (·.enable)).getD false
def ScObj.reports (x : ScObj) : Bool := x.holder.isSome && (x.cfg.map (·.enable)).getD false

/-- UNVERIFIED of every report (R496). -/
def unverified : Nat := 2 ^ 15

/-- TOUCH_CONTACT (Table 12.5): `what` 0 DOWN, 1 MOVE, 2 UP; `extra` LOST or RECAL; `peak` the blob's peak f, a free
value at an UP, which has no blob. An UP carries the last position, be it reported or not (R485). -/
def contactEvent (s : State) (p : Nat) (c : Contact) (what extra peak : Nat) (stamp : Time) : State :=
  let x := s.panel p
  if !x.reports then s
  else match x.holder with
    | some fn => sendEventAt s fn 0x0580
        (p + 2 ^ 2 * c.id + 2 ^ 6 * what + 2 ^ 8 * b2n c.glove + extra + unverified + 2 ^ 16 * (min peak 65535))
        (if what = 2 then c.lastX else c.x) (if what = 2 then c.lastY else c.y) stamp
    | none => s

/-- TOUCH_LINK to the holder of a panel. -/
def touchLink (s : State) (p lost : Nat) : State :=
  sendTo s 14 (s.panelHolder p) 0x0584 p lost (s.panel p).rejected

/-! ### The chain (Table 12.1) -/

/-- An arithmetic shift right: division rounding down. -/
def shr (v : Int) (n : Nat) : Int := v / (2 : Int) ^ n

/-- Thresholds of R480: T_on and the level of leaving. -/
def TouchCfg.on (c : TouchCfg) : Int := if c.glove then c.gloveT else c.thr
def TouchCfg.off (c : TouchCfg) : Int := 3 * c.on / 4

/-- Two nodes are 8-neighbours, or no more than `k` nodes apart, in a panel of `cols` columns. -/
def near (cols k a b : Nat) : Bool :=
  (a / cols ≤ b / cols + k && b / cols ≤ a / cols + k) && (a % cols ≤ b % cols + k && b % cols ≤ a % cols + k)

/-- Grow a set of nodes by its touched neighbours until it is stable, at most `k` times (step 4). -/
def growBlob (cols : Nat) (touched : List Nat) : Nat → List Nat → List Nat
  | 0, b => b
  | k + 1, b =>
    let b' := touched.filter fun n => b.any (near cols 1 n)
    if b'.length = b.length then b else growBlob cols touched k b'

/-- The 8-connected sets of touched nodes (step 4). -/
def blobsOf (cols : Nat) : Nat → List Nat → List (List Nat)
  | 0, _ => []
  | _, [] => []
  | k + 1, n :: r =>
    let b := growBlob cols (n :: r) (r.length + 1) [n]
    b :: blobsOf cols k ((n :: r).filter fun m => !b.contains m)

/-- The node of highest f, the lowest row and column first. -/
def peakOf (f : Nat → Int) (b : List Nat) : Nat :=
  b.foldl (fun m n => if f n > f m || (f n = f m && n < m) then n else m) (b.headD 0)

/-- A kept blob: its nodes, its peak's f, whether it is a glove contact, and its centroid (R483) over `den`. -/
structure Blob where
  nodes : List Nat
  peak  : Int
  glove : Bool
  cxn   : Int
  cyn   : Int
  den   : Nat

/-- The centroid over the 3 x 3 nodes around a peak; with no weight at all it is a free one near the peak. -/
def centroid (rows cols : Nat) (f : Nat → Int) (fr n : Nat) : Int × Int × Nat :=
  let r0 : Int := (n / cols : Nat)
  let c0 : Int := (n % cols : Nat)
  let around := (List.range (rows * cols)).filter (near cols 1 n)
  let w := fun m => (max (f m) 0)
  let den := around.foldl (fun a m => a + w m) 0
  if den = 0 then (2 * c0 + (fr % 5 : Nat) - 2, 2 * r0 + (fr / 5 % 5 : Nat) - 2, 2)
  else (around.foldl (fun a m => a + w m * (m % cols : Nat)) 0, around.foldl (fun a m => a + w m * (m / cols : Nat)) 0, den.toNat)

/-- X and Y of a centroid (R484) in 1/16 pixel of a W x H area. -/
def coords (c : TouchCfg) (W H : Nat) (b : Blob) : Nat × Nat :=
  let u0 := (2 * b.cxn + b.den, 2 * (b.den : Int) * c.cols)
  let v0 := (2 * b.cyn + b.den, 2 * (b.den : Int) * c.rows)
  let u1 := if c.swapXy then v0 else u0
  let v1 := if c.swapXy then u0 else v0
  let u := if c.flipX then (u1.2 - u1.1, u1.2) else u1
  let v := if c.flipY then (v1.2 - v1.1, v1.2) else v1
  let at_ := fun (n : Nat) (q : Int × Int) => min (16 * n * q.1 / q.2).toNat (16 * n - 1)
  (at_ W u, at_ H v)

/-- The squared distance of a contact and a blob, as a fraction. -/
def dist2 (c : Contact) (b : Blob) : Nat × Nat :=
  let dx := c.cxn * b.den - b.cxn * c.cd
  let dy := c.cyn * b.den - b.cyn * c.cd
  ((dx * dx + dy * dy).toNat, (c.cd * b.den) * (c.cd * b.den))

/-- Put a candidate pair in its place by distance; among equals the earlier stays first. -/
def putPair (x : (Nat × Nat) × Nat × Nat) : List ((Nat × Nat) × Nat × Nat) → List ((Nat × Nat) × Nat × Nat)
  | [] => [x]
  | y :: r => if x.1.1 * y.1.2 < y.1.1 * x.1.2 then x :: y :: r else y :: putPair x r

/-- The matches of R485: pairs of a contact's and a blob's place in their lists. -/
def matchBlobs (jump : Nat) (cs : List Contact) (bs : List Blob) : List (Nat × Nat) :=
  let pairs := (cs.zipIdx).flatMap fun (c : Contact × Nat) => (bs.zipIdx).filterMap fun (b : Blob × Nat) =>
    let d := dist2 c.1 b.1
    if d.1 ≤ jump * jump * d.2 then some (d, c.2, b.2) else none
  (pairs.foldl (fun l x => putPair x l) []).foldl (fun (m : List (Nat × Nat)) x =>
    if m.any fun e => e.1 = x.2.1 || e.2 = x.2.2 then m else m ++ [x.2]) []

/-- The nodes after steps 1 to 3: delta, filter value, touched state. -/
def stepNode (c : TouchCfg) (n : Node) (raw : Nat) : Node × Int :=
  let d : Int := if n.st = 0 then 0 else n.base - raw
  let f := if c.shift = 0 then d else n.f + shr (d - n.f) c.shift
  let t := if n.tch then decide (f ≥ c.off) else decide (f ≥ c.on)
  ({ n with f := f, tch := t, raw := raw, wait := n.wait && t }, d)

/-- The baseline of a channel after a scan (Table 12.2, R493): `water` near a blob rejected as water. -/
def stepBase (c : TouchCfg) (n : Node) (d : Int) (touched water : Bool) : Node :=
  let low := d < -(c.neg : Int)
  match n.st with
  | 0 => { n with base := n.raw, st := 1, neg := 0 }
  | 1 =>
    if touched then { n with st := 2 }
    else if low && !water then { n with st := 3, neg := 1 }
    else { n with base := n.base + shr (n.raw - n.base) c.drift }
  | 2 => if touched then n else { n with st := 1 }
  | _ =>
    if !low then { n with st := 1, neg := 0 }
    else if water then { n with neg := 0 }
    else if n.neg + 1 ≥ 4 then { n with base := n.raw, st := 1, neg := 0 }
    else { n with neg := n.neg + 1 }

/-- A contact as a blob leaves it. -/
def contactOf (c : TouchCfg) (W H : Nat) (b : Blob) (id : Nat) (down : Time) : Contact :=
  let q := coords c W H b
  { id := id, cxn := b.cxn, cyn := b.cyn, cd := b.den, x := q.1, y := q.2, lastX := q.1, lastY := q.2, down := down, glove := b.glove, nodes := b.nodes }

/-- The lowest free contact ID from 0 to 9. -/
def freeId (cs : List Contact) : Option Nat := (List.range 10).find? fun i => !cs.any (·.id = i)

/-- Step 9 (R485, R486): match, report, and keep the contacts. -/
def track (s : State) (p : Nat) (c : TouchCfg) (bs : List Blob) (stamp : Time) : State :=
  let m := modeOf (s.head c.head).mode
  let cs := (s.panel p).contacts
  let ms := matchBlobs c.jump cs bs
  let setC := fun (s : State) (l : List Contact) => s.modPanel p fun x => { x with contacts := l }
  let s1 := (cs.zipIdx).foldl (fun s (e : Contact × Nat) =>
    let k := e.1
    let rest := (s.panel p).contacts.filter (·.id ≠ k.id)
    match ms.find? fun q => q.1 = e.2 with
    | some q =>
      match bs[q.2]? with
      | some b =>
        let n := contactOf c m.w m.h b k.id k.down
        let moved := (n.x : Int) - k.x ≥ 16 || (k.x : Int) - n.x ≥ 16 || (n.y : Int) - k.y ≥ 16 || (k.y : Int) - n.y ≥ 16
        let n1 : Contact := { n with held := k.held, x := if moved then n.x else k.x, y := if moved then n.y else k.y }
        let s2 := setC s (rest ++ [n1])
        if moved then contactEvent s2 p n1 1 0 b.peak.toNat stamp else s2
      | none => s
    | none =>
      if k.miss = 0 then setC s (rest ++ [{ k with miss := 1 }])
      else contactEvent (setC s.drawn rest) p k 2 0 (s.free % 65536) stamp) s
  (bs.zipIdx).foldl (fun s (e : Blob × Nat) =>
    if ms.any fun q => q.2 = e.2 then s
    else match freeId (s.panel p).contacts with
      | some id =>
        let n := contactOf c m.w m.h e.1 id stamp
        contactEvent (setC s ((s.panel p).contacts ++ [n])) p n 0 0 e.1.peak.toNat stamp
      | none => s) s1

/-- Put a blob in its place by peak, highest first. -/
def putBlob (f : List Nat → Int) (b : List Nat) : List (List Nat) → List (List Nat)
  | [] => [b]
  | x :: r => if f b > f x then b :: x :: r else x :: putBlob f b r

/-- Steps 1 to 10 on the counts of a valid frame (Table 12.1). -/
def processFrame (s : State) (p : Nat) (c : TouchCfg) (raw : Nat → Nat) (stamp : Time) : State :=
  let ids := List.range (c.rows * c.cols)
  let x := s.panel p
  let st := ids.map fun i => stepNode c (look x.nodes i {}) (raw i)
  let node := fun i => (st.getD i ({}, 0)).1
  let d := fun i => (st.getD i ({}, 0)).2
  let f := fun i => (node i).f
  let touched := ids.filter fun i => (node i).tch
  let blobs := blobsOf c.cols touched.length touched
  let isWater := fun (b : List Nat) => c.water && (b.length ≥ c.area ||
    (ids.filter fun i => !b.contains i && d i ≤ -(c.neg : Int) && b.any (near c.cols 1 i)).length ≥ 3)
  let water := blobs.filter isWater
  let peak := fun (b : List Nat) => f (peakOf f b)
  let glove := fun (b : List Nat) => c.glove && peak b < c.thr
  let good := (blobs.filter fun b => !isWater b && !(glove b && b.length < 2)).foldl (fun l b => putBlob peak b l) []
  let kept := (good.take 10).filter fun b => !b.any fun i => (node i).wait
  let bs := kept.map fun b =>
    let q := centroid c.rows c.cols f s.free (peakOf f b)
    ({ nodes := b, peak := peak b, glove := glove b, cxn := q.1, cyn := q.2.1, den := q.2.2 } : Blob)
  let s1 := track s.drawn p c bs stamp
  s1.modPanel p fun x => { x with
    water := satAdd x.water water.length 0xFF, excess := satAdd x.excess (good.length - 10) 0xFF
    nodes := ids.map fun i =>
      (i, stepBase c (node i) (d i) (node i).tch (water.any fun b => b.any (near c.cols 2 i))) }

/-! ### Frames -/

/-- A little-endian count of a frame. -/
def rawCount (b : List Byte) (i : Nat) : Nat := (b.getD (8 + 2 * i) 0).toNat + 256 * (b.getD (9 + 2 * i) 0).toNat

/-- A frame is valid for a panel's settings (R475, R476). -/
def frameOk (c : TouchCfg) (b : List Byte) : Bool :=
  let n := 12 + 2 * c.rows * c.cols
  (b.getD 0 0).toNat = 0x5A && b.length = n && (b.getD 2 0).toNat = c.rows && (b.getD 3 0).toNat = c.cols &&
  leNat (b.drop (n - 4)) = crc32c (b.take (n - 4))

/-- The settings of a panel from its next valid frame on. -/
def Panel.coming (x : Panel) : Option TouchCfg := (x.pend.getLast?.map (·.2)).orElse fun _ => x.cfg

/-- Settings that waited take effect and their commands complete (R498, R500). -/
def takeConfig (s : State) (p : Nat) (c : TouchCfg) : State :=
  let x := s.panel p
  let resized := match x.cfg with
    | some o => o.rows ≠ c.rows || o.cols ≠ c.cols
    | none => true
  if x.pend = [] then s
  else completeAll (s.modPanel p fun x => { x with
    cfg := some c, pend := [], holder := some c.fn, nodes := if resized then [] else x.nodes }) (x.pend.map (·.1)) stOk noPay

/-- A raw frame goes to the driver's buffer (R499). -/
def rawFrame (s : State) (p : Nat) (c : TouchCfg) (b : List Byte) (seq : Nat) : State :=
  match (s.panel p).holder with
  | some fn =>
    if !c.raw then s
    else
      let i := seq % max c.rawBufs 1
      let data := b.take (8 + 2 * c.rows * c.cols)
      sendEvent (memWrite s fn (c.rawBase + i * (ceilDiv data.length 64 * 64)) data) 14 fn 0x0582 p i seq
  | none => s

/-- TOUCH_FRAME (R474-R487, R492, R498, R499). -/
def execTouchFrame (t : Time) (p : Fin 4) (bytes : List Byte) (s : State) : Answer :=
  let s := s.at t
  let x := s.panel p
  if !s.up 14 then .next s
  else match x.coming with
    | none => .next (s.modPanel p fun x => { x with rejected := satInc x.rejected 0xFF })
    | some c =>
      if !frameOk c bytes then .next (s.modPanel p fun x => { x with rejected := satInc x.rejected 0xFF })
      else
        let seq := (bytes.getD 1 0).toNat
        let stamp := s.stamp 14
        let gap := x.lastAt ≠ 0 && seq ≠ (x.seq + 1) % 256
        let s1 := takeConfig s p c
        let s2 := s1.modPanel p fun x => { x with
          link := true, seq := seq, frames := (x.frames + 1) % 65536, lastAt := s.dt
          gaps := if gap then satInc x.gaps 0xFF else x.gaps }
        let s3 := if x.link then s2 else touchLink s2 p 0
        .next (rawFrame (processFrame s3 p c (rawCount bytes) stamp) p c bytes seq)

/-- PANEL_LOST (R478): no valid frame for 100 ms. -/
def execPanelLost (t : Time) (p : Fin 4) (s : State) : Answer :=
  let s := s.at t
  let x := s.panel p
  if !s.up 14 || !x.link || s.dt < x.lastAt + 100 * ms then .next s
  else
    let s1 := x.contacts.foldl (fun s c => contactEvent s.drawn p c 2 (2 ^ 9) (s.free % 65536) (s.stamp 14)) s
    .next (touchLink (s1.modPanel p fun x => { x with link := false, contacts := [] }) p 1)

/-! ### Self-capacitance objects -/

/-- SC_OBJECT (Table 12.5). -/
def objEvent (s : State) (o what recal : Nat) : State :=
  let x := s.obj o
  if !x.reports then s
  else sendTo s 14 x.holder 0x0583 (o + 2 ^ 5 * what + 2 ^ 7 * recal + unverified) x.pos x.delta

/-- The nearest integer to a fraction with a positive denominator, halves up. -/
def roundFrac (n d : Int) : Int := (2 * n + d) / (2 * d)

/-- The position of a touched slider or wheel (R490); with no positive delta it is free. -/
def objPosition (kind fr : Nat) (ds : List Int) : Nat :=
  let n := ds.length
  let d := fun (i : Int) => if 0 ≤ i && i < n then max (ds.getD i.toNat 0) 0 else 0
  let k := (List.range n).foldl (fun m i => if ds.getD i 0 > ds.getD m 0 then i else m) 0
  let lo := if kind = 3 then d (((k : Int) - 1 + n) % n) else d ((k : Int) - 1)
  let hi := if kind = 3 then d (((k : Int) + 1) % n) else d ((k : Int) + 1)
  let sum := lo + d k + hi
  if kind = 1 then 0
  else if sum = 0 then fr % 1024
  else
    let p := k * sum + hi - lo
    if kind = 3 then (roundFrac (1024 * p) (sum * n) % 1024).toNat
    else (clampI (roundFrac (1023 * p) (sum * (n - 1))) 0 1023).toNat

/-- The reported position has moved by 2 steps or more (R491); on a wheel the steps wrap. -/
def posMoved (kind a b : Nat) : Bool :=
  let up := (b + 1024 - a) % 1024
  if kind = 3 then 2 ≤ up && up ≤ 1022 else a + 2 ≤ b || b + 2 ≤ a

/-- One scan of an object (R489-R492, R498). -/
def scanObj (raw : Nat → Nat) (s : State) (o : Nat) : State :=
  let x0 := s.obj o
  let s0 : State := match x0.pend.getLast? with
    | some e => completeAll (s.modObj o fun x => { x with cfg := some e.2, pend := [], holder := some e.2.fn })
        (x0.pend.map (·.1)) stOk noPay
    | none => s
  let x : ScObj := s0.obj o
  let nodes := x.elec.map fun e => (e, look s0.sense.elecs e {})
  let setE := fun (s : State) (e : Nat) (n : Node) => { s with sense := { s.sense with elecs := put s.sense.elecs e n } }
  if x.kind = 0 then s0
  else match x.cfg with
    | none => nodes.foldl (fun s (e : Nat × Node) =>
        if e.2.st = 0 then setE s e.1 { e.2 with base := (raw e.1 : Nat), st := 1, raw := (raw e.1 : Nat) } else s) s0
    | some c =>
      let ds := nodes.map fun (e : Nat × Node) => if e.2.st = 0 then (0 : Int) else e.2.base - (raw e.1 : Nat)
      let top := ds.foldl max (ds.headD 0)
      let touched := if x.touched then decide (top ≥ 3 * (c.thr : Int) / 4) else decide (top ≥ c.thr)
      let released := decide (top < 3 * (c.thr : Int) / 4)
      let s1 := (nodes.zip ds).foldl (fun s (e : (Nat × Node) × Int) =>
        setE s e.1.1 (stepBase c { e.1.2 with raw := (raw e.1.1 : Nat), tch := touched } e.2 touched false)) s0
      let s2 := s1.modObj o fun x => { x with touched := touched, delta := min top.toNat 65535, wait := x.wait && !released }
      if x.wait then s2
      else if touched && !x.touched then
        objEvent ((s2.modObj o fun y => { y with pos := objPosition x.kind s.free ds, down := s.stamp 14, held := false }).drawn) o 0 0
      else if !touched && x.touched then objEvent s2 o 2 0
      else if touched && x.kind ≠ 1 && posMoved x.kind x.pos (objPosition x.kind s.free ds) then
        objEvent ((s2.modObj o fun y => { y with pos := objPosition x.kind s.free ds }).drawn) o 1 0
      else s2

/-- SC_SCAN: one scan cycle of the electrodes. -/
def execScScan (t : Time) (raw : Vector (Fin 65536) 48) (s : State) : Answer :=
  let s := s.at t
  if !s.up 14 then .next s
  else .next ((List.range 24).foldl (scanObj fun e => (raw.toList.getD e 0).val) s)

/-! ### Holds (R494, R495) -/

/-- LONG_HOLD and MAX_HOLD in ns. -/
def TouchCfg.longNs (c : TouchCfg) : Nat := (if c.longH = 0 then 300 else c.longH) * 100 * ms
def TouchCfg.maxNs (c : TouchCfg) : Nat := c.maxH * 100 * ms

/-- TOUCH_LONG_HOLD: the hold window of a contact or object closes. -/
def execTouchLongHold (t : Time) (isObj : Bool) (index : Fin 24) (contact : Fin 10) (s : State) : Answer :=
  let s := s.at t
  if !s.up 14 then .next s
  else if isObj then
    let x := s.obj index
    match x.cfg with
    | some c =>
      if x.touched && !x.held && !x.wait && s.dt ≥ x.down + c.longNs then
        let s1 := s.modObj index fun x => { x with held := true }
        .next (if x.reports then sendTo s1 14 x.holder 0x0581 (1 + 2 * index.val) 0 ((s.dt - x.down) / ms) else s1)
      else .next s
    | none => .next s
  else
    let x := s.panel index
    match x.cfg, x.contacts.find? (·.id = contact.val) with
    | some c, some k =>
      if !k.held && s.dt ≥ k.down + c.longNs then
        let s1 := s.modPanel index fun x => { x with
          contacts := x.contacts.map fun e => if e.id = k.id then { e with held := true } else e }
        .next (if x.reports then sendTo s1 14 x.holder 0x0581 (2 * index.val) k.id ((s.dt - k.down) / ms) else s1)
      else .next s
    | _, _ => .next s

/-- A channel recalibrated to its last count, not reported until released. -/
def Node.recal (n : Node) : Node := { n with base := n.raw, st := 1, neg := 0, wait := true }

/-- MAX_HOLD_RECAL (R495). -/
def execMaxHoldRecal (t : Time) (isObj : Bool) (index : Fin 24) (contact : Fin 10) (s : State) : Answer :=
  let s := s.at t
  if !s.up 14 then .next s
  else if isObj then
    let x := s.obj index
    match x.cfg with
    | some c =>
      if x.touched && !x.wait && c.maxH ≠ 0 && s.dt ≥ x.down + c.maxNs then
        let s1 := { s with sense := { s.sense with elecs := x.elec.foldl (fun t e => upd t e {} Node.recal) s.sense.elecs } }
        .next (objEvent (s1.modObj index fun x => { x with touched := false, wait := true }) index 2 1)
      else .next s
    | none => .next s
  else
    let x := s.panel index
    match x.cfg, x.contacts.find? (·.id = contact.val) with
    | some c, some k =>
      if c.maxH ≠ 0 && s.dt ≥ k.down + c.maxNs then
        let s1 := contactEvent s.drawn index k 2 (2 ^ 10) (s.free % 65536) (s.stamp 14)
        .next (s1.modPanel index fun x => { x with
          contacts := x.contacts.filter (·.id ≠ k.id), nodes := k.nodes.foldl (fun t n => upd t n {} Node.recal) x.nodes })
      else .next s
    | _, _ => .next s

/-! ### TOUCH_CONFIG (Table 12.3) -/

def tcObj (c : Cmd) : Bool := c.f 10 0 2 = 1
def tcIndex (c : Cmd) : Nat := c.f 10 2 5

/-- The settings a command gives. -/
def tcOf (c : Cmd) : TouchCfg :=
  { fn := c.fn.val, enable := c.b 10 7, head := c.f 10 8 4, swapXy := c.b 10 12, flipX := c.b 10 13, flipY := c.b 10 14
    glove := c.b 10 15 && !tcObj c, water := c.b 10 16 && !tcObj c, raw := c.b 10 17 && !tcObj c
    cols := c.f 11 0 7, rows := c.f 11 8 6, thr := c.f 12 0 16, gloveT := c.f 12 16 16, neg := c.f 13 0 16
    area := c.f 13 16 8, jump := c.f 13 24 4, shift := c.f 13 28 4, longH := c.f 14 0 16, maxH := c.f 14 16 16
    drift := c.f 15 0 4, rawBase := c.d 16, rawBufs := c.f 18 0 4 }

/-- R497, MALFORMED. -/
def tcMalformed (c : Cmd) : Bool :=
  let x := tcOf c
  let long := if x.longH = 0 then 300 else x.longH
  c.f 10 0 2 > 1 || tcIndex c > (if tcObj c then 23 else 3) || !c.z 10 18 14 || !c.z 11 7 1 || !c.z 11 14 18 ||
  !c.z 15 4 28 || !c.z 18 4 28 || !c.zw 19 31 ||
  x.thr = 0 || x.neg = 0 || x.area < 2 || x.jump = 0 || x.shift > 3 || x.longH > 36000 ||
  (x.maxH ≠ 0 && (x.maxH < long || x.maxH > 36000)) || x.drift < 4 || x.drift > 12 ||
  (!tcObj c && (x.cols < 4 || x.cols > 80 || x.rows < 4 || x.rows > 48 || x.head > 11 ||
    (x.glove && (x.gloveT = 0 || x.gloveT ≥ x.thr)) ||
    (x.raw && (x.rawBase % 64 ≠ 0 || x.rawBufs < 2 || x.rawBufs > 8))))

/-- R497, DENIED. -/
def tcDenied (s : State) (c : Cmd) : Bool :=
  let g := (s.fnc c.fn).grant
  let x := tcOf c
  if tcObj c then !g.scMask.testBit (tcIndex c)
  else !g.tpMask.testBit (tcIndex c) || !(g.headOwn.testBit x.head || g.layerRight.testBit x.head) || (x.raw && !s.accepts c.fn 14)

def specTouchConfig : OpSpec :=
  { op := 0x0502, engine := some 5, chain := fun _ => 2, malformed := fun _ c => tcMalformed c, denied := tcDenied
    isl := fun _ _ => 14
    run := fun s f =>
      if tcObj f.cmd then s.modObj (tcIndex f.cmd) fun x => { x with pend := x.pend ++ [(f.id, tcOf f.cmd)] }
      else s.modPanel (tcIndex f.cmd) fun x => { x with pend := x.pend ++ [(f.id, tcOf f.cmd)] } }

/-- TOUCH_CONFIG (R497, R498). -/
def execTouchConfig (t : Time) (c : Cmd) (s : State) : Answer := .next (startCmd (s.at t) specTouchConfig c)

/-! ### Holders that leave, load and reset -/

/-- A holder leaves ACTIVE: its reports stop (R500). -/
def releaseTouch (s : State) (fn : Nat) : State :=
  { s with sense := { s.sense with
      panels := s.sense.panels.map fun (e : Nat × Panel) => (e.1, { e.2 with holder := e.2.holder.filter (· ≠ fn) })
      objs := s.sense.objs.map fun (e : Nat × ScObj) => (e.1, { e.2 with holder := e.2.holder.filter (· ≠ fn) }) } }

/-- The objects of the image (R488). -/
def loadSense (s : State) : State :=
  match s.img with
  | some im => im.scObjects.foldl (fun s e => s.modObj e.1 fun x => { x with kind := e.2.kind.val, elec := e.2.electrodes.map (·.val) }) s
  | none => s

/-- The reset step of Sense (R516). -/
def resetSense (s : State) : State := { s with sense := {} }

end Sys2Proof.Machine
end

