-- ==== Sys2Proof/Machine/Lifecycle.lean ====
section
/-! DEFINITION. Chapter 2, the pool, the management commands and the lifecycle of a guest (R87-R107, R649-R652). -/

namespace Sys2Proof.Machine

/-! ### What a function leaves behind -/

/-- Forget the flights that no longer exist wherever an engine still lists them. -/
def prune (s : State) : State :=
  let live := fun (id : Nat) => (s.flight? id).isSome
  let s1 : State := { s with
    heads := s.heads.map fun (e : Nat × Head) => (e.1, { e.2 with
      pend := e.2.pend.filter fun p => live p.flight, configs := e.2.configs.filter live })
    mem := { s.mem with waits := s.mem.waits.filter fun w => live w.flight }
    net := { s.net with posts := s.net.posts.filter live }
    store := { s.store with queue := s.store.queue.filter live }
    audio := { s.audio with
      swaps := s.audio.swaps.filter live
      imms := s.audio.imms.filter fun e => live e.flight
      pendStr := s.audio.pendStr.filter fun e => live e.flight }
    media := { s.media with sessions := s.media.sessions.map fun (e : Nat × Session) =>
      (e.1, { e.2 with waiting := e.2.waiting.filter live }) }
    sense := { s.sense with
      panels := s.sense.panels.map fun (e : Nat × Panel) =>
        (e.1, { e.2 with pend := e.2.pend.filter fun (c : Nat × TouchCfg) => live c.1 })
      objs := s.sense.objs.map fun (e : Nat × ScObj) =>
        (e.1, { e.2 with pend := e.2.pend.filter fun (c : Nat × TouchCfg) => live c.1 }) } }
  pruneCtxs s1

/-- Abandon every unfinished command of a function: each completes with ABANDONED in its own ring (R101). -/
def abandonWork (s : State) (fn : Nat) : State :=
  prune (endAll s ((s.flights.filter fun f => f.cmd.fn.val = fn).map (·.id)) stAbandoned)

/-- A function leaves ACTIVE: Watchlamp takes over from the safety guest (R259), its touch reports stop (R500), its
haptic arms are cleared and its effects brake (R515). -/
def leaveActive (s : State) (fn : Nat) : State := releaseTouch (releaseHaptics (guestLost s fn) fn) fn

/-- The registers that a function reset returns to reset: status counts, features, queues, MSI-X table, safe-load. -/
def resetFnRegs (s : State) (fn : Nat) : State :=
  ({ s with
      queues := dropKeys s.queues fun k => k / 16 = fn
      audio := { s.audio with safe := dropKeys s.audio.safe (· = fn) } }).modFn fn fun f => { f with
    discards := 0, eventQ := 0, accept := 0, featOk := false, deciding := false, reason := 0, lost := 0
    msix := [] }

/-- The partitions a function holds by grant. -/
def State.grantParts (s : State) (fn : Nat) : List Nat :=
  maskList (s.fnc fn).grant.mpMask 16

/-- The layers of a function stop at the next latch of their heads (R97, R106). -/
def dropLayers (s : State) (fn : Nat) : State :=
  (List.range 64).foldl (fun s n =>
    if (s.slotOf n).fn = fn && (s.slotOf n).layer.enable then s.modSlot n fun x => { x with dropAt := true } else s) s

/-- A VF enters QUARANTINED (R103-R106): its work is abandoned without completions, its resources are quarantined,
its locks are torn, and the manager is told the cause. -/
def quarantine (s : State) (fn cause : Nat) : State :=
  let s0 := match (s.fnc fn).quiesce with
    | some q => complete (s.modFn fn fun f => { f with quiesce := none }) q.flight stQuarantined noPay
    | none => s
  let s1 := prune (s0.forget fun f => f.cmd.fn.val = fn)
  let s2 := leaveActive (endSecure s1 fn (cause = 2)) fn
  let s3 := setFnState s2 fn 5
  let s4 := dropLayers (dropStreams (closeSessions (clearCtxs s3 fn) fn) fn) fn
  let s5 := (s4.grantParts fn).foldl (fun s p => s.modPart p fun x => { x with state := 4 }) s4
  let s6 := tearLocks (resetFnRegs s5 fn) (· = fn) 0
  if s6.portOf fn < 2 then sendEvent s6 2 (s6.portOf fn) 4 fn cause 0 else s6

/-! ### Management commands -/

/-- The FN a management command names. -/
def mgFn (c : Cmd) : Nat := c.f 10 0 6

/-- R87, and R97 while a VF_DESTROY or VF_RELEASE of the FN is in progress. -/
def mgDenied (s : State) (c : Cmd) : Bool :=
  mgFn c < 2 || s.portOf (mgFn c) ≠ c.fn.val || (s.fnc (mgFn c)).leaving.isSome

/-- The functions that hold resources: the PFs and every VF that is not UNBOUND. -/
def State.holders (s : State) : List Nat := (List.range 64).filter fun i => i < 2 || (s.fnc i).state ≠ 0

/-- What the holders have of a resource together. -/
def State.heldSum (s : State) (f : Grant → Nat) : Nat := s.holders.foldl (fun n i => n + f (s.fnc i).grant) 0
def State.heldMask (s : State) (f : Grant → Nat) : Nat := s.holders.foldl (fun n i => n ||| f (s.fnc i).grant) 0

/-- Free heads, layer slots and so on: the resources that no grant record names (R643). -/
def State.freeMask (s : State) (f : Grant → Nat) (n : Nat) : Nat :=
  listMask ((List.range n).filter fun i => !(s.heldMask f).testBit i)

/-- Free counts (R643): queue contexts and vectors beside those of the PFs, filters beside those of the image. -/
def State.freeQueues (s : State) : Nat := 224 - s.heldSum (fun g => if g.fn < 2 then 0 else g.queues)
def State.freeVectors (s : State) : Nat := 1984 - s.heldSum (fun g => if g.fn < 2 then 0 else g.vectors)
def State.freeFilters (s : State) : Nat := 1024 - s.net.fixed.length - s.heldSum (·.filters)

/-- A partition is in the pool for a PF (R649). -/
def State.poolPart (s : State) (pf p : Nat) : Bool :=
  (s.part p).state = 2 && (s.part p).creator = pf && (s.part p).holder = pf

/-- Every 1 bit of a mask lies in another. -/
def within (a b n : Nat) : Bool := (maskList a n).all b.testBit

/-- The resources of a grant are in the pool (R89, R649). -/
def State.poolHas (s : State) (pf : Nat) (g : Grant) : Bool :=
  g.queues ≤ s.freeQueues && g.vectors ≤ s.freeVectors && g.filters ≤ s.freeFilters &&
  (maskList g.mpMask 16).all (s.poolPart pf) &&
  s.heldSum (·.fences) + g.fences ≤ 4096 && s.heldSum (·.chdShare) + g.chdShare ≤ 64 &&
  s.heldSum (·.chdCtx) + g.chdCtx ≤ 64 && s.heldSum (·.codec) + g.codec ≤ 32 &&
  s.heldSum (·.netQueues) + g.netQueues ≤ 128 &&
  within g.slotMask (s.freeMask (·.slotMask) 64) 64 && within g.csiMask (s.freeMask (·.csiMask) 8) 8 &&
  within g.hapticMask (s.freeMask (·.hapticMask) 8) 8 && within g.tpMask (s.freeMask (·.tpMask) 4) 4 &&
  within g.scMask (s.freeMask (·.scMask) 24) 24 && within g.ainMask (s.freeMask (·.ainMask) 124) 124 &&
  within g.aoutMask (s.freeMask (·.aoutMask) 96) 96

/-! ### VF_CREATE (R88-R90, R649) -/

/-- The fields of Table 02.10 out of range, or reserved and not zero. -/
def vcMalformed (c : Cmd) : Bool :=
  let g := grantOf c
  !c.z 10 6 10 || !c.z 10 20 12 || !c.z 11 16 16 || !c.z 13 24 8 || !c.z 14 6 2 || !c.z 15 28 4 || !c.z 25 19 13 ||
  !c.zw 26 31 || g.queues = 0 || g.queues > 8 || g.fences > 4096 || g.chdShare > 64 || g.chdCtx > 64 ||
  g.vectors = 0 || g.vectors > 32 || g.codec > 16 || g.netQueues > 16 || g.filters > 1024

/-- A head is a safety head of the image. -/
def State.isSafetyHead (s : State) (h : Nat) : Bool := (s.safeOf h).safety

def vcDenied (s : State) (c : Cmd) : Bool :=
  let g := grantOf c
  let ps := maskList g.mpMask 16
  mgDenied s c || (s.fnc g.fn).state ≠ 0 || !(s.fnc g.fn).sriov || g.ainMask / 2 ^ 124 ≠ 0 ||
  (maskList g.headOwn 12).any (fun h => (s.headOwner h).isSome || (s.isSafetyHead h && !s.isSafety g.fn)) ||
  ps.foldl (fun n p => n + (s.part p).usable) 0 > 2 ^ 34 ||
  ps.any fun p => (s.part p).state ≠ 0 && (s.part p).creator ≠ c.fn.val

/-- The lowest free QIDs (R60). -/
def State.freeQids (s : State) (n : Nat) : List Nat :=
  ((List.range 256).filter fun k => !s.holders.any fun i => (s.fnc i).qids.contains k).take n

/-- Take the resources of a grant record from the pool (R90). -/
def runCreate (s : State) (f : Flight) : State :=
  let g := grantOf f.cmd
  let qids := s.freeQids g.queues
  let s1 := s.modFn g.fn fun x => { x with grant := g, qids := qids }
  let s2 := (maskList g.mpMask 16).foldl (fun s p => s.modPart p fun x => { x with holder := g.fn }) s1
  let s3 : State := { s2 with fab := { s2.fab with
    fence := dropKeys s2.fab.fence (· / 4096 = g.fn), fenceAt := dropKeys s2.fab.fenceAt (· / 4096 = g.fn)
    fenceWas := dropKeys s2.fab.fenceWas (· / 4096 = g.fn) } }
  complete (setFnState (grantCtxs s3 g.fn g.chdCtx) g.fn 1) f.id stOk noPay

def specCreate : OpSpec :=
  { op := 0x0F00, engine := some 15, chain := fun _ => 2, malformed := fun _ c => vcMalformed c, denied := vcDenied
    nores := fun s c => !s.poolHas c.fn (grantOf c), run := runCreate }

/-- VF_CREATE. -/
def execVfCreate (t : Time) (c : Cmd) (s : State) : Answer := .next (startCmd (s.at t) specCreate c)

/-! ### VF_QUIESCE (R98-R102) -/

def vqAbandon (c : Cmd) : Bool := c.b 10 8

def runQuiesce (s : State) (f : Flight) : State :=
  let fn := mgFn f.cmd
  if (s.fnc fn).state = 4 then complete s f.id stOk [1, 0, 0, 0]
  else
    let n := if f.cmd.f 11 0 16 = 0 then 100 else f.cmd.f 11 0 16
    let q : Quiesce := { flight := f.id, abandon := vqAbandon f.cmd, start := s.dt, limit := s.dt + n * ms }
    let s1 := (setFnState s fn 3).modFn fn fun x => { x with quiesce := some q }
    leaveActive (if vqAbandon f.cmd then abandonWork s1 fn else s1) fn

def specQuiesce : OpSpec :=
  { op := 0x0F01, engine := some 15, malformed := fun _ c => !c.z 10 6 2 || !c.z 10 9 23 || !c.z 11 16 16 || !c.zw 12 15
    denied := fun s c => mgDenied s c || [0, 1, 3].contains (s.fnc (mgFn c)).state
    quar := fun s c => (s.fnc (mgFn c)).state = 5, run := runQuiesce }

/-- VF_QUIESCE. -/
def execVfQuiesce (t : Time) (c : Cmd) (s : State) : Answer := .next (startCmd (s.at t) specQuiesce c)

/-- QUIESCE_TIMEOUT (R100): what a drain has not finished in time is abandoned. -/
def execQuiesceTimeout (t : Time) (fn : Fin 64) (s : State) : Answer :=
  let s := s.at t
  match (s.fnc fn).quiesce with
  | some q =>
    if q.abandon || q.timedOut || s.dt < q.limit || !(s.flights.any fun f => f.cmd.fn.val = fn.val) then .next s
    else .next (abandonWork (s.modFn fn fun f => { f with quiesce := f.quiesce.map fun z => { z with timedOut := true } }) fn)
  | none => .next s

/-- QUIESCE_COMPLETE (R100-R102): no command of the FN is in flight. -/
def execQuiesceComplete (t : Time) (fn : Fin 64) (s : State) : Answer :=
  let s := s.at t
  match (s.fnc fn).quiesce with
  | some q =>
    if (s.flights.any fun f => f.cmd.fn.val = fn.val) || (s.fnc fn).state ≠ 3 then .next s
    else
      let s1 := (setFnState s fn 4).modFn fn fun f => { f with quiesce := none }
      .next (complete s1 q.flight (if q.timedOut then stTimedOut else stOk)
        [b2n (q.abandoned = 0), q.done % 2 ^ 32, q.abandoned % 2 ^ 32, 0])
  | none => .next s

/-! ### VF_DESTROY and VF_RELEASE (R97, R107) -/

/-- What the FN left in the engines is cleared, and its contexts and pipelines are gone (R107, R320). -/
def clearEngines (s : State) (fn : Nat) : State :=
  let s1 := dropPipelines (freeCtxs (clearCtxs s fn) fn) fn
  let s2 := dropStreams (closeSessions s1 fn) fn
  let mine := fun (o : Option Bind) => o.filter fun b => b.fn ≠ fn
  let off := fun (o : Option Effect) => o.filter fun e => e.fn ≠ some fn
  { s2 with
    media := { s2.media with csi := s2.media.csi.map fun (e : Nat × Csi) => (e.1, { e.2 with
      mem := mine e.2.mem, ring := mine e.2.ring, pendMem := e.2.pendMem.map mine, pendRing := e.2.pendRing.map mine }) }
    net := { s2.net with filters := s2.net.filters.filter fun (e : Nat × StreamFilter) =>
      !(e.2.valid && e.2.fn = fn) || s2.net.fixed.contains e.1 }
    sense := { s2.sense with haps := s2.sense.haps.map fun (e : Nat × Hap) => (e.1, { e.2 with
      next := off e.2.next, cur := off e.2.cur
      state := if e.2.cur.isSome && (off e.2.cur).isNone then 0 else e.2.state }) } }

/-- The resources of a leaving FN are idle: its partitions are filled, and no layer of it is enabled on a head that
makes frames. -/
def State.leaveIdle (s : State) (fn : Nat) : Bool :=
  (s.grantParts fn).all (fun p => !(s.part p).filling) &&
  (List.range 64).all fun n => !((s.slotOf n).fn = fn && (s.slotOf n).layer.enable && s.framing (s.slotOf n).head)

/-- End a VF_DESTROY or VF_RELEASE once everything of the FN is idle and filled: its resources return to the pool, its
partitions to the PF that created them (R649). -/
def tryLeave (s : State) (fn : Nat) : State :=
  match (s.fnc fn).leaving with
  | none => s
  | some (id, _, start) =>
    if !s.leaveIdle fn then s
    else
      let s1 := (s.grantParts fn).foldl (fun s p => s.modPart p fun x => { x with
        holder := x.creator, state := if x.state = 4 then 3 else x.state }) s
      let s2 := ((List.range 64).filter fun n => (s1.slotOf n).fn = fn).foldl disableSlot s1
      let s3 := resetFnRegs (endSecure (clearEngines s2 fn) fn false) fn
      let s4 := setFnState s3 fn 0
      let s5 := s4.modFn fn fun f => { Func.init fn with sriov := f.sriov, hostReset := f.hostReset }
      complete s5 id stOk [(s.dt - start) / us % 2 ^ 32, 0, 0, 0]

/-- Let every FN that leaves go on. -/
def tryLeaves (s : State) : State := (List.range 64).foldl tryLeave s

/-- The partitions of a leaving FN are filled (R97, R107) on the channels they include; one that a channel has failed out
of stays lost. -/
def runLeave (release : Bool) (s : State) (f : Flight) : State :=
  let fn := mgFn f.cmd
  let s1 := dropLayers (s.modFn fn fun x => { x with leaving := some (f.id, release, s.dt) }) fn
  let s2 := if release then s1 else tearLocks s1 (· = fn) 0
  tryLeave ((s2.grantParts fn).foldl (fun s p =>
    startFill s p (if (s.part p).state = 3 || (s.part p).gone ≠ 0 then 3 else 2) none) s2) fn

/-- Payload fields of a command that names an FN only. -/
def fnMalformed (c : Cmd) : Bool := !c.z 10 6 26 || !c.zw 11 15

def specDestroy : OpSpec :=
  { op := 0x0F02, engine := some 15, malformed := fun _ c => fnMalformed c
    denied := fun s c => mgDenied s c || [0, 2, 3].contains (s.fnc (mgFn c)).state
    quar := fun s c => (s.fnc (mgFn c)).state = 5, run := runLeave false }

def specRelease : OpSpec :=
  { op := 0x0F03, engine := some 15, malformed := fun _ c => fnMalformed c
    denied := fun s c => mgDenied s c || (s.fnc (mgFn c)).state ≠ 5 || !s.accepts c.fn 19, run := runLeave true }

/-- VF_DESTROY. -/
def execVfDestroy (t : Time) (c : Cmd) (s : State) : Answer := .next (startCmd (s.at t) specDestroy c)

/-- VF_RELEASE. -/
def execVfRelease (t : Time) (c : Cmd) (s : State) : Answer := .next (startCmd (s.at t) specRelease c)

/-- LATCH: the latch of a head; the layers it disables may be the last of an FN that leaves. -/
def execLatch (t : Time) (h : Fin 12) (s : State) : Answer :=
  let s := s.at t
  if !s.framing h then .next s else .next (tryLeaves (latchHead s h))

/-! ### POOL_QUERY (R95, Table 02.12) -/

/-- The 32 words of the report. -/
def State.poolReport (s : State) (pf : Nat) : List Nat :=
  let slots := s.freeMask (·.slotMask) 64
  let ain := s.freeMask (·.ainMask) 124
  let aout := s.freeMask (·.aoutMask) 96
  let quar := listMask ((List.range 64).filter fun i => (s.fnc i).state = 5)
  [ s.freeMask (·.headOwn) 12, lo32 slots, hi32 slots,
    (64 - s.heldSum (·.chdShare)) + 2 ^ 8 * (64 - s.heldSum (·.chdCtx)),
    listMask ((List.range 16).filter (s.poolPart pf)) + 2 ^ 16 * listMask ((List.range 16).filter fun p => (s.part p).state ≠ 0),
    (4096 - s.heldSum (·.fences)) + 2 ^ 16 * s.freeQueues,
    (32 - s.heldSum (·.codec)) + 2 ^ 8 * s.freeMask (·.csiMask) 8 + 2 ^ 16 * s.freeMask (·.hapticMask) 8 +
      2 ^ 24 * s.freeMask (·.tpMask) 4,
    s.freeMask (·.scMask) 24, lo32 ain, hi32 ain, lo32 (ain / 2 ^ 64), hi32 (ain / 2 ^ 64),
    lo32 aout, hi32 aout, lo32 (aout / 2 ^ 64), (128 - s.heldSum (·.netQueues)) + 2 ^ 16 * s.freeFilters,
    s.freeVectors, lo32 quar, hi32 quar ] ++ List.replicate 13 0

def specPool : OpSpec :=
  { op := 0x0F04, engine := some 15, malformed := fun _ c => c.d 10 % 64 ≠ 0 || !c.zw 12 15
    run := fun s f => complete (s.emit (.hostWrite f.cmd.fn (f.cmd.d 10) (s.poolReport f.cmd.fn))) f.id stOk noPay }

/-- POOL_QUERY. -/
def execPoolQuery (t : Time) (c : Cmd) (s : State) : Answer := .next (startCmd (s.at t) specPool c)

/-! ### SECURE_VF_REQUEST (R94, R529) -/

/-- The lowest free slot. -/
def State.freeSlot? (s : State) : Option Nat := (List.range 4).find? fun k => (s.mbox (8 + k)).mapped.isNone

/-- NO_RESOURCE falls when no slot is free: the spec gives it for four secure VFs, and does not say what follows while a
slot is taken by a VF that still authenticates; the model answers NO_RESOURCE then too (notes/assumptions/145.md, DESIGN
CHOICE). -/
def specSecure : OpSpec :=
  { op := 0x0F07, engine := some 15, malformed := fun _ c => fnMalformed c
    denied := fun s c =>
      let x := s.fnc (mgFn c)
      mgDenied s c || !s.accepts c.fn 18 || x.state ≠ 1 || x.featOk || x.auth.isSome
    nores := fun s c => !(s.fnc (mgFn c)).secure && s.freeSlot?.isNone
    run := fun s f =>
      let fn := mgFn f.cmd
      if (s.fnc fn).secure then complete s f.id stOk [1, 0, 0, 0]
      else match s.freeSlot? with
        | none => complete s f.id stNoResource noPay
        | some k => (s.modMbox (8 + k) fun x => { x with mapped := some fn }).modFn fn fun x => { x with
            auth := some { flight := f.id, slot := k, limit := s.dt + 1000 * ms } } }

/-- SECURE_VF_REQUEST. -/
def execSecureVfRequest (t : Time) (c : Cmd) (s : State) : Answer := .next (startCmd (s.at t) specSecure c)

/-! ### Function-level resets and port resets (R103-R106, R651, R652) -/

/-- FLR of a VF (Table 02.13): its locks are torn in any state; in CREATED and QUIESCED its registers are reset and
it keeps its grants; in ACTIVE and QUIESCING it is quarantined. -/
def execFlr (t : Time) (fn : Fin 64) (s : State) : Answer :=
  let s := s.at t
  let st := (s.fnc fn).state
  if fn.val < 2 || !s.up 2 then .next s
  else if st = 2 || st = 3 then .next (quarantine s fn 0)
  else
    let s1 := tearLocks (endSecure s fn false) (· = fn.val) 0
    if st = 1 || st = 4 then .next (setFnState (resetFnRegs s1 fn) fn 1) else .next s1

/-- The FNs of a port, ascending (R54). -/
def State.portFns (s : State) (p : Nat) : List Nat := (List.range 64).filter fun i => 2 ≤ i && s.portOf i = p

/-- Quarantine the VFs of a port that are ACTIVE or QUIESCING. -/
def quarantinePort (s : State) (p cause : Nat) : State :=
  (s.portFns p).foldl (fun s i => if (s.fnc i).state = 2 || (s.fnc i).state = 3 then quarantine s i cause else s) s

/-- SR-IOV ends on a port. -/
def endSriov (s : State) (p : Nat) : State :=
  (s.portFns p).foldl (fun s i => s.modFn i fun f => { f with sriov := false }) (s.modPort p fun x => { x with numVfs := 0 })

/-- A reset of a PF (R652): its commands end with ABANDONED, its active VFs are quarantined with cause 2, secure
status on the port ends, locks of its functions are torn, its mailboxes return to rest. -/
def resetPf (s : State) (p : Nat) : State :=
  let s1 := abandonWork s p
  let s2 := quarantinePort s1 p 2
  let s3 := (s2.portFns p).foldl (fun s i => endSecure s i true) s2
  let s4 := tearLocks s3 (fun o => o = p || (o < 64 && 2 ≤ o && s3.portOf o = p)) 0
  endSriov (resetFnRegs (dropMail s4 fun m => m / 4 = p && m < 8) p) p

/-- PF_FLR. -/
def execPfFlr (t : Time) (pf : Fin 2) (s : State) : Answer :=
  let s := s.at t
  if !s.up 2 then .next s else .next (resetPf s pf)

/-- SRIOV_VF_DISABLE (Table 02.13). -/
def execSriovVfDisable (t : Time) (port : Fin 2) (s : State) : Answer :=
  let s := s.at t
  if !s.up 2 || (s.port port).numVfs = 0 then .next s else .next (endSriov (quarantinePort s port 1) port)

/-- SRIOV_VF_ENABLE (R54, R88): the first NumVFs functions of the port. -/
def execSriovVfEnable (t : Time) (port : Fin 2) (numVfs : Fin 64) (s : State) : Answer :=
  let s := s.at t
  let fns := (s.portFns port).take numVfs.val
  if !s.up 2 || !(s.port port).link || (s.port port).numVfs ≠ 0 then .next s
  else .next (fns.foldl (fun s i => s.modFn i fun f => { f with sriov := true })
    (s.modPort port fun x => { x with numVfs := fns.length }))

/-- PERST_ASSERT: a reset of the port. -/
def execPerstAssert (t : Time) (port : Fin 2) (s : State) : Answer :=
  let s := s.at t
  if (s.port port).perst then .next s
  else
    let s1 := if s.up 2 then resetPf s port else s
    .next (s1.modPort port fun x => { x with
      perst := true, link := false, gen := 0, width := 0, ready := false, since := none })

end Sys2Proof.Machine
end

