-- ==== Sys2Proof/Machine/Time.lean ====
section
/-! DEFINITION. Chapter 1, device time (R35-R43). -/

namespace Sys2Proof.Machine

/-- The window of the Watch island is read by the PFs and by initiators inside the device. -/
def State.readsWatch (s : State) (ini : Nat) : Bool := s.up 1 && (ini ≥ 64 || (ini < 2 && s.reach ini))

/-- DT_LO_READ (R42): the full DT is captured for the reading initiator and its low word returned. -/
def execDtLoRead (t : Time) (ini : Fin 128) (s : State) : Answer :=
  let s := s.at t
  if !s.readsWatch ini then .next s
  else .next ({ s with time := { s.time with snapDt := put s.time.snapDt ini s.dt } }.emit (.readData ini (lo32 s.dt)))

/-- DT_SOURCE_WRITE (R43, R521): a normal-world write changes nothing and is a world violation. -/
def execDtSourceWrite (t : Time) (ini : Fin 128) (src : Fin 4) (s : State) : Answer :=
  let s := s.at t
  if !s.readsWatch ini then .next s
  else if !s.isSecure ini then .next (worldViolation s 1 ini)
  else .next { s with time := { s.time with pending := some src.val } }

/-- A change of SOURCE takes effect (R43, R36-R38). The spec does not say at what rate DT runs, nor what LOCKED reads,
between the selection of a synchronised domain and its next Sync: the model keeps the rate of before and sets LOCKED at
once (notes/assumptions/115.md, DESIGN CHOICE). -/
def setSource (s : State) (src : Nat) : State :=
  if src = 1 || src = 2 then
    { s with time := { s.time with source := src, pending := none, locked := (s.ptp (src - 1)).synced, holdover := false } }
  else { s with time := { s.time with source := src, pending := none, locked := false, holdover := false, rate := 0 } }

/-- TIME_BUS_ROUND (R39, R43): the island counters correct themselves; what remains of their error is free within
4 ns (notes/assumptions/115.md). -/
def execTimeBusRound (t : Time) (s : State) : Answer :=
  let s := s.at t
  if s.boot.porst then .next s
  else
    let s1 := (List.range 16).foldl (fun (s : State) i =>
      ({ s with time := { s.time with skew := put s.time.skew i (if i = 1 then 0 else (s.free % 9 : Nat) - 4) } }).drawn) s
    let s2 : State := { s1 with time := { s1.time with rounds := s1.time.rounds + 1 } }
    .next (match s2.time.pending with
      | some src => setSource s2 src
      | none => s2)

end Sys2Proof.Machine
end

