-- ==== Sys2Proof/Machine/Reset.lean ====
section
/-! DEFINITION. Chapter 1, island resets (R28-R34), with what each chapter says of a reset of its island (R241, R259,
R331, R385, R437, R438, R469-R471, R516, R517, R640-R642). -/

namespace Sys2Proof.Machine

/-! ### Work in an island (R641) -/

/-- The queue engine of an island. -/
def engineOf (isl : Nat) : Option Nat :=
  if 6 ≤ isl && isl ≤ 9 then some 1 else if isl = 10 || isl = 11 then some 2
  else if isl = 12 then some 3 else if isl = 15 then some 4 else if isl = 14 then some 5 else if isl = 13 then some 6
  else none

/-- A function has work in an island. -/
def State.hasWork (s : State) (isl fn : Nat) : Bool :=
  let g := (s.fnc fn).grant
  let q := fun (p : Queue → Bool) => (List.range (s.nQueues fn)).any fun k => (s.que fn k).enable && p (s.que fn k)
  let holds :=
    if 6 ≤ isl && isl ≤ 9 then !(s.ctxsOf fn).isEmpty
    else if isl = 10 || isl = 11 then
      (s.slots.any fun e => e.2.layer.enable && e.2.fn = fn && mantleOf e.2.head = isl) ||
      (maskList g.headOwn 12).any fun h => mantleOf h = isl
    else if isl = 12 then
      (s.media.csi.any fun (e : Nat × Csi) =>
        [e.2.mem, e.2.ring, e.2.pendMem.getD none, e.2.pendRing.getD none].any fun b => b.map (·.fn) = some fn) ||
      s.media.sessions.any fun (e : Nat × Session) => e.1 / 32 = fn
    else if isl = 13 then g.netQueues ≠ 0 || g.filters ≠ 0 || s.net.filters.any fun (e : Nat × StreamFilter) => e.2.valid && e.2.fn = fn
    else if isl = 14 then g.tpMask ≠ 0 || g.scMask ≠ 0 || g.hapticMask ≠ 0
    else if isl = 15 then g.ainMask ≠ 0 || g.aoutMask ≠ 0 || s.audio.streams.any fun (e : Nat × AStream) => e.2.fn = fn
    else false
  match engineOf isl with
  | some e => q (fun x => x.engine = e) || holds
  | none => q fun _ => true

/-- ISLAND_RESET_NOTICE to each function with work in the island; a reset of the Host island writes none. -/
def notice (s : State) (isl : Nat) : State :=
  if isl = 2 then s
  else (s.holders.filter (s.hasWork isl)).foldl (fun s fn => sendEvent s 1 fn 6 isl 0 0) s

/-! ### The reset step, island by island -/

/-- The commands that execute in an island end with ISLAND_RESET (R30); Chandelier's submissions are judged context by
context (R331), and commands of the Host island end without a completion (R642). -/
def endFlights (s : State) (isl : Nat) : State :=
  let hit := s.flights.filter fun f => f.stage = 1 && f.isl = isl && f.op ≠ 0x0100 && f.op ≠ 0x0101
  prune (endAll s (hit.map (·.id)) stIslandReset)

/-- The Host island (R642, R259): every command is abandoned without a completion and its work in other islands stops,
every queue register returns to reset, Watchlamp takes over. -/
def resetHost (s : State) : State :=
  let s1 : State := { (enterAutonomous s 2 true) with flights := [], queues := [] }
  stopEffects ((List.range 64).foldl clearCtxs (prune s1)) fun e => e.flight.isSome

/-- A VF_DESTROY or VF_RELEASE whose fills have ended with a reset of Fabric ends with them; the FN stays as it is. -/
def endLeaves (s : State) (status : Nat) : State :=
  (List.range 64).foldl (fun s fn => match (s.fnc fn).leaving with
    | some (id, _, _) =>
      if (s.grantParts fn).any fun p => (s.part p).unfill then
        complete (s.modFn fn fun f => { f with leaving := none }) id status noPay
      else s
    | none => s) s

/-- The Fabric island (R385): fence values, slot tables, arbiter priorities and locks stay, and the bites counted since
PORST_N. -/
def resetFabric (s : State) : State :=
  let s1 := tearLocks (endLeaves (endFills (resetCache s)) stIslandReset) (fun _ => true) 2
  { s1 with fab :=
      { fence := s1.fab.fence, fenceAt := s1.fab.fenceAt, fenceWas := s1.fab.fenceWas, slots := s1.fab.slots, locks := s1.fab.locks
        targets := s1.fab.targets.map fun (e : Nat × Target) =>
          (e.1, { prioLo := e.2.prioLo, prioHi := e.2.prioHi, bites := e.2.bites, port := e.2.port }) } }

/-- A Mantle island (R34, R241): its heads, slots and line rings hold nothing from before, and its safety heads are
relocated. -/
def resetMantle (s : State) (isl : Nat) (relo : Bool) : State :=
  let hs := (List.range 12).filter fun h => mantleOf h = isl
  let s1 := hs.foldl (fun s h => s.modHead h fun d => { hpd := d.hpd, sinkRate := d.sinkRate, sinkLanes := d.sinkLanes }) s
  let s2 : State := { s1 with
    slots := s1.slots.filter fun (e : Nat × Slot) => mantleOf e.2.head ≠ isl
    media := { s1.media with rings := dropKeys s1.media.rings fun k => k / 128 + 10 = isl } }
  let s3 := hs.foldl (fun s h => s.modSafe h fun o => { o with gmShadow := [], gmNext := [], gmActive := [] }) s2
  if relo then hs.foldl (fun s h => relocate s h 4) s3 else s3

/-- The AUDIO_STREAM commands under way end with ISLAND_RESET at a reset of Network (R437). -/
def endBindings (s : State) : State :=
  completeAll (s.modAudio fun a => { a with pendStr := [] }) (s.audio.pendStr.map (·.flight))
    stIslandReset noPay

/-- What a chapter does at the reset step of its island. -/
def chapterReset (s : State) (isl : Nat) (relo : Bool) : State :=
  if isl = 2 then resetHost s
  else if isl = 3 then resetFabric s
  else if isl = 4 || isl = 5 then resetMemory s isl
  else if 6 ≤ isl && isl ≤ 9 then resetChandelier s isl
  else if isl = 10 || isl = 11 then resetMantle s isl relo
  else if isl = 12 then resetMedia s
  else if isl = 13 then resetNetwork (endBindings s)
  else if isl = 14 then resetSense s
  else if isl = 15 then resetAudio s
  else s

/-- The initiators of an island that may own a lock (Tables 13.1 and 13.8). -/
def agentsOf (isl : Nat) : List Nat :=
  [[], [], [0x42], [], [], [], [0x49], [0x4A], [0x4B], [0x4C], [0x47], [0x48], [0x43], [0x44], [0x45], [0x46]].getD isl []

/-- The reset step of an island (R29, R30, R548, R641): notices, the island in reset, commands ended, its chapter's
part, its locks torn, the fault recorded. -/
def resetStep (s : State) (isl : Nat) (relo : Bool) : State :=
  let s1 := (notice s isl).modIsl isl fun x => { x with inReset := true, resetAt := s.dt, stopped := false }
  let s2 := chapterReset (if isl = 2 then s1 else endFlights s1 isl) isl relo
  let s3 := tearLocks s2 (agentsOf isl).contains 1
  report s3 isl 0x04 (isl = 15 && s3.alarmRouted)

/-! ### Rails (R580, R581) -/

/-- The rail of an island (Table 14.6). -/
def railOf (isl : Nat) : Nat := if isl < 2 then 0 else if 6 ≤ isl && isl ≤ 9 then 2 else 1

/-- The voltage a rail is to have: the highest requirement of its islands in ON or CLOCK_GATED, rounded up to 5 mV,
within its range. Those that a wake event is about to turn ON count from then on (R581, R609). -/
def State.railGoal (s : State) (r : Nat) : Nat :=
  let v := (((List.range 16).filter fun i => railOf i = r && ((s.island i).power ≤ 1 || (s.pwr.wake && (i ≠ 5 || s.boot.memcfg)))).map fun i => (s.island i).vReq).foldl max 0
  min (max (ceilDiv v 5 * 5) (if r = 0 then 720 else 550)) 850

/-- The rail of an island is confirmed at its requirement or above (R581). -/
def State.railHolds (s : State) (isl : Nat) : Bool :=
  (s.island isl).vReq ≤ (s.rail (railOf isl)).set && !(s.rail (railOf isl)).bad

/-! ### Release (R33, R34) -/

/-- What is loaded or started at the release of an island. -/
def chapterRelease (s : State) (isl : Nat) : State :=
  if isl = 2 then (List.range 64).foldl (fun s fn => s.modFn fn fun f => { f with hostReset := true }) s
  else if isl = 4 || isl = 5 then releaseMemory s isl
  else if isl = 13 then loadNetwork s
  else if isl = 14 then loadSense s
  else if isl = 15 then closeLoss (loadAudio s) 0x0F04
  else s

/-- Release an island. -/
def release (s : State) (isl : Nat) : State :=
  chapterRelease (s.modIsl isl fun x => { x with live := true, inReset := false, power := if x.power = 3 then 0 else x.power }) isl

/-- ISLAND_RELEASE (R33, R34, R438, R471, R640, R642), once its rail is confirmed (R581). -/
def execIslandRelease (t : Time) (isl : Fin 16) (s : State) : Answer :=
  let s := s.at t
  let x := s.island isl
  if !x.inReset || x.power = 3 || s.dt < x.resetAt + us || !s.railHolds isl then .next s else .next (release s isl)

/-! ### Requests -/

/-- Some tone generator sounds (R470). -/
def State.toneSounds (s : State) : Bool := (List.range 4).any fun n => (look s.wl.tones n {}).on

/-- A write of a PF to the window of the Watch island that the Watch firmware serves: it reaches the island, and the
PF may write the group (R55). -/
def watchWrite (s : State) (fn : Nat) (k : State → State) : State :=
  if fn ≥ 2 || !s.reach fn || !s.up 1 then s
  else if !s.mayWrite fn 9 then s.dropGroup
  else if !s.watchUp then s
  else k s

/-- ISL_RESET_REQ (R28, R32, R470, R517, R533). -/
def execIslResetReq (t : Time) (fn : Fin 64) (isl : Fin 16) (s : State) : Answer :=
  .next (watchWrite (s.at t) fn fun s =>
    let answer := fun (s : State) (st : Nat) => s.modPwr fun p => { p with rstRes := put p.rstRes fn st }
    let x := s.island isl
    if isl.val < 2 then answer s stDenied
    else if s.heldBack fn isl then answer (countRefused s fn) stHeld
    else if x.inReset || !x.live || x.power = 3 then answer s stOk
    else if (isl.val = 15 && s.toneSounds) || (isl.val = 14 && s.hapticAlarmPlays) then answer s stDenied
    else answer (resetStep s isl true) stOk)

end Sys2Proof.Machine
end

