-- ==== Sys2Proof/Machine/Power.lean ====
section
/-! DEFINITION. Chapter 14: power states (R572-R579), rails (R580-R582), temperature (R584-R586), ageing (R587-R590),
and the SMBus management port (R628-R630). -/

namespace Sys2Proof.Machine

/-! ### Turning islands OFF (R575) -/

/-- An island turns OFF: its reset step, then its power switch opens. -/
def powerOff (s : State) (isl : Nat) : State :=
  if (s.island isl).power = 3 then s
  else (if (s.island isl).inReset || !(s.island isl).live then s else resetStep s isl false).modIsl isl fun x =>
    { x with inReset := false, power := 3, stopped := false, retReq := none }

/-- Islands 2-15 turn OFF, and what they held is gone: functions, queues, contexts, partitions, locks (Table 14.5).
Counts since PORST_N and the capture registers of the channels (R363) stay. -/
def allOff (s : State) : State :=
  let s1 := s.holders.foldl (fun s fn => endSecure s fn true) s
  let s2 := (List.range 14).foldl (fun s i => powerOff s (i + 2)) (dropMail s1 fun m => m < 12)
  { s2 with
    fns := [], queues := [], flights := []
    chand := { preempts := s2.chand.preempts, partials := s2.chand.partials, robust := s2.chand.robust }
    mem := { chans := s2.mem.chans.map fun (e : Nat × Chan) => (e.1, { e.2.afterReset with state := 0, cap := 0 }) }
    fab := { targets := s2.fab.targets.map fun (e : Nat × Target) => (e.1, { bites := e.2.bites, port := e.2.port }) }
    ports := s2.ports.map fun (e : Nat × Port) => (e.1, { perst := e.2.perst })
    boot := { s2.boot with hostAt := none, memRdy := false } }

/-! ### PWR_REQ (R572-R576) -/

/-- No transaction is in flight in the island and no command queued for it (R574). -/
def State.idle (s : State) (isl : Nat) : Bool := !s.flights.any fun f => f.isl = isl

/-- Table 14.6: RETENTION and OFF are refused while this holds. -/
def State.keepsOn (s : State) (isl : Nat) : Bool :=
  if isl = 10 || isl = 11 then (List.range 12).any fun h => mantleOf h = isl && (s.head h).role ≠ 0
  else match s.img with
    | none => false
    | some im =>
      if isl = 13 then im.mapping.any fun e => e.2.valid
      else if isl = 14 then im.rules.any fun e => e.2.effect.val ≠ 0
      else isl = 15 && !im.alarmRoutes.isEmpty

/-- A power request that Table 14.6 does not permit. -/
def State.powerDenied (s : State) (isl st : Nat) : Bool :=
  isl < 2 || (isl = 5 && !s.boot.memcfg && st ≠ 3) || (isl ≤ 5 && st ≥ 2 && !(isl = 5 && !s.boot.memcfg)) ||
  (st ≥ 2 && s.keepsOn isl)

/-- RESULT and BUSY of a function. -/
def powerAnswer (s : State) (fn st : Nat) : State :=
  s.modPwr fun p => { p with pwrRes := put p.pwrRes fn st, pwrBusy := put p.pwrBusy fn false }

/-- A RETENTION request that still waits ends when the island is asked for another state. -/
def endRetReq (s : State) (isl : Nat) : State :=
  match (s.island isl).retReq with
  | some r => powerAnswer (s.modIsl isl fun x => { x with retReq := none }) r.1 stNoResource
  | none => s

/-- Bring an island into a state. -/
def setPower (s : State) (fn isl st : Nat) : State :=
  let x := s.island isl
  if x.power = st then powerAnswer s fn stOk
  else if st = 3 then powerAnswer (powerOff s isl) fn stOk
  else if x.power = 3 then
    let on := fun (x : Island) => { x with live := true, inReset := true, resetAt := s.dt }
    if st = 2 then
      (s.modIsl isl fun x => { on x with power := 0, retReq := some (fn, s.dt) }).modPwr fun p =>
        { p with pwrBusy := put p.pwrBusy fn true }
    else powerAnswer (s.modIsl isl fun x => { on x with power := st }) fn stOk
  else if st = 2 && (!s.idle isl || x.inReset) then
    (s.modIsl isl fun x => { x with retReq := some (fn, s.dt) }).modPwr fun p => { p with pwrBusy := put p.pwrBusy fn true }
  else powerAnswer (s.modIsl isl fun x => { x with power := st, stopped := st = 2 || (st = 1 && s.idle isl) || !s.railHolds isl }) fn stOk

/-- PWR_REQ (R572-R575). -/
def execPwrReq (t : Time) (fn : Fin 64) (w : Word) (s : State) : Answer :=
  .next (watchWrite (s.at t) fn fun s =>
    let isl := fld w 0 4
    let st := fld w 4 2
    if isl ≥ 2 && s.heldBack fn isl then powerAnswer (countRefused s fn) fn stHeld
    else if s.powerDenied isl st then powerAnswer s fn stDenied
    else setPower (endRetReq s isl) fn isl st)

/-- RETENTION_ENTER (R574). -/
def execRetentionEnter (t : Time) (isl : Fin 16) (s : State) : Answer :=
  let s := s.at t
  match (s.island isl).retReq with
  | some r =>
    if !s.idle isl || (s.island isl).inReset then .next s
    else .next (powerAnswer (s.modIsl isl fun x => { x with power := 2, stopped := true, retReq := none }) r.1 stOk)
  | none => .next s

/-- RETENTION_TIMEOUT (R574). -/
def execRetentionTimeout (t : Time) (isl : Fin 16) (s : State) : Answer :=
  let s := s.at t
  match (s.island isl).retReq with
  | some r => if s.dt ≥ r.2 + 10 * ms then .next (endRetReq s isl) else .next s
  | none => .next s

/-- The clock of an island stands still (Table 14.5): in RETENTION and OFF, in CLOCK_GATED from when it is idle until the
next transaction has woken it, and after RETENTION until its rail is confirmed (R581). -/
def State.clockStopped (s : State) (isl : Nat) : Bool :=
  let x := s.island isl
  x.power ≥ 2 || x.stopped || (x.power = 1 && s.idle isl)

/-- CLOCK_GATED_WAKE (R572). -/
def execClockGatedWake (t : Time) (isl : Fin 16) (s : State) : Answer :=
  let s := s.at t
  if (s.island isl).power = 1 then .next (s.modIsl isl fun x => { x with stopped := false }) else .next s

/-! ### Device power (R577-R579) -/

/-- The device enters STANDBY (R579): Watchlamp in AUTONOMOUS without an alarm, its outputs stopped, islands 2-15 OFF;
a wake event of the same instant keeps it in RUN (R630). -/
def enterStandby (s : State) : State :=
  if s.pwr.device ≠ 2 || s.pwr.shut || !s.watchUp || s.boot.loadAt.isNone || s.pwr.wakeEvt = some s.dt then s
  else
    let s1 := (enterAutonomous s (s.free % 6) false).drawn
    let s2 := s1.modWl fun w => { w with running := false, tones := [], almout := false, bootPage := false }
    (allOff s2).modPwr fun p => { p with device := 1, wake := false }

/-- WL_STANDBY (R578): the safety guest writes ENTER. -/
def execWlStandby (t : Time) (fn : Fin 64) (w : Word) (s : State) : Answer :=
  .next (wlWrite (s.at t) fn fun s => if w.getLsbD 0 then enterStandby s else s)

/-- STANDBY_CYCLE (R577, R566): the firmware's 1 ms cycle in STANDBY ends with the kick. -/
def execStandbyCycle (t : Time) (s : State) : Answer :=
  let s := s.at t
  if s.pwr.device ≠ 1 || !s.flt.coresUp then .next s else .next (kick s)

/-! ### AVSBus (R582) -/

/-- One AVSBus write: at most 10 mV towards the goal. -/
def stepTo (v goal : Nat) : Nat := if v + 10 ≤ goal then v + 10 else if goal + 10 ≤ v then v - 10 else goal

/-- A write of a rail is not confirmed: RAIL_MISMATCH (R582), a CLASS_A_LOSS on VDD_AO. -/
def railBad (s : State) (r : Nat) : State := report (s.modRail r fun x => { x with bad := true }) 1 0x0B (r = 0)

/-- RAIL_READY_TIMEOUT (R582): the ready status is absent 1 ms after a write. -/
def execRailReadyTimeout (t : Time) (r : Fin 3) (s : State) : Answer :=
  let s := s.at t
  if !s.flt.coresUp then .next s
  else .next (railBad (s.modRail r fun x => { x with set := stepTo x.set (s.railGoal r) }) r)

/-- RAIL_CURRENT_READ (R582). -/
def execRailCurrentRead (t : Time) (amps : Vector (Fin 4096) 3) (s : State) : Answer :=
  let s := s.at t
  if !s.flt.coresUp then .next s
  else .next ((List.range 3).foldl (fun s r => s.modRail r fun x => { x with amps := ((amps.toList.getD r 0).val) }) s)

/-! ### Temperature (R584-R586) -/

/-- The sensors of an island. -/
def sensorsOf (isl : Nat) : List Nat :=
  isl :: (if 6 ≤ isl && isl ≤ 9 then [isl + 10] else if isl = 4 then [20, 21] else if isl = 5 then [22] else [])

/-- The island of a sensor; the die centre counts as the Watch island's. -/
def sensorIsland (n : Nat) : Nat := ((List.range 16).find? fun i => (sensorsOf i).contains n).getD 1

/-- A sensor's reading, and the temperature of an island in 0.125 degrees. -/
def State.temp (s : State) (n : Nat) : Int := look s.pwr.temps n 0
def State.islandTemp (s : State) (isl : Nat) : Int := ((sensorsOf isl).map s.temp).foldl max (s.temp isl)

/-- The floor of a throttled island in MHz (Table 14.6). -/
def throttleFloor (isl : Nat) : Option Nat := if 6 ≤ isl && isl ≤ 9 then some 800 else if isl = 12 then some 600 else none

/-- Take the readings of the sensors. -/
def readTemps (s : State) (temps : Vector Int 24) : State :=
  s.modPwr fun p => { p with temps := (temps.toList.zipIdx).map fun (e : Int × Nat) => (e.2, e.1) }

/-- HYST: 2 to 15, other values act as 5. -/
def State.hyst (s : State) : Int := if s.pwr.hyst < 2 || s.pwr.hyst > 15 then 5 else s.pwr.hyst

/-- The thermal step of one island (R584). -/
def thermalStep (floor : Nat) (s : State) (isl : Nat) : State :=
  let x := s.island isl
  let t := s.islandTemp isl
  if t ≥ 8 * (s.pwr.throttle : Int) then
    let s1 := s.modIsl isl fun x => { x with limit := if x.limit > floor then x.limit - 50 else x.limit, throttling := true }
    if x.throttling then s1 else sendManagers (report s1 isl 0x06) 1 0x0F85 isl 1 (code 32 t)
  else if t < 8 * ((s.pwr.throttle : Int) - s.hyst) then
    if x.limit < x.top then s.modIsl isl fun x => { x with limit := x.limit + 50 }
    else if x.throttling then
      sendManagers (s.modIsl isl fun x => { x with throttling := false }) 1 0x0F85 isl 0 (code 32 t)
    else s
  else s

/-- What the hardware does when some sensor reads 125 degrees or more (R586). -/
def shutIfHot (s : State) : State :=
  match (List.range 24).find? fun n => s.temp n ≥ 1000 with
  | none => s
  | some n =>
    if s.boot.porst || s.pwr.shut then s
    else
      let s1 := raiseSysAlarm (report s (sensorIsland n) 0x07)
      (allOff (s1.modPwr fun p => { p with shut := true })).modWl fun w => { w with almout := true }

/-- THERMAL_CHECK (R584-R586). -/
def execThermalCheck (t : Time) (temps : Vector Int 24) (s : State) : Answer :=
  let s := shutIfHot (readTemps (s.at t) temps)
  if !s.flt.coresUp || s.img.isNone then .next s
  else .next ((List.range 16).foldl (fun s i => match throttleFloor i with
    | some f => thermalStep f s i
    | none => s) s)

/-- THERMAL_SHUTDOWN (R586). -/
def execThermalShutdown (t : Time) (temps : Vector Int 24) (s : State) : Answer := .next (shutIfHot (readTemps (s.at t) temps))

/-! ### Ageing (R587-R590) -/

/-- F_FLOOR of an island in MHz (Table 14.6). -/
def fFloor (isl : Nat) : Nat := if isl = 2 then 1000 else if isl = 3 then 1400 else if 6 ≤ isl && isl ≤ 9 then 1200 else fTop isl

/-- V_CEIL of an island: at most 0.85 V. -/
def vCeil (isl : Nat) : Nat := min (Config.vCeil isl) 850

/-- The margin remaining in % (R589), where the budget is not zero. -/
def margin (isl : Nat) (x : Island) : Int :=
  let used : Int := 10 * ((x.vReq : Int) - Config.vInit isl) + ((fTop isl : Int) - x.top)
  let budget : Int := 10 * ((vCeil isl : Int) - Config.vInit isl) + ((fTop isl : Int) - fFloor isl)
  100 * (budget - used) / budget

/-- The clock of the top bin in kHz. -/
def topBinKhz (isl : Nat) (x : Island) : Nat := if x.top = fTop isl then topKhz isl else 1000 * x.top

/-- Write the ageing record through the Lantern (R590). -/
def writeRecord (s : State) : State :=
  (List.range 16).foldl (fun s i => s.emit (.flash i (s.island i).vReq (s.island i).top)) (s.modPwr fun p => { p with recAt := s.dt })

/-- The ageing step of one island (R587); one that has recorded MARGIN_EXHAUSTED keeps its operating point and records
nothing further (R588). -/
def ageStep (delays : List Nat) (s : State) (isl : Nat) : State :=
  let x := s.island isl
  let d := ((List.range 4).map fun k => delays.getD (4 * isl + k) 0).foldl max 0
  let khz := topBinKhz isl x
  let slack : Int := 1000000000 - (d * khz : Nat)
  if x.power ≥ 2 || x.exhausted || (isl < 2 && s.flt.fatal) then s
  else if slack < (30 * khz : Nat) then
    if x.vReq + 5 ≤ vCeil isl then
      report (s.modIsl isl fun x => { x with vReq := x.vReq + 5, lastRaise := s.dt }) isl 0x08
    else if x.top ≥ fFloor isl + 50 then
      let s1 := report (s.modIsl isl fun x => { x with top := x.top - 50 }) isl 0x09
      writeRecord (sendManagers s1 1 0x0F86 isl (s1.island isl).top (code 32 (margin isl (s1.island isl))))
    else report (s.modIsl isl fun x => { x with exhausted := true }) isl 0x0A
  else if slack > (60 * khz : Nat) && x.vReq > Config.vInit isl && s.dt ≥ x.lastRaise + 86400000 * ms then
    s.modIsl isl fun x => { x with vReq := x.vReq - 5 }
  else s

/-- AGEING_CHECK (R587-R590): the record is also written when a requirement has changed and 24 h have passed. -/
def execAgeingCheck (t : Time) (delaysPs : Vector Nat 64) (s : State) : Answer :=
  let s := s.at t
  if !s.flt.coresUp then .next s
  else
    let s1 := (List.range 16).foldl (ageStep delaysPs.toList) s
    let moved := (List.range 16).any fun i => (s1.island i).vReq ≠ (s.island i).vReq
    .next (if moved && s1.dt ≥ s1.pwr.recAt + 86400000 * ms then writeRecord s1 else s1)

/-! ### The SMBus management port (R628-R630) -/

/-- LAN_BOOT_STAT. -/
def bootStatWord (b : Boot) : Nat :=
  b.stage + 2 ^ 4 * b.bootsel + 2 ^ 6 * b2n b.memcfg + 2 ^ 7 * b.slot + 2 ^ 8 * b.err + 2 ^ 16 * b2n b.failA + 2 ^ 17 * b2n b.failB

/-- WCH_FLT_STAT. -/
def fltStatWord (f : Faults) : Nat :=
  b2n f.pin + 2 * b2n f.fatal + 4 * b2n (f.log.any fun e => e.cls = 2 && e.open_) + 2 ^ 8 * f.log.length + 2 ^ 16 * f.lost

/-- The port answers: the Lantern is released and PORST_N is high; a wrong PEC is not acknowledged (R628). -/
def smbus (s : State) (pecOk : Bool) (cmd : Nat) (k : State → State) : State :=
  if s.boot.porst || !s.boot.lantern then s else if !pecOk then s.emit (.smbusNak cmd) else k s

/-- SMB_BOOT_STAT. -/
def execSmbBootStat (t : Time) (pecOk : Bool) (s : State) : Answer :=
  .next (smbus (s.at t) pecOk 0x01 fun s => s.emit (.smbus (leBytes 4 (bootStatWord s.boot))))

/-- SMB_FLT_STAT: 1 before the Watch cores start. -/
def execSmbFltStat (t : Time) (pecOk : Bool) (s : State) : Answer :=
  .next (smbus (s.at t) pecOk 0x02 fun s =>
    s.emit (.smbus (leBytes 4 (if s.boot.comp < 2 then 1 else fltStatWord s.flt))))

/-- SMB_TEMP_MAX. -/
def execSmbTempMax (t : Time) (pecOk : Bool) (s : State) : Answer :=
  .next (smbus (s.at t) pecOk 0x03 fun s =>
    s.emit (.smbus (leBytes 2 (code 12 (((List.range 24).map s.temp).foldl max (s.temp 0))))))

/-- SMB_STANDBY: not acknowledged when STANDBY_SMBUS is 0. -/
def execSmbStandby (t : Time) (pecOk : Bool) (s : State) : Answer :=
  .next (smbus (s.at t) pecOk 0x10 fun s => match s.img with
    | some im => if im.standbySmbus then enterStandby (s.emit (.smbus [])) else s.emit (.smbusNak 0x10)
    | none => s.emit (.smbusNak 0x10))

/-- SMB_RUN: a wake event in STANDBY, without effect in RUN. -/
def execSmbRun (t : Time) (pecOk : Bool) (s : State) : Answer :=
  .next (smbus (s.at t) pecOk 0x11 fun s => wakeEvent (s.emit (.smbus [])))

/-- SMB_ALERT_N is asserted while FAULT_N is asserted after image load (R629). -/
def State.smbAlert (s : State) : Bool := s.flt.pin && s.boot.loadAt.isSome

/-- SMB_ALERT_RESPONSE (R629). -/
def execSmbAlertResponse (t : Time) (s : State) : Answer :=
  .next (smbus (s.at t) true 0x0C fun s => if s.smbAlert then s.emit (.smbus [0x4A]) else s)

end Sys2Proof.Machine
end

