-- ==== Sys2Proof/Machine/Startup.lean ====
section
/-! DEFINITION. Chapter 15: start-up from PORST_N to the host ports (R592-R610), and the reset pin (R620, R621). -/

namespace Sys2Proof.Machine

/-! ### The reset pin, rails and fill (R592-R594, R608, R620, R621) -/

/-- PORST_N resets the whole device (R608, R620): fuses, pins, the external boot flash and the model's own records
stay. -/
def porst (s : State) (rails : Bool) : State :=
  { State.reset with
    lan := { life := s.lan.life, lifeNext := s.lan.lifeNext, zeroised := s.lan.zeroised }
    boot := { rails := rails }
    heads := s.heads.map fun (e : Nat × Head) => (e.1, { hpd := e.2.hpd, sinkRate := e.2.sinkRate, sinkLanes := e.2.sinkLanes })
    ports := s.ports.map fun (e : Nat × Port) => (e.1, { perst := e.2.perst })
    wl := { pins := s.wl.pins.map fun (e : Nat × AckPin) => (e.1, { low := e.2.low }) }
    draws := s.draws, out := s.out, pending := s.pending }

/-- PORST_ASSERT (R620): a low level of 1 us or more. -/
def execPorstAssert (t : Time) (lowNs : Nat) (s : State) : Answer :=
  let s := s.at t
  if lowNs < us then .next s else .next (porst s s.boot.rails)

/-- VDD_AO_LOW (R621): the internal monitor holds the device as if PORST_N were low. -/
def execVddAoLow (t : Time) (s : State) : Answer := .next (porst (s.at t) false)

/-- No slot verifies, or the lifecycle forbids it (R597, R544, R639): islands 2-15 are OFF until PORST_N. -/
def bootFailed (s : State) (err : Nat) : State :=
  let s1 := s.modBoot fun b => { b with stage := 6, err := if b.err = 0 then err else b.err }
  (List.range 14).foldl (fun s i => (powerOff s (i + 2)).modIsl (i + 2) fun x => { x with live := false, power := 3 })
    ({ s1 with
        flt := { s1.flt with coresUp := false, pin := true, wick := false, wickOn := false }
        wl := { s1.wl with almout := true } })

/-- The Lantern is released at the later of t0 and the end of the fill (R594). -/
def releaseLantern (s : State) : State :=
  if s.boot.porst || !s.boot.filled || s.boot.lantern then s
  else
    let s1 := (s.modBoot fun b => { b with lantern := true, stage := 1 }).modIsl 0 fun x => { x with live := true }
    if s1.lan.life = 0 then bootFailed s1 10
    else if s1.lan.life = 3 then bootFailed (s1.modLan fun l => { l with zeroised := true }) 9
    else s1

/-- RAILS_GOOD (R594): the SRAM fill starts. -/
def execRailsGood (t : Time) (s : State) : Answer := .next ((s.at t).modBoot fun b => { b with rails := true })

/-- SRAM_FILL_DONE (R594). -/
def execSramFillDone (t : Time) (s : State) : Answer :=
  let s := s.at t
  if !s.boot.rails then .next s else .next (releaseLantern (s.modBoot fun b => { b with filled := true }))

/-- PORST_DEASSERT (t0, R35, R539, R593): DT is 0, the straps are sampled, a scheduled lifecycle step takes effect. -/
def execPorstDeassert (_ : Time) (memcfg : Bool) (bootsel : Fin 4) (s : State) : Answer :=
  if !s.boot.porst then .next s
  else
    let s1 : State := { s with
      dt := 0
      lan := { s.lan with life := s.lan.lifeNext }
      pwr := { s.pwr with device := 2 }
      boot := { s.boot with porst := false, memcfg := memcfg, bootsel := bootsel.val, slot := b2n (bootsel.val = 1) } }
    .next (releaseLantern (s1.modIsl 1 fun x => { x with live := true }))

/-! ### Host release and memory (R604-R607) -/

/-- The PF grant record as the function page shows it (R650). -/
def pfRecord (im : Image) (pf : Nat) : Grant :=
  { im.pfGrant.toList.getD pf {} with fn := pf, queues := 0, vectors := 32, mpMask := 0 }

/-- The PFs take what the image gives them: grant records and Chandelier contexts (R638, R650). -/
def setupPf (im : Image) (s : State) (pf : Nat) : State :=
  grantCtxs (s.modFn pf fun f => { f with grant := pfRecord im pf }) pf (pfRecord im pf).chdCtx

/-- The islands of R604 without Memory-out in the compact configuration, and those of R599. -/
def State.hostIslands (s : State) : List Nat := [2, 3, 4] ++ (if s.boot.memcfg then [5] else []) ++ [6, 7, 8, 9, 12]
def alarmIslands : List Nat := [10, 11, 13, 14, 15]

/-- Host, Fabric, the memory islands, Chandelier and Media are released (R604); Memory-out stays OFF in the compact
configuration. Port training may start (R606). -/
def hostRelease (s : State) : State :=
  match s.img with
  | none => s
  | some im =>
    let s1 := s.hostIslands.foldl (fun s i => s.modIsl i fun x => { x with live := true, inReset := false, power := 0 }) s
    let s2 := if s.boot.memcfg then s1 else s1.modIsl 5 fun x => { x with live := false, inReset := false, power := 3 }
    let s3 := [0, 1].foldl (setupPf im) s2
    let s4 := releaseMemory (releaseMemory s3 4) 5
    (s4.modBoot fun b => { b with hostAt := some s.dt, stage := 4 }).modPort 0 (fun p =>
      if p.perst then p else { p with since := some s.dt }) |>.modPort 1 fun p => if p.perst then p else { p with since := some s.dt }

/-- Host release falls once component 3 is verified, the image is loaded and the rails are confirmed (R598, R604). -/
def tryHostRelease (s : State) : State :=
  if s.boot.comp = 4 && s.boot.loadAt.isSome && s.boot.hostAt.isNone && s.pwr.device = 2 && !s.pwr.shut && s.hostIslands.all s.railHolds then
    hostRelease s
  else s

/-- What waited for a rail goes on: clocks after RETENTION (R581), and the release of Host and the islands with it. -/
def railReached (s : State) (r : Nat) : State :=
  tryHostRelease (((List.range 16).filter fun i => railOf i = r && (s.island i).power = 0 && s.railHolds i).foldl
    (fun s i => s.modIsl i fun x => { x with stopped := false }) s)

/-- RAIL_STEP (R580-R582): a write and its read-back. -/
def execRailStep (t : Time) (r : Fin 3) (readMv : Nat) (s : State) : Answer :=
  let s := s.at t
  if !s.flt.coresUp then .next s
  else
    let set := stepTo (s.rail r).set (s.railGoal r)
    let s1 := s.modRail r fun x => { x with set := set, read := readMv % 1024 }
    .next (railReached (if set + 10 < readMv || readMv + 10 < set then railBad s1 r
      else if (s.rail r).bad && r.val = 0 then closeLoss (s1.modRail r fun x => { x with bad := false }) 0x010B
      else s1.modRail r fun x => { x with bad := false }) r)

/-- PERST_DEASSERT (R606, R578). -/
def execPerstDeassert (t : Time) (port : Fin 2) (s : State) : Answer :=
  let s := s.at t
  if !(s.port port).perst then .next s
  else .next (wakeEvent (s.modPort port fun p => { p with
    perst := false, since := if s.boot.hostAt.isSome then some s.dt else none }))

/-- PCIE_LINK_UP (R51, R606, R626): the rate and width the partner offers, within the port's, in the clock mode that the
image selects for the port. -/
def execPcieLinkUp (t : Time) (port : Fin 2) (gen : Fin 6) (width : Fin 17) (s : State) : Answer :=
  let s := s.at t
  if !s.up 2 || (s.port port).since.isNone then .next s
  else .next (s.modPort port fun p => { p with
    link := true, gen := gen.val, width := min width.val (if port.val = 0 then 8 else 4)
    sris := match s.img with
      | some im => im.pcieSris.toList.getD port.val false
      | none => false })

/-- PCIE_PORT_READY (R607). -/
def execPciePortReady (t : Time) (port : Fin 2) (s : State) : Answer :=
  let s := s.at t
  match (s.port port).since with
  | some t0 =>
    if s.dt < t0 + 30 * ms || !s.boot.memRdy || !(s.port port).link then .next s
    else .next (s.modPort port fun p => { p with ready := true })
  | none => .next s

/-! ### Verification (R595-R598) -/

/-- The operating points of the ageing record, or V_CEIL and F_TOP with a fault (R590, R598). -/
def loadAges (s : State) (ages : Option (Vector AgeRec 16)) : State :=
  let s1 := (List.range 3).foldl (fun s r => s.modRail r fun x => { x with set := 800 }) s
  match ages with
  | some v => (List.range 16).foldl (fun s i => s.modIsl i fun x =>
      { x with vReq := (v.toList.getD i ⟨0, 0⟩).vReq, top := (v.toList.getD i ⟨0, 0⟩).top }) s1
  | none => report ((List.range 16).foldl (fun s i => s.modIsl i fun x => { x with vReq := vCeil i, top := fTop i }) s1) 1 0x0C

/-- A slot is rejected (R596, R597): the other slot is verified from component 0. Firmware of the rejected slot runs no
longer: the Watch cores stop until component 1 of the other slot is verified, and the image is loaded again; the islands
keep their state, which only PORST_N resets (R19; notes/assumptions/142.md). -/
def rejectSlot (s : State) (err : Nat) : State :=
  let b := s.boot
  let b1 := { b with
    err := if b.err = 0 then err else b.err, failA := b.failA || b.slot = 0, failB := b.failB || b.slot = 1 }
  if b1.failA && b1.failB then bootFailed { s with boot := b1 } err
  else
    { s with
      flt := { s.flt with coresUp := false, kicked := false, wick := false, wickOn := false }
      boot := { b1 with comp := 0, slot := 1 - b.slot, stage := 1, loadAt := none } }

/-- COMPONENT_VERIFY (R595-R598, R604). -/
def execComponentVerify (t : Time) (ok : Bool) (err : Fin 16) (ages : Option (Vector AgeRec 16)) (s : State) : Answer :=
  let s := s.at t
  let c := s.boot.comp
  if !s.boot.lantern || s.boot.stage = 6 || c ≥ 4 then .next s
  else if !ok then .next (rejectSlot s err)
  else
    let s1 := s.modBoot fun b => { b with comp := c + 1, stage := if c = 0 then 2 else b.stage }
    .next (if c = 1 then loadAges (s1.modFlt fun f => { f with coresUp := !s.wl.frozen }) ages
      else if c = 3 then tryHostRelease s1 else s1)

/-! ### Image load (R599, R600, R602) -/

/-- Start a safety head in the mode the image gives it (R600). -/
def startSafety (s : State) (x : SafetyHeadCfg) : State :=
  let h := x.head.val
  let s0 := fileDirectory (s.modSafe h fun o => { o with safety := true, partner := x.partner, floor := x.blFloor }) h
  let s1 := s0.modHead h fun d => { d with
    mode := x.mode, role := 1, bpc := 1, dither := false, dual := x.lvdsDual, maxRate := 6, maxLanes := 4, training := none }
  if !isDp h then startTiming (setLink s1 h 3 0 0) h
  else if !(s1.head h).hpd then startTiming (setLink s1 h 1 0 0) h
  else
    let tr : Training :=
      { cands := [(x.lanes.val, x.rate.val)], cause := 0, limit := s.dt + 280 * ms, flight := none, boot := true }
    setLink (s1.modHead h fun d => { d with training := some tr }) h 2 0 0

/-- Mantle A, Mantle B, Network, Audio and Sense are released, with what the image loads into them, and the safety
heads start (R599, R610). -/
def startAlarmPath (im : Image) (s : State) : State :=
  let s1 := alarmIslands.foldl (fun s i =>
    release (s.modIsl i fun x => { x with power := 0 }) i) s
  im.safetyHeads.foldl startSafety s1

/-- The fallback region in both store copies (R599). -/
def loadFallback (im : Image) (st : Store) : Store :=
  im.fallback.foldl (fun st e =>
    if e.1 < 0x100000 then (st.putByte false (0x100000 + e.1) e.2.toNat).putByte true (0x100000 + e.1) e.2.toNat else st) st

/-- The safety heads of an image are as R637 has them: a mode that R116 permits, a link use of Table 03.3, a partner that is
another safety head, and on DisplayPort a link configuration that carries the mode. -/
def Image.headsOk (im : Image) : Bool :=
  im.safetyHeads.all fun x =>
    let m := modeOf x.mode
    m.safety && im.safetyHeads.any (fun y => y.head = x.partner && y.head ≠ x.head) &&
    (if isDp x.head then carries m 1 x.lanes x.rate else lvdsOk m x.lvdsDual)

/-- IMAGE_LOAD (R257, R542, R599), once the rails of the islands it releases are confirmed (R598). An image that R637
forbids is not loaded: its content is in error, and its slot is rejected. -/
def execImageLoad (t : Time) (img : Image) (s : State) : Answer :=
  let s := s.at t
  if !s.flt.coresUp || s.boot.comp < 3 || s.boot.loadAt.isSome || !alarmIslands.all s.railHolds then .next s
  else if !Image.headsOk img then .next (rejectSlot s 8)
  else
    let s1 : State := { s with
      img := some img
      store := loadFallback img s.store
      time := { s.time with pending := some img.dtSource.val }
      pwr := { s.pwr with throttle := img.throttleC }
      wl := { s.wl with mode := 1, running := true, runAt := s.dt, bootPage := true }
      boot := { s.boot with loadAt := some s.dt, stage := 3 } }
    let s2 := startAlarmPath img s1
    .next (tryHostRelease (if s2.lan.life = 1 then report s2 0 0x10 else s2))

/-- STANDBY_EXIT (R604, R609, R610): after a wake event, once the rails are confirmed (R581). -/
def execStandbyExit (t : Time) (s : State) : Answer :=
  let s := s.at t
  match s.img with
  | none => .next s
  | some im =>
    if s.pwr.device ≠ 1 || !s.pwr.wake || s.pwr.shut || !s.flt.coresUp || !(s.hostIslands ++ alarmIslands).all s.railHolds then
      .next s
    else
      let s1 := s.modPwr fun p => { p with device := 2, wake := false, wokenUp := true }
      let s2 := (startAlarmPath im s1).modWl fun w => { w with running := true, runAt := s.dt, bootPage := false }
      .next (hostRelease (updAlmout s2))

/-- The instant from which R602 counts: t0, or the wake event. -/
def State.startAt (s : State) : Time := if s.pwr.wokenUp then s.pwr.wakeAt else 0

/-- BOOT_LINK_CHECK (R602): a DisplayPort safety head whose link is not UP after 400 ms. -/
def execBootLinkCheck (t : Time) (h : Fin 12) (s : State) : Answer :=
  let s := s.at t
  if !isDp h || !(s.safeOf h).safety || (s.head h).link = 3 || s.boot.loadAt.isNone || (s.safeOf h).fault ||
    s.dt < s.startAt + 400 * ms then .next s
  else .next (linkLost s h)

end Sys2Proof.Machine
end

