-- ==== Sys2Proof/Machine/Registers.lean ====
section
/-! DEFINITION. REGISTER_WRITE (R10-R17, R55, Tables 02.1 and 02.2): a write of a register as a whole word. It
changes the writable fields that have no row of their own in the opcode table; a field with a row changes by that
row's command, which follows when the same write also sets it (notes/assumptions/117.md). -/

namespace Sys2Proof.Machine

/-! ### Addresses -/

/-- The index of an offset in an array of registers: base, stride, count. -/
def indexIn (off base stride n : Nat) : Option Nat :=
  if base ≤ off && (off - base) % stride = 0 && (off - base) / stride < n then some ((off - base) / stride) else none

/-- A 64-bit value with its low or its high word written (NAME_LO, NAME_HI). -/
def setHalf (x : Nat) (hi : Bool) (w : Word) : Nat :=
  if hi then x % 2 ^ 32 + 2 ^ 32 * w.toNat else x / 2 ^ 32 * 2 ^ 32 + w.toNat

/-- The bits of a word that a mask names (reserved fields are not stored, R13). -/
def keep (w mask : Word) : Word := w &&& mask

/-! ### The function page (Table 02.2) -/

/-- A queue register, by its offset from 0x0200 + 0x20 q (R62). -/
def queueWrite (u : Queue) (r : Nat) (w : Word) : Queue :=
  match r with
  | 0x00 => if u.enable then u else { u with sqBase := setHalf u.sqBase false w }
  | 0x04 => if u.enable then u else { u with sqBase := setHalf u.sqBase true w }
  | 0x08 => if u.enable then u else { u with cqBase := setHalf u.cqBase false w }
  | 0x0C => if u.enable then u else { u with cqBase := setHalf u.cqBase true w }
  | 0x10 => if u.enable || w.getLsbD 31 then u else u.withCfg w
  | 0x14 => { u with vector := fld w 0 5, coalN := fld w 8 8, coalT := fld w 16 16 }
  | _ => u

/-- FEAT_ACCEPT (R63, R65): no effect while the 1240 decides or once FEATURES_OK is kept. -/
def acceptWrite (f : Func) (n : Nat) (w : Word) : Func :=
  if f.deciding || f.featOk then f
  else { f with accept := f.accept % 2 ^ (32 * n) + w.toNat * 2 ^ (32 * n) + f.accept / 2 ^ (32 * n + 32) * 2 ^ (32 * n + 32) }

/-- A word of an MSI-X table entry (R82); unmasking a pending vector sends its message. -/
def msixWrite (s : State) (fn v k : Nat) (w : Word) : State :=
  let m := look (s.fnc fn).msix v {}
  let m1 : Msix := match k with
    | 0 => { m with addrLo := w }
    | 1 => { m with addrHi := w }
    | 2 => { m with data := w }
    | _ => { m with ctrl := keep w 1 }
  if m.pend && !m1.ctrl.getLsbD 0 then
    sendIrq (s.modFn fn fun f => { f with msix := put f.msix v { m1 with pend := false } }) fn v
  else s.modFn fn fun f => { f with msix := put f.msix v m1 }

/-- An audio safe-load register (R463): for functions that accepted the feature, in a running Audio island. -/
def safeLoadWrite (s : State) (fn : Nat) (g : SafeLoad → SafeLoad) : State :=
  if !s.up 15 || !s.accepts fn 13 then s else s.modSafeLoad fn g

/-- A request word of a mailbox (R523, R524). -/
def mailboxWord (s : State) (fn m k : Nat) (w : Word) : State :=
  match s.mbGate fn m with
  | some s1 => s1
  | none =>
    if (s.mbox m).busy || (s.mbox m).done then s else s.modMbox m fun x => { x with req := put x.req k w }

/-- The mailbox on a function's page: that of the secure VF slot it holds (Table 13.3). -/
def State.slotBox (s : State) (fn : Nat) : Option Nat := [8, 9, 10, 11].find? fun m => (s.mbox m).mapped = some fn

/-- A write on the function page. -/
def pageWrite (s : State) (fn off : Nat) (w : Word) : State :=
  if off = 0x0104 then flushLost (s.modFn fn fun f => { f with eventQ := fld w 0 4 }) fn
  else if let some e := indexIn off 0x0160 4 5 then
    safeLoadWrite s fn fun x => { x with data := put x.data e (fld w 0 24) }
  else if let some e := indexIn off 0x0174 4 5 then
    safeLoadWrite s fn fun x => { x with addr := put x.addr e (fld w 0 16) }
  else if off = 0x0188 then safeLoadWrite s fn fun x => { x with count := fld w 0 3 }
  else if 0x0200 ≤ off && off < 0x0400 then
    let q := (off - 0x0200) / 0x20
    if q < s.nQueues fn then s.modQ fn q fun u => queueWrite u (off % 0x20) w else s
  else if let some k := indexIn off 0x0600 4 16 then
    match s.slotBox fn with
    | some m => mailboxWord s fn m k w
    | none => s
  else if let some n := indexIn off 0x1010 4 4 then s.modFn fn fun f => acceptWrite f n w
  else if let some k := indexIn off 0x2000 4 1024 then
    if k / 4 < s.nVectors fn then msixWrite s fn (k / 4) (k % 4) w else s
  else s

/-! ### The group windows (Table 02.1) -/

/-- A Fabric register. -/
def fabRegWrite (s : State) (off : Nat) (w : Word) : State :=
  if off = 0x0010 then s.modFab fun f => { f with timeout := fld w 0 16, toWas := f.timeout, toAt := s.dt }
  else if let some t := indexIn off 0x0100 0x10 6 then s.modTarget t fun x => { x with prioLo := w }
  else if let some t := indexIn off 0x0104 0x10 6 then s.modTarget t fun x => { x with prioHi := w }
  else if let some t := indexIn off 0x0108 0x10 6 then s.modTarget t fun x => { x with limit := fld w 0 10 }
  else if let some n := indexIn off 0x0200 4 16 then s.modSlotTab 0 fun x => { x with shadow := put x.shadow n w }
  else if let some n := indexIn off 0x0280 4 16 then s.modSlotTab 1 fun x => { x with shadow := put x.shadow n w }
  else if let some i := indexIn off 0x0400 4 2 then s.modSlotTab i fun x => { x with slotNs := fld w 0 7 }
  else if let some i := indexIn off 0x0800 4 2 then s.modFab fun f => { f with scrAddr := setHalf f.scrAddr (i = 1) w }
  else if let some i := indexIn off 0x0808 4 2 then s.modFab fun f => { f with scrLen := setHalf f.scrLen (i = 1) w }
  else if off = 0x0810 then s.modFab fun f => { f with scrRate := fld w 16 16 }
  else s

/-- A memory register: per-channel registers answer while the channel's island runs. -/
def memRegWrite (s : State) (off : Nat) (w : Word) : State :=
  if off = 0x0010 then
    if s.up 4 || s.up 5 then s.modMem fun m => { m with sched := keep w 0x00FF0FFF } else s
  else if let some c := indexIn off 0x1002C 0x1000 8 then
    if s.up (memIsl c) then s.modChan c fun x => { x with qidx := fld w 0 7 } else s
  else s

/-- A Chandelier register; the four islands share it. -/
def chdRegWrite (s : State) (off : Nat) (w : Word) : State :=
  if off = 0x0010 && (s.up 6 || s.up 7 || s.up 8 || s.up 9) then s.modChand fun c => { c with margin := fld w 0 12 }
  else s

/-- The administrative list of a port (R419, R422). -/
def gclWrite (x : Gcl) (r : Nat) (w : Word) : Gcl :=
  match r with
  | 0x00 => { x with len := fld w 0 9, enable := w.getLsbD 19, preempt := fld w 24 8 }
  | 0x04 => { x with cycle := fld w 0 30 }
  | 0x08 => { x with base := setHalf x.base false w }
  | 0x0C => { x with base := setHalf x.base true w }
  | _ => match indexIn r 0x0100 4 256 with
    | some i => { x with entries := put x.entries i w }
    | none => x

/-- A Network register. -/
def netWrite (s : State) (off : Nat) (w : Word) : State :=
  if let some d := indexIn off 0x0100 0x10 2 then s.modPtp d fun x => { x with pend := some (fld w 8 8) }
  else if 0x20000 ≤ off && off < 0x28000 then
    s.modGcl ((off - 0x20000) / 0x1000) fun x => gclWrite x (off % 0x1000) w
  else s

/-- An Audio register (R444, R473): settings of a port that carries an alarm route are not written, and counted. -/
def audWrite (s : State) (off : Nat) (w : Word) : State :=
  if let some n := indexIn off 0x0100 4 8 then
    s.modAudio fun a => { a with
      loopSel := put a.loopSel n (fld w 0 7), loopWas := if a.loopAt < s.dt then a.loopSel else a.loopWas, loopAt := s.dt }
  else if let some p := indexIn off 0x10000 0x100 4 then
    if s.audio.alarmTdm.contains p then s.modAudio fun a => { a with tdmDrop := a.tdmDrop + 1 }
    else s.modTdm p fun x => { x with cfg := keep w 0x3F }
  else s

/-- A register of the Watch island; a threshold above the image's value acts as the image's (WCH_THERM_CFG). -/
def wchWrite (s : State) (off : Nat) (w : Word) : State :=
  if off = 0x4004 then s.modFlt fun f => { f with idx := fld w 0 6 }
  else if off = 0x6080 then
    let cap := match s.img with
      | some im => im.throttleC
      | none => s.pwr.throttle
    s.modPwr fun p => { p with throttle := min (fld w 0 8) cap, hyst := fld w 8 4 }
  else s

/-! ### Head registers (R151, R154, R238) -/

/-- A region that only the secure world writes: its active or shadow KIND is SAFETY (R238). -/
def Check.isSafety (k : Check) : Bool := ckKind k.cfg = 1 || ckKind k.cfgL = 1 || ckKind k.cfgA = 1

/-- A check-region register (R237, R238); a normal-world write of a SAFETY region is a world violation too (R521). -/
def checkWrite (s : State) (fn h k r : Nat) (w : Word) : State :=
  let c := look (s.head h).checks k {}
  if !s.isSecure fn && c.isSafety then (worldViolation s (mantleOf h) fn).dropHead
  else if !s.isSecure fn && r = 0x00 && ckKind w = 1 then s.dropHead
  else match r with
    | 0x00 => s.modCheck h k fun c => { c with cfg := keep w 0x00FF01FF }
    | 0x04 => s.modCheck h k fun c => { c with pos := keep w 0x1FFF1FFF }
    | 0x08 => s.modCheck h k fun c => { c with size := keep w 0x1FFF1FFF }
    | _ => s

/-- A register of a head other than a check region, by its offset in the head's block. -/
def headReg (d : Head) (h r : Nat) (w : Word) : Head :=
  match r with
  | 0x30 => { d with blCfg := keep w 0x1FFF0007 }
  | 0x34 => { d with blDuty := keep w 0x0FFF0FFF }
  | 0x40 => { d with gIndex := fld w 0 10, gBank := w.getLsbD 12, gEnable := w.getLsbD 17 }
  | 0x50 => if isDp h then { d with aux := keep w 0x0FFFFFFF, auxShut := false } else d
  | 0x80 => { d with latchCfg := keep w 0xFFFF07FF }
  | 0x84 => { d with bg := keep w 0x3FFFFFFF }
  | _ => match indexIn r 0x54 4 4 with
    | some n => if isDp h then { d with auxData := put d.auxData n w.toNat } else d
    | none => d

/-- A write in the block of a head: the gamma registers of a safety head, and a native write in MNT_AUX_CMD, are the secure
world's (R151, R521). -/
def mntWrite (s : State) (fn off : Nat) (w : Word) : State :=
  if 0x80000 ≤ off && off < 0x8C000 then
    let h := (off - 0x80000) / 0x1000
    let r := off % 0x1000
    if 0x100 ≤ r && r < 0x300 then
      headWrite s fn h false fun s => checkWrite s fn h ((r - 0x100) / 0x20) (r % 0x20) w
    else headWrite s fn h (r = 0x40) fun s =>
      if r = 0x50 && fld w 0 4 = 8 && (s.safeOf h).safety && !s.isSecure fn then
        (worldViolation s (mantleOf h) fn).modHead h fun d => { d with auxShut := true }
      else s.modHead h fun d => headReg d h r w
  else s

/-! ### The command -/

/-- A register all of whose written fields have rows of their own, by window and offset: WCH_DT_CTRL, the requests and
clears, filters, locks, mailbox control, and in a head's block MNT_UNDERRUN_CLR, MNT_DIM and MNT_GAMMA_DATA. -/
def ownRow (win o : Nat) : Bool :=
  match win with
  | 0x1 => 0x1000 ≤ o && o < 0x1100
  | 0x2 => o = 0x0180 || (indexIn o 0x10040 0x1000 8).isSome
  | 0x4 => 0x80000 ≤ o && o < 0x8C000 && [0x28, 0x3C, 0x44].contains (o % 0x1000)
  | 0x6 => 0x40000 ≤ o && o < 0x44000
  | 0x9 => o = 0x1008 || o = 0x1010 || o = 0x5000
  | 0xA => o < 0x1000 && o % 0x100 = 0x80
  | _ => false

/-- A write to a group window from a PF (R55, R576): the image grants write access, and the island answers. -/
def groupWrite (s : State) (fn grp : Nat) (isUp : Bool) (k : State → State) : State :=
  if !isUp then s else if !s.mayWrite fn grp then s.dropGroup else k s

/-- A write at an offset of PF BAR 0. -/
def barWrite (s : State) (fn off : Nat) (w : Word) : State :=
  let o := off % 0x100000
  if ownRow (off / 0x100000) o then s
  else match off / 0x100000 with
  | 0x0 => if 0x80000 ≤ o && o < 0x90000 then pageWrite s fn (o - 0x80000) w else groupWrite s fn 0 (s.up 2) id
  | 0x1 => groupWrite s fn 1 (s.up 3) fun s => fabRegWrite s o w
  | 0x2 => groupWrite s fn 2 (s.up 4 || s.up 5) fun s => memRegWrite s o w
  | 0x3 => groupWrite s fn 3 (s.up 6 || s.up 7 || s.up 8 || s.up 9) fun s => chdRegWrite s o w
  | 0x4 => if 0x80000 ≤ o && o < 0x8C000 then mntWrite s fn o w else groupWrite s fn 4 (s.up 10 || s.up 11) id
  | 0x5 => groupWrite s fn 5 (s.up 12) id
  | 0x6 => groupWrite s fn 6 (s.up 13) fun s => netWrite s o w
  | 0x7 => groupWrite s fn 7 (s.up 14) id
  | 0x8 => groupWrite s fn 8 (s.up 15) fun s => audWrite s o w
  | 0x9 => groupWrite s fn 9 (s.up 1) fun s => wchWrite s o w
  | 0xA =>
    if o / 0x100 < 16 && o % 0x100 < 0x40 then mailboxWord s fn (o / 0x100) (o % 0x100 / 4) w
    else groupWrite s fn 10 (s.up 0) id
  | _ => s

/-- A function's BAR 2 answers: its registers do, and a VF in UNBOUND or QUARANTINED has no partition behind it (R56, R106). -/
def State.barOpen (s : State) (fn : Nat) : Bool := s.reach fn && s.up 3 && (fn < 2 || ((s.fnc fn).state ≠ 0 && (s.fnc fn).state ≠ 5))

/-- REGISTER_WRITE (R10-R14, R55, R576): narrow and unaligned writes have no effect; a VF writes its page, and the
registers of the heads it owns (notes/assumptions/13.md). A write through BAR 2 stores its bytes in the function's memory
(R56, R57), and is dropped in a lost partition (R366). -/
def execRegisterWrite (t : Time) (a : Access) (s : State) : Answer :=
  let s := s.at t
  if a.watch then .next (if a.size = 4 && a.off % 4 = 0 && !ownRow 4 a.off then mntWrite s 0x41 a.off a.val else s)
  else if a.bar2 then .next (if s.barOpen a.fn then memWrite s a.fn a.off (leBytes (min a.size 4) a.val.toNat) else s)
  else if a.size ≠ 4 || a.off % 4 ≠ 0 || !s.reach a.fn then .next s
  else if a.fn.val < 2 then .next (barWrite s a.fn a.off a.val)
  else if a.off < 0x10000 then .next (pageWrite s a.fn a.off a.val)
  else if a.off / 0x100000 = 4 && !ownRow 4 (a.off % 0x100000) then .next (mntWrite s a.fn (a.off % 0x100000) a.val)
  else .next s

end Sys2Proof.Machine
end

