-- ==== Sys2Proof/Machine/Wait.lean ====
section
/-! DEFINITION. The opcodes of Tables 02.7 and 02.11 with what their chapters say of them, and the start of a command
whose fence wait has ended (R80). -/

namespace Sys2Proof.Machine

/-- What the chapters say of each opcode. -/
def allSpecs : List OpSpec :=
  [specNop, specFenceSignal, specFenceWait, specGfxSubmit, specComputeSubmit, specPipeline, specCopy, specSparse,
   specFlip, specHeadConfig, specListUpdate, specDecode, specEncode, specCameraBind, specRoute, specSwap, specStream,
   specHapticPlay, specHapticArm, specTouchConfig, specNetTx, specNetRxPost, specCreate, specQuiesce, specDestroy,
   specRelease, specPool, specPartition, specScrub, specSecure]

/-- The command of a queue that waits on its fence. -/
def State.waiting (s : State) (fn q : Nat) : Option Flight := (s.queueFlights fn q).find? (·.stage = 0)

/-- WAIT_FENCE_MET (R80, R85): the fence value has reached WAIT_VALUE, and the command is judged again and runs. -/
def execWaitFenceMet (t : Time) (fn : Fin 64) (q : Fin 16) (s : State) : Answer :=
  let s := s.at t
  match s.waiting fn q with
  | none => .next s
  | some f =>
    if !s.up 2 || !s.fenceMet f.cmd then .next s
    else match allSpecs.find? (·.op = f.op) with
      | some p => .next (runUpdates (resume s p f))
      | none => .next s

end Sys2Proof.Machine
end

