-- ==== Sys2Proof/Machine/Serve.lean ====
section
/-! DEFINITION. Chapter 8: commands that wait for a channel that does not answer (R350, R361), served when it answers
within their window, and the commands that let it answer. -/

namespace Sys2Proof.Machine

/-- A command whose channel answers goes on: it does the write it has left, or runs again. -/
def serveWait (s : State) (w : MemWait) : State :=
  let s1 := s.modMem fun m => { m with waits := m.waits.filter (· ≠ w) }
  match s1.flight? w.flight, w.put with
  | none, _ => s1
  | some f, some (a, l, pay) => withWrite s1 f a l pay
  | some f, none =>
    if f.op = 0x0100 || f.op = 0x0101 then
      kickChandelier ((s1.ctxNos.filter fun c => (s1.ctx c).queue.head? = some f.id).foldl
        (fun s c => s.modCtx c fun x => { x with stall := none }) s1)
    else match allSpecs.find? (·.op = f.op) with
      | some p => p.run s1 f
      | none => s1

/-- The commands that wait for a channel that is READY are served: what they await becomes visible to them (R46, R350). -/
def serveWaits (s : State) : State := (s.mem.waits.filter fun w => (s.chan w.chan).state = 2).foldl serveWait s

/-- CHANNEL_TRAINING_DONE (R337-R341, R364, R365, R605, R640). -/
def execChannelTrainingDone (t : Time) (ch : Fin 8) (r : TrainResult) (s : State) : Answer :=
  .next (serveWaits (trainDone (s.at t) ch r))

/-- PARTITION_FILL_COMPLETE (R92, R107, R346). -/
def execPartitionFillComplete (t : Time) (mp : Fin 16) (s : State) : Answer :=
  let s := s.at t
  if !s.fillEnds mp then .next s else .next (serveWaits (tryLeaves (updMemReady (endFill s mp))))

/-- FABRIC_TIMEOUT (R350, R361, R372): a request, or the command or scrub that issued it, ends with MEM_FROZEN; one whose
channel answers in this cycle is served (R45). -/
def execFabricTimeout (t : Time) (req : Nat) (s : State) : Answer :=
  let s := serveWaits (s.at t)
  if !s.up 3 then .next s
  else
    let late := fun (e : MemReq × Time) => decide (e.1.id = req) && decide (s.dt ≥ e.2)
    let gone := s.mem.reqs.filter late
    let s1 := s.modMem fun m => { m with reqs := m.reqs.filter fun (e : MemReq × Time) => !late e }
    let s2 := gone.foldl (fun s e =>
      let c := e.1.addr / 2 ^ 34
      if (s.chan c).state = 3 then s else s.modBank c e.1.bank fun k => { k with queue := k.queue.filter (·.id ≠ req) }) s1
    let s3 := endWaits s2 (fun w => decide (w.flight = req) && decide (s.dt ≥ w.limit)) stMemFrozen
    .next ((List.range 8).foldl (fun s c =>
      match (s.chan c).scrub.bind (·.limit) with
      | some l => if ((s.chan c).scrub.bind (·.flight)) = some req && s.dt ≥ l then stopScrub s c else s
      | none => s) s3)

end Sys2Proof.Machine
end

