-- ==== Sys2Proof/Machine/Dispatch.lean ====
section
/-! DEFINITION. Which meaning each command has. -/

namespace Sys2Proof.Machine

open Host (Outcome)

def exec (i : Instr) (s : State) : Host.Outcome State Fault Refusal :=
  match i with
  | .registerWrite t a => Sys2Proof.Machine.execRegisterWrite t a s
  | .islResetReq t fn isl => Sys2Proof.Machine.execIslResetReq t fn isl s
  | .islandRelease t isl => Sys2Proof.Machine.execIslandRelease t isl s
  | .dtLoRead t ini => Sys2Proof.Machine.execDtLoRead t ini s
  | .dtSourceWrite t ini src => Sys2Proof.Machine.execDtSourceWrite t ini src s
  | .timeBusRound t => Sys2Proof.Machine.execTimeBusRound t s
  | .sqDoorbell t fn q w => Sys2Proof.Machine.execSqDoorbell t fn q w s
  | .cqDoorbell t fn q w => Sys2Proof.Machine.execCqDoorbell t fn q w s
  | .queueEnable t fn q cfg => Sys2Proof.Machine.execQueueEnable t fn q cfg s
  | .queueDisable t fn q cfg => Sys2Proof.Machine.execQueueDisable t fn q cfg s
  | .featuresOk t fn => Sys2Proof.Machine.execFeaturesOk t fn s
  | .featureDecision t fn => Sys2Proof.Machine.execFeatureDecision t fn s
  | .waitFenceMet t fn q => Sys2Proof.Machine.execWaitFenceMet t fn q s
  | .waitTimeout t fn q => Sys2Proof.Machine.execWaitTimeout t fn q s
  | .irqCoalesceTimeout t fn q => Sys2Proof.Machine.execIrqCoalesceTimeout t fn q s
  | .nop t c => Sys2Proof.Machine.execNop t c s
  | .fenceSignal t c => Sys2Proof.Machine.execFenceSignal t c s
  | .fenceWait t c => Sys2Proof.Machine.execFenceWait t c s
  | .vfCreate t c => Sys2Proof.Machine.execVfCreate t c s
  | .vfQuiesce t c => Sys2Proof.Machine.execVfQuiesce t c s
  | .quiesceTimeout t fn => Sys2Proof.Machine.execQuiesceTimeout t fn s
  | .quiesceComplete t fn => Sys2Proof.Machine.execQuiesceComplete t fn s
  | .vfDestroy t c => Sys2Proof.Machine.execVfDestroy t c s
  | .vfRelease t c => Sys2Proof.Machine.execVfRelease t c s
  | .poolQuery t c => Sys2Proof.Machine.execPoolQuery t c s
  | .partitionCreate t c => Sys2Proof.Machine.execPartitionCreate t c s
  | .scrub t c => Sys2Proof.Machine.execScrub t c s
  | .secureVfRequest t c => Sys2Proof.Machine.execSecureVfRequest t c s
  | .secureAuthTimeout t fn => Sys2Proof.Machine.execSecureAuthTimeout t fn s
  | .flr t fn => Sys2Proof.Machine.execFlr t fn s
  | .pfFlr t pf => Sys2Proof.Machine.execPfFlr t pf s
  | .sriovVfDisable t port => Sys2Proof.Machine.execSriovVfDisable t port s
  | .perstAssert t port => Sys2Proof.Machine.execPerstAssert t port s
  | .perstDeassert t port => Sys2Proof.Machine.execPerstDeassert t port s
  | .partitionFillComplete t mp => Sys2Proof.Machine.execPartitionFillComplete t mp s
  | .headConfig t c => Sys2Proof.Machine.execHeadConfig t c s
  | .headConfigApply t h => Sys2Proof.Machine.execHeadConfigApply t h s
  | .frameStart t h loopOk => Sys2Proof.Machine.execFrameStart t h loopOk s
  | .frameStartAbsent t h => Sys2Proof.Machine.execFrameStartAbsent t h s
  | .blankingStart t h cmpOk => Sys2Proof.Machine.execBlankingStart t h cmpOk s
  | .latch t h => Sys2Proof.Machine.execLatch t h s
  | .linkTrainingResult t h ok => Sys2Proof.Machine.execLinkTrainingResult t h ok s
  | .linkTrainingTimeout t h => Sys2Proof.Machine.execLinkTrainingTimeout t h s
  | .hpdRise t h sinkRate sinkLanes => Sys2Proof.Machine.execHpdRise t h sinkRate sinkLanes s
  | .hpdUnplug t h => Sys2Proof.Machine.execHpdUnplug t h s
  | .irqHpd t h lockLost => Sys2Proof.Machine.execIrqHpd t h lockLost s
  | .tailLine t h y ready fault => Sys2Proof.Machine.execTailLine t h y ready fault s
  | .underrunClr t ini h w => Sys2Proof.Machine.execUnderrunClr t ini h w s
  | .gammaDataWrite t ini h w => Sys2Proof.Machine.execGammaDataWrite t ini h w s
  | .gammaCommit t ini h => Sys2Proof.Machine.execGammaCommit t ini h s
  | .nightWrite t ini h night => Sys2Proof.Machine.execNightWrite t ini h night s
  | .pwmPeriodEnd t h => Sys2Proof.Machine.execPwmPeriodEnd t h s
  | .auxStart t ini h => Sys2Proof.Machine.execAuxStart t ini h s
  | .auxReply t h reply data => Sys2Proof.Machine.execAuxReply t h reply data s
  | .auxTimeout t h => Sys2Proof.Machine.execAuxTimeout t h s
  | .frameDtLoRead t ini h => Sys2Proof.Machine.execFrameDtLoRead t ini h s
  | .flip t c => Sys2Proof.Machine.execFlip t c s
  | .flipTimeout t h => Sys2Proof.Machine.execFlipTimeout t h s
  | .layerFetch t slot => Sys2Proof.Machine.execLayerFetch t slot s
  | .safetyListUpdate t c => Sys2Proof.Machine.execSafetyListUpdate t c s
  | .storeScrub t => Sys2Proof.Machine.execStoreScrub t s
  | .safetyLineRender t h y d => Sys2Proof.Machine.execSafetyLineRender t h y d s
  | .rendererRebuildDone t pair b => Sys2Proof.Machine.execRendererRebuildDone t pair b s
  | .wlHeartbeat t fn w => Sys2Proof.Machine.execWlHeartbeat t fn w s
  | .takeoverTimeout t => Sys2Proof.Machine.execTakeoverTimeout t s
  | .wlConfirm t fn w => Sys2Proof.Machine.execWlConfirm t fn w s
  | .handbackLimitExpiry t => Sys2Proof.Machine.execHandbackLimitExpiry t s
  | .telegramAccept t entry payload stamp => Sys2Proof.Machine.execTelegramAccept t entry payload stamp s
  | .signalStale t sig => Sys2Proof.Machine.execSignalStale t sig s
  | .ruleEvaluation t => Sys2Proof.Machine.execRuleEvaluation t s
  | .toneChange t => Sys2Proof.Machine.execToneChange t s
  | .ackinFall t pin => Sys2Proof.Machine.execAckinFall t pin s
  | .ackinPress t pin => Sys2Proof.Machine.execAckinPress t pin s
  | .ackinStuck t pin => Sys2Proof.Machine.execAckinStuck t pin s
  | .ackinRelease t pin => Sys2Proof.Machine.execAckinRelease t pin s
  | .wlAck t fn w => Sys2Proof.Machine.execWlAck t fn w s
  | .hapticAlarmRepeat t rule => Sys2Proof.Machine.execHapticAlarmRepeat t rule s
  | .wlStandby t fn w => Sys2Proof.Machine.execWlStandby t fn w s
  | .gfxSubmit t c => Sys2Proof.Machine.execGfxSubmit t c s
  | .computeSubmit t c => Sys2Proof.Machine.execComputeSubmit t c s
  | .pipelineCompile t c => Sys2Proof.Machine.execPipelineCompile t c s
  | .copy t c => Sys2Proof.Machine.execCopy t c s
  | .sparseBind t c => Sys2Proof.Machine.execSparseBind t c s
  | .submissionComplete t ctx => Sys2Proof.Machine.execSubmissionComplete t ctx s
  | .waitMemMatch t ctx => Sys2Proof.Machine.execWaitMemMatch t ctx s
  | .waitMemTimeout t ctx => Sys2Proof.Machine.execWaitMemTimeout t ctx s
  | .shareWindow t => Sys2Proof.Machine.execShareWindow t s
  | .deadlineEvaluation t => Sys2Proof.Machine.execDeadlineEvaluation t s
  | .preemptSaveDone t ctx => Sys2Proof.Machine.execPreemptSaveDone t ctx s
  | .channelTrainingDone t ch r => Sys2Proof.Machine.execChannelTrainingDone t ch r s
  | .wckOscTrack t ch rd wr => Sys2Proof.Machine.execWckOscTrack t ch rd wr s
  | .bankRefresh t ch bank postpone => Sys2Proof.Machine.execBankRefresh t ch bank postpone s
  | .pageIdleClose t ch bank => Sys2Proof.Machine.execPageIdleClose t ch bank s
  | .fabricTimeout t req => Sys2Proof.Machine.execFabricTimeout t req s
  | .channelFreeze t ch r => Sys2Proof.Machine.execChannelFreeze t ch r s
  | .chRecover t fn ch w => Sys2Proof.Machine.execChRecover t fn ch w s
  | .autoRecoverExpiry t ch => Sys2Proof.Machine.execAutoRecoverExpiry t ch s
  | .cacheLineLost t line => Sys2Proof.Machine.execCacheLineLost t line s
  | .mpLostClr t fn w => Sys2Proof.Machine.execMpLostClr t fn w s
  | .scrubStart t fn => Sys2Proof.Machine.execScrubStart t fn s
  | .scrubDone t ch => Sys2Proof.Machine.execScrubDone t ch s
  | .snufferBite t target => Sys2Proof.Machine.execSnufferBite t target s
  | .slotCommit t fn k => Sys2Proof.Machine.execSlotCommit t fn k s
  | .slotRoundBoundary t k => Sys2Proof.Machine.execSlotRoundBoundary t k s
  | .hlAcquire t ini secure n => Sys2Proof.Machine.execHlAcquire t ini secure n s
  | .hlRelease t ini path n => Sys2Proof.Machine.execHlRelease t ini path n s
  | .hlTornClear t ini path n => Sys2Proof.Machine.execHlTornClear t ini path n s
  | .frzQdataRead t fn ch => Sys2Proof.Machine.execFrzQdataRead t fn ch s
  | .csiPacket t port hd => Sys2Proof.Machine.execCsiPacket t port hd s
  | .csiFrameStart t port dtype => Sys2Proof.Machine.execCsiFrameStart t port dtype s
  | .csiLine t port crcOk pixels => Sys2Proof.Machine.execCsiLine t port crcOk pixels s
  | .csiFrameDone t port => Sys2Proof.Machine.execCsiFrameDone t port s
  | .csiSignalLost t port => Sys2Proof.Machine.execCsiSignalLost t port s
  | .cameraBind t c => Sys2Proof.Machine.execCameraBind t c s
  | .mediaDecode t c => Sys2Proof.Machine.execMediaDecode t c s
  | .mediaPicture t fn session concealed => Sys2Proof.Machine.execMediaPicture t fn session concealed s
  | .mediaEncode t c => Sys2Proof.Machine.execMediaEncode t c s
  | .mediaSlice t fn session idr nal => Sys2Proof.Machine.execMediaSlice t fn session idr nal s
  | .ethFrameRx t port f => Sys2Proof.Machine.execEthFrameRx t port f s
  | .ptpSyncRx t d port gptpTime rate => Sys2Proof.Machine.execPtpSyncRx t d port gptpTime rate s
  | .ptpSyncTimeout t d => Sys2Proof.Machine.execPtpSyncTimeout t d s
  | .ptpOffsetLoRead t ini d => Sys2Proof.Machine.execPtpOffsetLoRead t ini d s
  | .gclCommit t fn p => Sys2Proof.Machine.execGclCommit t fn p s
  | .gclTakeover t p => Sys2Proof.Machine.execGclTakeover t p s
  | .gateIntervalEnd t p => Sys2Proof.Machine.execGateIntervalEnd t p s
  | .filterWrite t fn f word val => Sys2Proof.Machine.execFilterWrite t fn f word val s
  | .sakInstall t p => Sys2Proof.Machine.execSakInstall t p s
  | .netTx t c => Sys2Proof.Machine.execNetTx t c s
  | .netRxPost t c => Sys2Proof.Machine.execNetRxPost t c s
  | .canFrameRx t p f => Sys2Proof.Machine.execCanFrameRx t p f s
  | .canBusOff t p => Sys2Proof.Machine.execCanBusOff t p s
  | .canBusOffRecovered t p => Sys2Proof.Machine.execCanBusOffRecovered t p s
  | .sampleBoundary t tdmIn convIn => Sys2Proof.Machine.execSampleBoundary t tdmIn convIn s
  | .audioRoute t c => Sys2Proof.Machine.execAudioRoute t c s
  | .audioBankSwap t c => Sys2Proof.Machine.execAudioBankSwap t c s
  | .audioStream t c => Sys2Proof.Machine.execAudioStream t c s
  | .safeLoadTrigger t fn => Sys2Proof.Machine.execSafeLoadTrigger t fn s
  | .tdmFrameSync t p offsetPpm => Sys2Proof.Machine.execTdmFrameSync t p offsetPpm s
  | .tdmSyncLost t p => Sys2Proof.Machine.execTdmSyncLost t p s
  | .touchFrame t p bytes => Sys2Proof.Machine.execTouchFrame t p bytes s
  | .panelLost t p => Sys2Proof.Machine.execPanelLost t p s
  | .scScan t raw => Sys2Proof.Machine.execScScan t raw s
  | .touchLongHold t isObj index contact => Sys2Proof.Machine.execTouchLongHold t isObj index contact s
  | .maxHoldRecal t isObj index contact => Sys2Proof.Machine.execMaxHoldRecal t isObj index contact s
  | .touchConfig t c => Sys2Proof.Machine.execTouchConfig t c s
  | .hapticPlay t c => Sys2Proof.Machine.execHapticPlay t c s
  | .hapticArm t c => Sys2Proof.Machine.execHapticArm t c s
  | .htrigEdge t ch falling => Sys2Proof.Machine.execHtrigEdge t ch falling s
  | .bemfSenseWindow t ch crossing => Sys2Proof.Machine.execBemfSenseWindow t ch crossing s
  | .maxOnCut t ch => Sys2Proof.Machine.execMaxOnCut t ch s
  | .mainDriveEnd t ch => Sys2Proof.Machine.execMainDriveEnd t ch s
  | .brakingEnd t ch => Sys2Proof.Machine.execBrakingEnd t ch s
  | .mailboxGo t fn mb w => Sys2Proof.Machine.execMailboxGo t fn mb w s
  | .mailboxDoneClear t fn mb => Sys2Proof.Machine.execMailboxDoneClear t fn mb s
  | .info t mb => Sys2Proof.Machine.execInfo t mb s
  | .claim t mb => Sys2Proof.Machine.execClaim t mb s
  | .unclaim t mb => Sys2Proof.Machine.execUnclaim t mb s
  | .authBegin t mb => Sys2Proof.Machine.execAuthBegin t mb s
  | .authSigR t mb => Sys2Proof.Machine.execAuthSigR t mb s
  | .authSigS t mb => Sys2Proof.Machine.execAuthSigS t mb s
  | .advBegin t mb => Sys2Proof.Machine.execAdvBegin t mb s
  | .advSigR t mb => Sys2Proof.Machine.execAdvSigR t mb s
  | .advSigS t mb => Sys2Proof.Machine.execAdvSigS t mb s
  | .perfHoldEnd t isl => Sys2Proof.Machine.execPerfHoldEnd t isl s
  | .faultReport t isl src stamp => Sys2Proof.Machine.execFaultReport t isl src stamp s
  | .watchdogKick t => Sys2Proof.Machine.execWatchdogKick t s
  | .firmwareWatchdog t => Sys2Proof.Machine.execFirmwareWatchdog t s
  | .wickEdge t => Sys2Proof.Machine.execWickEdge t s
  | .lockstepMismatch t => Sys2Proof.Machine.execLockstepMismatch t s
  | .pwrReq t fn w => Sys2Proof.Machine.execPwrReq t fn w s
  | .retentionEnter t isl => Sys2Proof.Machine.execRetentionEnter t isl s
  | .retentionTimeout t isl => Sys2Proof.Machine.execRetentionTimeout t isl s
  | .clockGatedWake t isl => Sys2Proof.Machine.execClockGatedWake t isl s
  | .thermalCheck t temps => Sys2Proof.Machine.execThermalCheck t temps s
  | .thermalShutdown t temps => Sys2Proof.Machine.execThermalShutdown t temps s
  | .ageingCheck t delaysPs => Sys2Proof.Machine.execAgeingCheck t delaysPs s
  | .railStep t r readMv => Sys2Proof.Machine.execRailStep t r readMv s
  | .railReadyTimeout t r => Sys2Proof.Machine.execRailReadyTimeout t r s
  | .railCurrentRead t amps => Sys2Proof.Machine.execRailCurrentRead t amps s
  | .standbyCycle t => Sys2Proof.Machine.execStandbyCycle t s
  | .standbyExit t => Sys2Proof.Machine.execStandbyExit t s
  | .fltDtHiRead t fn => Sys2Proof.Machine.execFltDtHiRead t fn s
  | .smbBootStat t pecOk => Sys2Proof.Machine.execSmbBootStat t pecOk s
  | .smbFltStat t pecOk => Sys2Proof.Machine.execSmbFltStat t pecOk s
  | .smbTempMax t pecOk => Sys2Proof.Machine.execSmbTempMax t pecOk s
  | .smbStandby t pecOk => Sys2Proof.Machine.execSmbStandby t pecOk s
  | .smbRun t pecOk => Sys2Proof.Machine.execSmbRun t pecOk s
  | .smbAlertResponse t => Sys2Proof.Machine.execSmbAlertResponse t s
  | .railsGood t => Sys2Proof.Machine.execRailsGood t s
  | .porstAssert t lowNs => Sys2Proof.Machine.execPorstAssert t lowNs s
  | .porstDeassert t memcfg bootsel => Sys2Proof.Machine.execPorstDeassert t memcfg bootsel s
  | .sramFillDone t => Sys2Proof.Machine.execSramFillDone t s
  | .componentVerify t ok err ages => Sys2Proof.Machine.execComponentVerify t ok err ages s
  | .imageLoad t img => Sys2Proof.Machine.execImageLoad t img s
  | .pciePortReady t port => Sys2Proof.Machine.execPciePortReady t port s
  | .bootLinkCheck t h => Sys2Proof.Machine.execBootLinkCheck t h s
  | .vddAoLow t => Sys2Proof.Machine.execVddAoLow t s
  | .pcieLinkUp t port gen width => Sys2Proof.Machine.execPcieLinkUp t port gen width s
  | .sriovVfEnable t port numVfs => Sys2Proof.Machine.execSriovVfEnable t port numVfs s
  | .ethLinkChange t p up rate => Sys2Proof.Machine.execEthLinkChange t p up rate s
  | .canBusError t p tec rxec => Sys2Proof.Machine.execCanBusError t p tec rxec s
  | .controllerCycle t ch arrivals ready => Sys2Proof.Machine.execControllerCycle t ch arrivals ready s
  | .arbitrationDecision t target requests => Sys2Proof.Machine.execArbitrationDecision t target requests s

end Sys2Proof.Machine
end

