-- ==== Sys2Proof/Machine/Flags.lean ====
section
/-! DEFINITION. What a register reads: the read value of every register the spec describes, as a function of the state
(R10-R14, R55, R576). The reads that change something (the LO halves of a snapshot pair, a lock, MEM_FRZ_QDATA,
WCH_FLT_DT_HI) are commands of their own; their values stand here too. Reserved offsets read zero (R12). -/

namespace Sys2Proof.Machine

/-- One half of a 64-bit value. -/
def halfOf (n : Nat) (hi : Bool) : Nat := if hi then hi32 n else lo32 n

/-! ### The function page -/

def fnStatusReg (s : State) (fn : Nat) : Nat :=
  let f := s.fnc fn
  f.state + 2 ^ 3 * b2n f.hostReset + 2 ^ 8 * fn + 2 ^ 14 * b2n (s.portOf fn = 1) + 2 ^ 15 * b2n f.secure + 2 ^ 16 * f.discards

def qCfgReg (u : Queue) : Nat :=
  u.sqLog2 + 2 ^ 4 * u.cqLog2 + 2 ^ 8 * u.engine + 2 ^ 12 * u.priority + 2 ^ 16 * u.waitTo + 2 ^ 31 * b2n u.enable

def qIrqReg (u : Queue) : Nat := u.vector + 2 ^ 8 * u.coalN + 2 ^ 16 * u.coalT

/-- Q_STAT: ACTIVE while the queue is enabled and its function's commands start. -/
def qStatReg (s : State) (fn q : Nat) : Nat :=
  let u := s.que fn q
  u.cons + 2 ^ 16 * b2n u.consGen + 2 ^ 17 * b2n (u.enable && (s.fnc fn).state = 2) + 2 ^ 18 * b2n u.cfgErr +
  2 ^ 19 * b2n (u.held ≠ [] || (u.enable && s.cqFull fn q)) + 2 ^ 24 * (s.fnc fn).qids.getD q 0

def featCtrlReg (f : Func) : Nat := b2n f.featOk + 2 * b2n f.deciding + 2 ^ 8 * f.reason

def msixWord (m : Msix) (k : Nat) : Nat :=
  match k with
  | 0 => m.addrLo.toNat
  | 1 => m.addrHi.toNat
  | 2 => m.data.toNat
  | _ => m.ctrl.toNat

/-- The pending-bit array (R82). -/
def pendWord (f : Func) (w : Nat) : Nat := listMask ((List.range 32).filter fun i => (look f.msix (32 * w + i) {}).pend)

def slCtrlReg (x : SafeLoad) : Nat := x.count + 2 ^ 3 * b2n x.trig + 2 ^ 16 * x.skip

def mbCtrlReg (m : Nat) (x : Mbox) : Nat :=
  2 * b2n x.busy + 4 * b2n x.done + 8 * b2n x.overrun + 16 * b2n (m < 8 || x.mapped.isSome)

/-- The registers of a mailbox, by offset in its 256 bytes, to its user only (R523). -/
def mailboxReg (s : State) (fn m o : Nat) : Nat :=
  let x := s.mbox m
  if !s.up 0 || s.mbUser m ≠ some fn then 0
  else if o < 0x40 then (look x.req (o / 4) 0).toNat
  else if o < 0x80 then (look x.rsp (o / 4 - 16) 0).toNat
  else if o = 0x80 then mbCtrlReg m x
  else 0

def wlModeReg (w : Watchlamp) : Nat := w.mode + 4 * b2n w.confFail + 8 * b2n w.sysAlarm + 2 ^ 16 * w.hbLast

def wlRuleReg (s : State) (r : Nat) : Nat :=
  let prio := match s.img.bind fun im => (im.rules.find? fun (e : Nat × AlarmRule) => e.1 = r) with
    | some e => e.2.priority.val
    | none => 0
  (s.ruleSt r).state + 4 * prio + 2 ^ 8 * (s.ruleSt r).actSeq

def wlStaleReg (s : State) (n : Nat) : Nat := listMask ((List.range 32).filter fun i => (s.sigOf (32 * n + i)).stale)

/-- Watchlamp's registers on the safety guest's page: to the secure world only (Table 13.2, R521). -/
def wlReg (s : State) (fn off : Nat) : Nat :=
  if !s.isSafety fn || !s.isSecure fn || !s.up 1 then 0
  else if off = 0x0140 then wlModeReg s.wl
  else if off = 0x0150 then s.wl.gen
  else if let some r := indexIn off 0x0800 4 128 then wlRuleReg s r
  else if let some n := indexIn off 0x0A00 4 8 then wlStaleReg s n
  else if let some n := indexIn off 0x0C00 4 256 then code 32 (s.sigOf n).value
  else 0

/-- The view of a lock as a read by an initiator would return it, without the acquisition. -/
def lockReg (s : State) (ini n : Nat) : Nat :=
  if s.lockShut ini false n then 0 else lockWord (s.lock n) ((s.lock n).held && (s.lock n).owner = ini)

/-- A register of the function page (Table 02.2). -/
def pageReg (s : State) (fn off : Nat) : Nat :=
  let f := s.fnc fn
  if off = 0x0100 then fnStatusReg s fn
  else if off = 0x0104 then f.eventQ
  else if let some e := indexIn off 0x0160 4 5 then look (s.safeLoad fn).data e 0
  else if let some e := indexIn off 0x0174 4 5 then look (s.safeLoad fn).addr e 0
  else if off = 0x0188 then slCtrlReg (s.safeLoad fn)
  else if 0x0200 ≤ off && off < 0x0400 then
    let q := (off - 0x0200) / 0x20
    let u := s.que fn q
    if q ≥ s.nQueues fn then 0
    else match off % 0x20 with
      | 0x00 => lo32 u.sqBase
      | 0x04 => hi32 u.sqBase
      | 0x08 => lo32 u.cqBase
      | 0x0C => hi32 u.cqBase
      | 0x10 => qCfgReg u
      | 0x14 => qIrqReg u
      | 0x18 => qStatReg s fn q
      | _ => 0
  else if 0x0600 ≤ off && off < 0x0700 then
    match s.slotBox fn with
    | some m => mailboxReg s fn m (off - 0x0600)
    | none => 0
  else if let some n := indexIn off 0x1000 4 4 then s.offer fn / 2 ^ (32 * n) % 2 ^ 32
  else if let some n := indexIn off 0x1010 4 4 then f.accept / 2 ^ (32 * n) % 2 ^ 32
  else if off = 0x1020 then featCtrlReg f
  else if let some k := indexIn off 0x2000 4 1024 then
    if k / 4 < s.nVectors fn then msixWord (look f.msix (k / 4) {}) (k % 4) else 0
  else if off = 0x3000 then pendWord f 0
  else if let some k := indexIn off 0x4000 4 32 then (grantWords f.grant).getD k 0
  else if let some n := indexIn off 0x5000 4 64 then if s.up 3 then lockReg s fn n else 0
  else wlReg s fn off

/-! ### Fabric and memory -/

def slotCtrlReg (x : SlotTable) : Nat := x.slotNs + 2 ^ 8 * b2n x.commit + 2 ^ 16 * x.rounds

def fabReg (s : State) (fn off : Nat) : Nat :=
  let f := s.fab
  if off = 0x0010 then f.timeout
  else if let some t := indexIn off 0x0100 0x10 6 then (s.target t).prioLo.toNat
  else if let some t := indexIn off 0x0104 0x10 6 then (s.target t).prioHi.toNat
  else if let some t := indexIn off 0x0108 0x10 6 then (s.target t).limit
  else if let some t := indexIn off 0x010C 0x10 6 then (s.target t).bites + 2 ^ 28 * (s.target t).port
  else if let some n := indexIn off 0x0200 4 16 then (look (s.slotTab 0).shadow n 0).toNat
  else if let some n := indexIn off 0x0280 4 16 then (look (s.slotTab 1).shadow n 0).toNat
  else if let some n := indexIn off 0x0300 4 16 then (look (s.slotTab 0).active n 0).toNat
  else if let some n := indexIn off 0x0380 4 16 then (look (s.slotTab 1).active n 0).toNat
  else if let some i := indexIn off 0x0400 4 2 then slotCtrlReg (s.slotTab i)
  else if let some i := indexIn off 0x0800 4 2 then halfOf f.scrAddr (i = 1)
  else if let some i := indexIn off 0x0808 4 2 then halfOf f.scrLen (i = 1)
  else if off = 0x0810 then b2n f.scrBusy + 2 * b2n f.scrBusy + 4 * b2n f.scrRef + 2 ^ 16 * f.scrRate
  else if let some n := indexIn off 0x0840 4 16 then look f.scrSum n 0
  else if let some n := indexIn off 0x1000 4 64 then lockReg s fn n
  else 0

def mpStatReg (s : State) (p : Nat) : Nat :=
  let x := s.part p
  x.state + 2 ^ 8 * listMask x.live + 2 ^ 16 * x.holder + 2 ^ 22 * b2n (x.creator < 2 && (s.window x.creator).contains p)

/-- Four byte lanes packed, lane 0 lowest. -/
def laneWord (t : Tbl Nat) : Nat := look t 0 0 + 2 ^ 8 * look t 1 0 + 2 ^ 16 * look t 2 0 + 2 ^ 24 * look t 3 0

def chanReg (x : Chan) (o : Nat) : Nat :=
  match o with
  | 0x00 => x.state + 2 ^ 8 * x.cap + 2 ^ 16 * x.freezes
  | 0x04 => laneWord x.rd
  | 0x08 => laneWord x.wr
  | 0x0C => x.rdEye + 2 ^ 8 * x.rdLane + 2 ^ 16 * x.wrEye + 2 ^ 24 * x.wrLane
  | 0x10 => x.ecc
  | 0x20 => lo32 x.frzAddr
  | 0x24 => hi32 x.frzAddr
  | 0x28 => x.frzSyn + 2 ^ 8 * x.frzSrc + 2 ^ 16 * b2n x.frzSec + 2 ^ 17 * x.frzCmd + 2 ^ 20 * x.frzBank + 2 ^ 24 * x.frzQ
  | 0x2C => x.qidx
  | 0x30 => look x.qdump x.qidx 0
  | _ => 0

def memReg (s : State) (off : Nat) : Nat :=
  if off = 0x0010 then s.mem.sched.toNat
  else if let some p := indexIn off 0x0100 8 16 then mpStatReg s p
  else if let some p := indexIn off 0x0104 8 16 then (s.part p).size + 2 ^ 16 * (s.part p).base
  else if 0x10000 ≤ off && off < 0x18000 then
    let c := (off - 0x10000) / 0x1000
    if s.up (memIsl c) then chanReg (s.chan c) (off % 0x1000) else 0
  else 0

/-! ### Chandelier, Media, Network, Sense, Audio -/

def ctxStatReg (x : Ctx) : Nat := x.state + 2 ^ 3 * x.info.kind + 2 ^ 4 * x.fn + 2 ^ 10 * x.locl

def chdReg (s : State) (off : Nat) : Nat :=
  if off = 0x0010 then s.chand.margin
  else if off = 0x0020 then s.chand.preempts
  else if off = 0x0024 then s.chand.partials
  else if off = 0x0028 then s.chand.robust
  else if let some c := indexIn off 0x1000 4 64 then ctxStatReg (s.ctx c)
  else 0

def medReg (s : State) (off : Nat) : Nat :=
  if let some p := indexIn off 0x10000 0x100 8 then
    let x := s.csi p
    x.lanes + 2 ^ 3 * b2n x.signal + 2 ^ 4 * x.vc + 2 ^ 8 * x.dtype + 2 ^ 16 * x.frames
  else if let some p := indexIn off 0x10004 0x100 8 then
    let x := s.csi p
    x.ecc + 2 ^ 8 * x.crc + 2 ^ 16 * x.size + 2 ^ 24 * x.other
  else 0

def gclReg (x : Gcl) (o : Nat) : Nat :=
  match o with
  | 0x00 => x.len + 2 ^ 17 * b2n x.pending + 2 ^ 18 * b2n x.err + 2 ^ 19 * b2n x.enable + 2 ^ 24 * x.preempt
  | 0x04 => x.cycle
  | 0x08 => lo32 x.base
  | 0x0C => hi32 x.base
  | _ => match indexIn o 0x0100 4 256 with
    | some i => (look x.entries i 0x000001FF).toNat
    | none => 0

/-- A word of a stream filter (Table 10.3). -/
def filterReg (x : StreamFilter) (i : Nat) : Nat :=
  match i with
  | 0 => b2n x.valid + 2 * b2n x.prioEn + 4 * x.prio + 2 ^ 16 * x.vid
  | 1 => lo32 x.dst
  | 2 => hi32 x.dst + 2 ^ 16 * x.maxSdu
  | _ => x.portMask + 2 ^ 12 * x.recovery + 2 ^ 20 * b2n x.recoveryEn + 2 ^ 21 * x.fn + 2 ^ 27 * x.netq

def netReg (s : State) (fn off : Nat) : Nat :=
  if let some d := indexIn off 0x0100 0x10 2 then
    let x := s.ptp d
    b2n x.synced + 2 ^ 4 * x.port + 2 ^ 8 * (x.pend.getD (x.domain.getD d))
  else if let some d := indexIn off 0x0104 0x10 2 then code 32 (s.ptp d).offset
  else if let some d := indexIn off 0x0108 0x10 2 then code 64 (look s.time.snapPtp (2 * fn + d) 0) / 2 ^ 32
  else if let some p := indexIn off 0x10000 0x100 8 then
    let x := s.eport p
    b2n x.link + 2 * x.rate + 2 ^ 4 * b2n x.macsec + 2 ^ 16 * x.drops
  else if 0x20000 ≤ off && off < 0x28000 then gclReg (s.gcl ((off - 0x20000) / 0x1000)) (off % 0x1000)
  else if let some n := indexIn off 0x30000 0x100 2 then
    let x := s.can n
    x.state + 2 ^ 8 * x.tec + 2 ^ 16 * x.rxec + 2 ^ 24 * x.offs
  else if 0x40000 ≤ off && off < 0x44000 then filterReg (look s.net.filters ((off - 0x40000) / 16) {}) (off / 4 % 4)
  else 0

/-- Who reads a Sense register: its holder, or a PF with access to the group; others see zeros. -/
def State.readsSense (s : State) (fn : Nat) (mine : Bool) : Bool := mine || s.mayWrite fn 7

def hapStatReg (x : Hap) : Nat :=
  x.state + 2 ^ 2 * (x.cur.map (·.n)).getD 0 + 2 ^ 9 * b2n ((x.cur.map (·.alarm)).getD false) + 2 ^ 10 * b2n x.open_ +
  2 ^ 16 * x.freq

/-- SNS_HP_WINDOW: the drive time in [t - 2 s, t) in ms. -/
def hapWindowReg (s : State) (n : Nat) : Nat :=
  driveIn (s.driveDone n) (s.dt - 2000 * ms) (min s.dt (2000 * ms)) / ms + 2 ^ 16 * (s.hap n).refused

def snsReg (s : State) (fn off : Nat) : Nat :=
  let g := (s.fnc fn).grant
  if let some p := indexIn off 0x10000 0x100 4 then
    let x := s.panel p
    if !s.readsSense fn (g.tpMask.testBit p) then 0
    else b2n x.link + 2 * b2n x.reports + 4 * x.contacts.length + 2 ^ 8 * x.seq + 2 ^ 16 * x.frames
  else if let some p := indexIn off 0x10004 0x100 4 then
    let x := s.panel p
    if !s.readsSense fn (g.tpMask.testBit p) then 0
    else x.rejected + 2 ^ 8 * x.gaps + 2 ^ 16 * x.water + 2 ^ 24 * x.excess
  else if let some o := indexIn off 0x20000 0x10 24 then
    let x := s.obj o
    if !s.readsSense fn (g.scMask.testBit o) then 0
    else x.kind + 4 * b2n x.touched + 2 ^ 6 * x.pos + 2 ^ 16 * x.delta
  else if let some n := indexIn off 0x30000 0x100 8 then
    if s.readsSense fn (g.hapticMask.testBit n) then hapStatReg (s.hap n) else 0
  else if let some n := indexIn off 0x30004 0x100 8 then
    if s.readsSense fn (g.hapticMask.testBit n) then hapWindowReg s n else 0
  else 0

def audReg (s : State) (off : Nat) : Nat :=
  if let some n := indexIn off 0x0100 4 8 then look s.audio.loopSel n 0
  else if let some p := indexIn off 0x10000 0x100 4 then (s.tdm p).cfg.toNat
  else if let some p := indexIn off 0x10004 0x100 4 then b2n (s.tdm p).lost + 2 ^ 16 * code 16 (s.tdm p).off
  else if let some n := indexIn off 0x20000 4 16 then look s.audio.gaps n 0
  else 0

/-! ### Mantle -/

def headStatReg (s : State) (h : Nat) : Nat :=
  let d := s.head h
  d.mode + 2 ^ 6 * d.role + 2 ^ 8 * d.cloneSrc + 2 ^ 12 * b2n (s.safeOf h).safety + 2 ^ 13 * b2n (d.hpd && isDp h) +
  2 ^ 14 * b2n d.dual + 2 ^ 16 * d.link + 2 ^ 20 * d.rate + 2 ^ 24 * d.lanes + 2 ^ 28 * d.bpc

def ratUp (r : Rat) : Nat := r.ceil.toNat

/-- MNT_FETCH_DEMAND in MB/s, rounded up (R202). -/
def fetchDemandReg (s : State) (h : Nat) : Nat :=
  ratUp (s.headDemand h / 1000) + 2 ^ 16 * ratUp (s.islandDemand (mantleOf h) / 1000)

def checkReg (c : Check) (r : Nat) : Nat :=
  match r with
  | 0x00 => c.cfg.toNat
  | 0x04 => c.pos.toNat
  | 0x08 => c.size.toNat
  | 0x0C => b2n c.frozen + 2 * b2n c.mismatch + 4 * b2n c.skipped + 2 ^ 8 * c.count
  | 0x10 => c.crc
  | 0x14 => c.expect
  | _ => 0

/-- A register of a head, by its offset in the head's block; FRAME_DT_HI is the reader's snapshot (R42). The gamma registers of
a safety head read zero to the normal world (R151, R520). MNT_GAMMA_DATA reads the entry of the addressed shadow bank at
INDEX (R14, Table 00.7; notes/assumptions/157.md, DEDUCED). -/
def headRegRead (s : State) (fn h r : Nat) : Nat :=
  let d := s.head h
  let shut := (s.safeOf h).safety && !s.isSecure fn
  match r with
  | 0x00 => headStatReg s h
  | 0x04 => d.frames
  | 0x08 => lo32 d.frameDt
  | 0x0C => hi32 (look s.time.snapFrame (16 * fn + h) 0)
  | 0x10 => d.lock + 4 * d.lockCsi + 2 ^ 16 * code 16 d.trim
  | 0x14 => code 32 d.phase
  | 0x20 => d.undPix
  | 0x24 => d.undLines
  | 0x30 => d.blCfg.toNat
  | 0x34 => d.blDuty.toNat
  | 0x38 => (s.safeOf h).floor
  | 0x3C => b2n d.nightNow + 2 * b2n d.nightP
  | 0x40 => if shut then 0 else d.gIndex + 2 ^ 12 * b2n d.gBank + 2 ^ 16 * b2n d.gCommit + 2 ^ 17 * b2n d.gEnable
  | 0x44 => if shut then 0 else look d.gShadow (1024 * b2n d.gBank + d.gIndex) 0
  | 0x50 => d.aux.toNat + 2 ^ 28 * b2n d.auxBusy + 2 ^ 29 * b2n d.auxBusy + 2 ^ 30 * d.auxRes
  | 0x80 => d.latchCfg.toNat
  | 0x84 => d.bg.toNat
  | 0x88 => d.pend.length + 2 ^ 16 * d.nApplied
  | 0x8C => fetchDemandReg s h
  | _ => match indexIn r 0x54 4 4 with
    | some n => look d.auxData n 0
    | none => if 0x100 ≤ r && r < 0x300 then checkReg (look d.checks ((r - 0x100) / 0x20) {}) (r % 0x20) else 0

/-- A register of a layer slot: to the owner of its head and to its holder (chapter 4). -/
def slotReg (s : State) (fn n r : Nat) : Nat :=
  let x := s.slotOf n
  let l := x.layer
  if !(s.ownsHead fn x.head || (s.fnc fn).grant.slotMask.testBit n) then 0
  else match r with
    | 0x00 => x.head + 2 ^ 4 * b2n l.enable + 2 ^ 5 * l.z + 2 ^ 8 * s.formatOf n + 2 ^ 12 * b2n l.bcs + 2 ^ 13 * b2n l.lineLock +
        2 ^ 14 * b2n (s.slotOpaque n) + 2 ^ 15 * b2n x.hidden + 2 ^ 16 * x.fn
    | 0x04 => l.srcW + 2 ^ 16 * l.srcH
    | 0x08 => l.dstW + 2 ^ 16 * l.dstH
    | 0x0C => x.skipped + 2 ^ 16 * x.fetched
    | 0x10 => x.bcsErr + 2 ^ 16 * x.ringMiss
    | _ => 0

/-- A register of the MNT window; the two Mantle islands answer for their own heads and slots. -/
def mntReg (s : State) (fn off : Nat) : Nat :=
  if 0x20000 ≤ off && off < 0x21000 then
    let n := (off - 0x20000) / 0x40
    if s.up (if n < 32 then 10 else 11) then slotReg s fn n (off % 0x40) else 0
  else if 0x80000 ≤ off && off < 0x8C000 then
    let h := (off - 0x80000) / 0x1000
    if s.up (mantleOf h) then headRegRead s fn h (off % 0x1000) else 0
  else 0

/-! ### Watch and Lantern -/

def safeHeadReg (x : SafeHead) : Nat :=
  b2n x.safety + 2 ^ 4 * x.partner + 2 ^ 8 * b2n x.reloc + 2 ^ 9 * b2n x.fault + 2 ^ 12 * x.cause + 2 ^ 16 * x.misFrames

def lrStatReg (x : Pair) : Nat :=
  x.stA + 2 ^ 2 * x.stB + 2 ^ 4 * b2n x.feedB + 2 ^ 8 * x.rebuilds + 2 ^ 16 * x.misLines

def wlStatReg (w : Watchlamp) : Nat :=
  w.mode + 4 * b2n w.almout + 8 * listMask ((List.range 4).filter fun n => (look w.tones n {}).on) + 2 ^ 7 * b2n w.sysAlarm +
  2 ^ 16 * w.takeovers

/-- WCH_AGE: margin in percent as 7 bits, EXHAUSTED, steps of 5 mV, bins of 50 MHz, top bin. -/
def ageReg (i : Nat) (x : Island) : Nat :=
  (margin i x).toNat % 128 + 2 ^ 7 * b2n x.exhausted + 2 ^ 8 * ((x.vReq - Config.vInit i) / 5 % 256) +
  2 ^ 16 * ((fTop i - x.top) / 50 % 16) + 2 ^ 20 * x.top

def fltCodeReg (f : Faults) : Nat :=
  match f.log[f.idx]? with
  | some e => e.code + 2 ^ 16 * e.cls + 2 ^ 18 * b2n e.open_ + 2 ^ 24 * e.rep
  | none => 0

def dtCtrlReg (b : TimeBus) : Nat := b.source + 2 ^ 8 * b2n b.locked + 2 ^ 9 * b2n b.holdover + 2 ^ 16 * code 16 b.rate

/-- WCH_ISL_RESET_STAT: islands in reset, and the result of the reader's last request. -/
def islStatReg (s : State) (fn : Nat) : Nat :=
  listMask ((List.range 16).filter fun i => (s.island i).inReset) + 2 ^ 16 * look s.pwr.rstRes fn 0

def wchReg (s : State) (fn off : Nat) : Nat :=
  let stamp := match s.flt.log[s.flt.idx]? with
    | some e => e.stamp
    | none => 0
  if off = 0x1000 then lo32 s.dt
  else if off = 0x1004 then hi32 (look s.time.snapDt fn 0)
  else if off = 0x1008 then dtCtrlReg s.time
  else if off = 0x1014 then islStatReg s fn
  else if let some p := indexIn off 0x2000 4 2 then lrStatReg (s.pair p)
  else if let some h := indexIn off 0x2040 4 12 then safeHeadReg (s.safeOf h)
  else if off = 0x3000 then wlStatReg s.wl
  else if off = 0x3004 then s.wl.crcBad + 2 ^ 8 * s.wl.seqBad + 2 ^ 16 * s.wl.short + 2 ^ 24 * s.wl.hbBad
  else if off = 0x4000 then fltStatWord s.flt
  else if off = 0x4004 then s.flt.idx
  else if off = 0x4008 then fltCodeReg s.flt
  else if off = 0x400C then lo32 stamp
  else if off = 0x4010 then hi32 stamp
  else if let some i := indexIn off 0x4100 4 16 then look s.flt.corr i 0
  else if off = 0x5004 then look s.pwr.pwrRes fn 0 + 2 ^ 31 * b2n (look s.pwr.pwrBusy fn false)
  else if off = 0x5008 then (List.range 16).foldl (fun n i => n + 4 ^ i * (s.island i).power) 0
  else if let some r := indexIn off 0x5100 4 3 then (s.rail r).set + 2 ^ 10 * (s.rail r).read + 2 ^ 20 * (s.rail r).amps
  else if let some n := indexIn off 0x6000 4 24 then code 12 (s.temp n)
  else if off = 0x6080 then s.pwr.throttle + 2 ^ 8 * s.pwr.hyst
  else if let some i := indexIn off 0x6100 4 16 then ageReg i (s.island i)
  else 0

def claimReg (c : Claim) : Nat := c.target + 2 ^ 8 * b2n c.valid + 2 ^ 16 * c.owner

/-- A register of the LAN window; a mailbox shows itself to its user only (R523). -/
def lanReg (s : State) (fn off : Nat) : Nat :=
  if off < 0x1000 then mailboxReg s fn (off / 0x100) (off % 0x100)
  else if off = 0x1000 then s.lan.life + 4 * s.lan.lifeNext
  else if off = 0x1004 then s.lan.viol + 2 ^ 24 * s.lan.violId
  else if off = 0x1008 then bootStatWord s.boot
  else if let some c := indexIn off 0x1100 4 32 then claimReg (look s.lan.claims c {})
  else if off = 0x1180 then s.lan.refused + 2 ^ 24 * s.lan.refusedId
  else 0

/-! ### The read of a register -/

/-- A read at an offset of PF BAR 0 (Table 02.1): reads are always permitted to a PF (R55), and an island that is off
or in reset reads zero (R576). -/
def barReg (s : State) (fn off : Nat) : Nat :=
  let o := off % 0x100000
  match off / 0x100000 with
  | 0x0 => if 0x80000 ≤ o && o < 0x90000 then pageReg s fn (o - 0x80000) else 0
  | 0x1 => if s.up 3 then fabReg s fn o else 0
  | 0x2 => if s.up 4 || s.up 5 then memReg s o else 0
  | 0x3 => if s.up 6 || s.up 7 || s.up 8 || s.up 9 then chdReg s o else 0
  | 0x4 => mntReg s fn o
  | 0x5 => if s.up 12 then medReg s o else 0
  | 0x6 => if s.up 13 then netReg s fn o else 0
  | 0x7 => if s.up 14 then snsReg s fn o else 0
  | 0x8 => if s.up 15 then audReg s o else 0
  | 0x9 => if s.up 1 then wchReg s fn o else 0
  | 0xA => if s.up 0 then lanReg s fn o else 0
  | _ => 0

/-- A read of `size` bytes through BAR 2 of a function (R56, R57): zero beyond the mapped part, in a lost partition (R366)
and where nothing can be reached (R106); where a channel does not answer within the window the bytes are free. -/
def State.readBar2 (s : State) (fn off size : Nat) : Nat :=
  if !s.barOpen fn then 0
  else if (s.stallAt fn off size).isSome then Config.draw s.draws % 256 ^ size
  else memNat s fn off size

/-- The value a register read by a function returns (R10-R12): zero when it is narrow, unaligned or reserved. A VF reads
its page, and the registers of its heads, slots, panels, objects and channels (notes/assumptions/13.md). -/
def State.readReg (s : State) (fn off size : Nat) : Nat :=
  if size ≠ 4 || off % 4 ≠ 0 || !s.reach fn then 0
  else if fn < 2 then barReg s fn off
  else if off < 0x10000 then pageReg s fn off
  else match off / 0x100000 with
    | 0x4 =>
      let o := off % 0x100000
      if 0x80000 ≤ o && o < 0x8C000 && !s.ownsHead fn ((o - 0x80000) / 0x1000) then 0 else mntReg s fn o
    | 0x7 => if s.up 14 then snsReg s fn (off % 0x100000) else 0
    | _ => 0

end Sys2Proof.Machine
end

