-- ==== Sys2Proof/Machine/Pins.lean ====
section
/-! DEFINITION. Chapter 16, the states of the pins (R541, R627, R629). -/

namespace Sys2Proof.Machine

/-- What a pin does: a level, high impedance, electrical idle, an input with its pull, or what its function drives. -/
inductive PinState where
  | low
  | high
  | hiZ
  | idle
  | pullUp
  | pullDown
  | driven
  deriving DecidableEq, Repr

/-- FAULT_N and ALMOUT_N are open-drain outputs, driven low while asserted (R289, R561). -/
def State.faultN (s : State) : PinState := if s.flt.pin then .low else .hiZ
def State.almoutN (s : State) : PinState := if s.wl.almout then .low else .hiZ
def State.wickPin (s : State) : PinState := if s.flt.wick then .high else .low

/-- SMB_ALERT_N (R629). -/
def State.alertPin (s : State) : PinState := if s.smbAlert then .low else .hiZ

/-- HDRVnA and HDRVnB. -/
def State.hdrvPin (s : State) (ch : Nat) : PinState := if s.up 14 && (s.hap ch).state ≠ 0 then .driven else .low

/-- BLPWMn and BLENn: low until the head runs. -/
def State.blPwmPin (s : State) (h : Nat) : PinState := if (s.head h).role ≠ 0 && (s.head h).blOn then .driven else .low
def State.blEnPin (s : State) (h : Nat) : PinState := if (s.head h).role ≠ 0 && (s.head h).blOn then .high else .low

/-- The transmitters of a PCIe port and of an Ethernet port: idle until link training. -/
def State.pcieTx (s : State) (p : Nat) : PinState := if (s.port p).since.isSome then .driven else .idle
def State.ethTx (s : State) (p : Nat) : PinState := if s.up 13 && (s.eport p).link then .driven else .idle

/-- The transmitters of a head: DisplayPort idle until link training, LVDS in high impedance until the head runs. -/
def State.headTx (s : State) (h : Nat) : PinState :=
  if (s.head h).sends h ≠ .nothing then .driven else if isDp h then .idle else .hiZ

/-- CFnTX: recessive, but for the acknowledgements and error signals of R434, which no command shows. -/
def State.canTx (_ : State) (_ : Nat) : PinState := .high

/-- TDMnBCLK and TDMnFSYNC, and TDMnDOUT: low until the port is configured; the clocks are the master's (R442). -/
def State.tdmClock (s : State) (p : Nat) : PinState :=
  if !(s.tdm p).cfgA.getLsbD 0 then .low else if s.tdmSlave p then .hiZ else .driven
def State.tdmOut (s : State) (p : Nat) : PinState := if (s.tdm p).cfgA.getLsbD 0 then .driven else .low
def State.audMclk (s : State) : PinState := if (List.range 4).any fun p => (s.tdm p).cfgA.getLsbD 0 then .driven else .low

/-- XSPI_CS_N and XSPI_RESET_N: the Lantern's from its release. -/
def State.xspiCs (s : State) : PinState := if s.boot.lantern then .driven else .high
def State.xspiReset (s : State) : PinState := if s.boot.lantern then .driven else .low

/-- SEn: low unless part of an object (R488). -/
def State.sePin (s : State) (e : Nat) : PinState :=
  if s.up 14 && s.sense.objs.any (fun (o : Nat × ScObj) => o.2.kind ≠ 0 && o.2.elec.contains e) then .driven else .low

/-- ACKINn and TPnCS_N; HTRIGn, the straps and PERSTx_N: inputs at all times. -/
def ackinPull : PinState := .pullUp
def trigPull : PinState := .pullDown

/-- DBG_TDO, and the other debug balls, which are inert in PRODUCTION and RETIRED (R541). -/
def dbgTdo : PinState := .hiZ
def State.dbgOpen (s : State) : Bool := s.lan.life < 2 && !s.boot.porst

end Sys2Proof.Machine
end

