-- ==== Sys2Proof/Safety.lean ====
section
/-! DEFINITION. The words in which statements are made: when a register write or a ring command reaches its effect,
the state in which a ring command runs, and the invariants of a good state. -/

namespace Sys2Proof

/-- A write of a whole word by a function, at an offset of its BAR 0. -/
def Access.word (fn : Fin 64) (off : Nat) (v : Word) : Access := { fn := fn, off := off, size := 4, val := v }

namespace Machine

/-! ### Register writes that reach their register -/

/-- A write of a head's register by a function or the Watch island takes effect (R55, R154); `sec` for a register that on
a safety head is the secure world's (R151, R521). -/
def State.headOpen (s : State) (fn h : Nat) (sec : Bool) : Bool :=
  s.up (mantleOf h) &&
  (if fn ≥ 64 then fn = 0x41 && s.watchUp
   else s.reach fn && (fn ≥ 2 || s.mayWrite fn 4) && !(sec && (s.safeOf h).safety && !s.isSecure fn) && s.ownsHead fn h)

/-- A PF's write to the window that the Watch firmware serves takes effect (R55). -/
def State.watchOpen (s : State) (fn : Nat) : Bool :=
  fn < 2 && s.reach fn && s.up 1 && s.mayWrite fn 9 && s.watchUp

/-- A PF's write to a register group takes effect (R55, R576). -/
def State.groupOpen (s : State) (fn grp isl : Nat) : Bool := fn < 2 && s.reach fn && s.up isl && s.mayWrite fn grp

/-- The safety guest's write to Watchlamp takes effect (R521, Table 06.8). -/
def State.guestOpen (s : State) (fn : Nat) : Bool :=
  s.reach fn && s.isSafety fn && s.isSecure fn && (s.fnc fn).state = 2 && s.accepts fn 11 && s.watchUp

/-- The SMBus port answers (R628). -/
def State.smbOpen (s : State) : Bool := !s.boot.porst && s.boot.lantern

/-! ### Ring commands that run -/

/-- The record under which a command that passes its checks executes. -/
def flightOf (s : State) (p : OpSpec) (c : Cmd) : Flight :=
  { id := s.nextId, op := p.op, cmd := c, stage := 1, start := s.dt, isl := p.isl (consume s c) c }

/-- The state in which such a command executes: its slots consumed, the command in flight (R68, R69). -/
def State.launched (s : State) (p : OpSpec) (c : Cmd) : State :=
  let s1 := consume s c
  holdPerf { s1 with flights := s1.flights ++ [flightOf s p c], nextId := s1.nextId + 1 } (p.isl s1 c) c.fn

/-- A command of the opcode `p` starts, passes its checks, has its fence met and executes in a running island (R69,
R80, R85, R30). -/
def State.runs (s : State) (p : OpSpec) (c : Cmd) : Bool :=
  let s1 := consume s c
  s.startable c && c.op = p.op && !s1.malformed p c && s1.verdict p c = none && s1.fenceMet c &&
  (s1.island (p.isl s1 c)).live && !(s1.island (p.isl s1 c)).inReset

/-- The state after a command has read ranges of its issuer's memory (R348, R358). -/
def afterReads (s : State) (fn : Nat) (reads : List (Nat × Nat)) : State := reads.foldl (fun s r => readRange s fn r.1 r.2) s

/-- The reads and writes of a command meet no lost partition, and channels that answer before and after its reads (R350,
R361, R366). -/
def served (s : State) (fn : Nat) (reads writes : List (Nat × Nat)) : Prop :=
  ∀ r ∈ reads ++ writes, s.touchesLost fn r.1 r.2 = false ∧ s.stallAt fn r.1 r.2 = none ∧
    (afterReads s fn reads).stallAt fn r.1 r.2 = none

/-! ### Functions after a reset -/

/-- No hardware lock is held by an owner. -/
def unlocked (s : State) (owner : Nat) : Prop := ∀ n, n < 64 → (s.lock n).held = true → (s.lock n).owner ≠ owner

/-- A VF has gone to QUARANTINED from `a` to `b`: nothing of it is in flight, it is not secure, its partitions are
quarantined and its locks free (R104-R106). -/
def quarantined (a b : State) (fn : Nat) : Prop :=
  (b.fnc fn).state = 5 ∧ (b.fnc fn).secure = false ∧ (∀ f ∈ b.flights, f.cmd.fn.val ≠ fn) ∧
  (∀ p ∈ a.grantParts fn, (b.part p).state = 4) ∧ unlocked b fn

/-- A PF has been reset from `a` to `b`: nothing of it is in flight, its queues and features are at reset, and no VF of its
port is active, secure or enabled by SR-IOV (R651, R652). -/
def pfReset (a b : State) (pf : Nat) : Prop :=
  (∀ f ∈ b.flights, f.cmd.fn.val ≠ pf) ∧ (∀ q, q < 16 → (b.que pf q).enable = false) ∧ (b.fnc pf).accept = 0 ∧
  (b.fnc pf).featOk = false ∧ (b.port pf).numVfs = 0 ∧ unlocked b pf ∧
  ∀ i ∈ a.portFns pf, (b.fnc i).state ≠ 2 ∧ (b.fnc i).state ≠ 3 ∧ (b.fnc i).secure = false ∧ (b.fnc i).sriov = false ∧
    unlocked b i

/-! ### Invariants -/

/-- Every memory of the state is in its one form (notes/assumptions/8.md). -/
def State.memOk (s : State) : Bool := Memory.wf s.mem.dram && Memory.wf s.store.memA && Memory.wf s.store.memB

/-- Every island's time agrees with the Watch island's within 4 ns (R39). -/
def State.skewOk (s : State) : Prop := ∀ i, -4 ≤ look s.time.skew i 0 ∧ look s.time.skew i 0 ≤ 4

/-- What an event or a completion may change of a function: events lost and MSI-X pending bits (R78, R82). -/
def Func.quiet (f : Func) : Func := { f with lost := 0, msix := [], quiesce := none }

/-- What it may change of a queue: the completion ring's progress (R74-R76, R83). -/
def Queue.quiet (u : Queue) : Queue :=
  { u with cqNext := 0, phase := true, cqW := 0, held := [], gathered := 0, since := none }

/-- From `a` to `b` only messages were sent: entries of completion rings, interrupts and their bookkeeping. -/
def onlyMessages (a b : State) : Prop :=
  b = { a with fns := b.fns, queues := b.queues, out := b.out } ∧
  (∀ i, (b.fnc i).quiet = (a.fnc i).quiet) ∧ (∀ i q, (b.que i q).quiet = (a.que i q).quiet) ∧ ∃ o, b.out = a.out ++ o

end Machine
end Sys2Proof
end

