-- ==== Sys2Proof/Certificates/Slice0/Obligations.lean ====
section
/-! DEFINITION. The statements about the model, each from the numbered rules of the spec (OBLIGATIONS.json gives
title, text and citations). `s.at t` is the state at the instant at which the command falls. -/

open Sys2Proof Sys2Proof.Machine

/-- A step takes the front command and runs it on the state with the rest of the queue (95_what_each_step_holds.md).
Where a clause goes beyond the rules it is the model's choice: log 1. -/
def Obligations.StepRunsTheFrontCommand : Prop :=
  (∀ (s : State) (c : Instr) (rest : List Instr),
    step { s with pending := c :: rest } = exec c { s with pending := rest }) ∧
  ∀ s : State, s.pending = [] → step s = .next s

/-- Every command answers a next state and leaves the waiting commands as they are (95_what_each_step_holds.md). Where a
clause goes beyond the rules it is the model's choice: log 1, 4. -/
def Obligations.EveryCommandAnswersAndLeavesTheQueue : Prop :=
  ∀ (c : Instr) (s : State), ∃ s', exec c s = .next s' ∧ s'.pending = s.pending

/-- No command but those of PORST_N lets device time run backward (R35, R620, R621). -/
def Obligations.DeviceTimeNeverRunsBackward : Prop :=
  (∀ (c : Instr) (s s' : State), exec c s = .next s' →
    (∀ t n, c ≠ .porstAssert t n) → (∀ t m b, c ≠ .porstDeassert t m b) → (∀ t, c ≠ .vddAoLow t) → s.dt ≤ s'.dt) ∧
  ∀ (t : Time) (m : Bool) (b : Fin 4) (s s' : State), s.boot.porst = true →
    exec (.porstDeassert t m b) s = .next s' → s'.dt = 0

/-- Every step keeps DRAM and the two copies of the list store in their canonical form (R347, 08_memory_fabric_ecc.md).
Where a clause goes beyond the rules it is the model's choice: log 8. -/
def Obligations.MemoriesStayInOneForm : Prop :=
  ∀ s s' : State, step s = .next s' → s.memOk = true → s'.memOk = true

/-- Every step keeps every island's time within 4 ns of the Watch island's (R39). -/
def Obligations.IslandTimesStayWithinFourNs : Prop :=
  ∀ s s' : State, step s = .next s' → s.skewOk → s'.skewOk

/-- The lifecycle state changes only at the deassertion of PORST_N, and then to the scheduled state (R539). -/
def Obligations.LifecycleMovesOnlyAtPorstDeassert : Prop :=
  (∀ (c : Instr) (s s' : State), exec c s = .next s' → (∀ t m b, c ≠ .porstDeassert t m b) → s'.lan.life = s.lan.life) ∧
  ∀ (t : Time) (m : Bool) (b : Fin 4) (s s' : State), s.boot.porst = true →
    exec (.porstDeassert t m b) s = .next s' → s'.lan.life = s.lan.lifeNext

/-- No command but AUTH_SIG_S brings a function into the secure world (R519, R529, R531). -/
def Obligations.OnlyAuthenticationMakesAFunctionSecure : Prop :=
  ∀ (c : Instr) (s s' : State) (fn : Nat), exec c s = .next s' → (∀ t mb, c ≠ .authSigS t mb) →
    (s.fnc fn).secure = false → (s'.fnc fn).secure = false

/-- The state after reset: PORST_N held, FAULT_N asserted, WICK low, nothing loaded, memory in its form (R561, R594,
R39). Where a clause goes beyond the rules it is the model's choice: log 5, 6, 7, 8, 124, 125. -/
def Obligations.ResetStateHolds : Prop :=
  let r := State.reset
  r.boot.porst = true ∧ r.img = none ∧ r.flt.pin = true ∧ r.flt.wick = false ∧ r.pending = [] ∧ r.flights = [] ∧
  (∀ i, (r.island i).live = false) ∧ (∀ fn, 2 ≤ fn → (r.fnc fn).state = 0) ∧ r.memOk = true ∧ r.skewOk

/-- A DT_LO read captures the whole of DT for its reader, whatever others read in between (R42). -/
def Obligations.DtReadGivesOneConsistentValue : Prop :=
  (∀ (s : State) (t : Time) (ini : Fin 128), s.readsWatch ini = true →
    exec (.dtLoRead t ini) s = .next { s with
      dt := max s.dt t
      time := { s.time with snapDt := put s.time.snapDt ini (max s.dt t) }
      out := s.out ++ [.readData ini (max s.dt t % 2 ^ 32)] }) ∧
  ∀ (s s1 s2 : State) (t u : Time) (pf : Fin 2) (other : Fin 128), s.readsWatch pf.val = true → other.val ≠ pf.val →
    exec (.dtLoRead t ⟨pf.val, by omega⟩) s = .next s1 → exec (.dtLoRead u other) s1 = .next s2 →
    s2.readReg pf.val 0x901004 4 = max s.dt t / 2 ^ 32 % 2 ^ 32

/-- A write of SOURCE waits for the next time-bus round and never changes the value of DT (R43, R521, R520, R39). Where
a clause goes beyond the rules it is the model's choice: log 115. -/
def Obligations.SourceChangesAtTheNextRound : Prop :=
  (∀ (s : State) (t : Time) (ini : Fin 128) (src : Fin 4), s.readsWatch ini = true → s.isSecure ini = true →
    exec (.dtSourceWrite t ini src) s =
      .next { s with dt := max s.dt t, time := { s.time with pending := some src.val } }) ∧
  (∀ (s : State) (t : Time) (ini : Fin 128) (src : Fin 4), s.readsWatch ini = true → s.isSecure ini = false →
    exec (.dtSourceWrite t ini src) s = .next (worldViolation (s.at t) 1 ini)) ∧
  ∀ (s : State) (t : Time), s.boot.porst = false → ∃ s', exec (.timeBusRound t) s = .next s' ∧
    s' = { s with dt := max s.dt t, time := s'.time, draws := s'.draws } ∧
    s'.time.source = s.time.pending.getD s.time.source ∧ s'.time.pending = none ∧
    s'.time.rounds = s.time.rounds + 1 ∧ (∀ i, i < 16 → -4 ≤ look s'.time.skew i 0 ∧ look s'.time.skew i 0 ≤ 4)

/-- ISL_RESET_REQ answers DENIED, HELD or OK and resets; ISLAND_RELEASE releases after 1 us (R28, R32, R33, R533, R535,
R470, R517, R581). Where a clause goes beyond the rules it is the model's choice: log 119, 144, 175. -/
def Obligations.IslandResetRequestsAndRelease : Prop :=
  (∀ (s : State) (t : Time) (fn : Fin 64) (isl : Fin 16), s.watchOpen fn = true →
    (isl.val < 2 → exec (.islResetReq t fn isl) s =
      .next ((s.at t).modPwr fun p => { p with rstRes := put p.rstRes fn stDenied })) ∧
    (2 ≤ isl.val → s.heldBack fn isl = true → exec (.islResetReq t fn isl) s =
      .next ((countRefused (s.at t) fn).modPwr fun p => { p with rstRes := put p.rstRes fn stHeld })) ∧
    (2 ≤ isl.val → s.heldBack fn isl = false →
      ((s.island isl).inReset = true ∨ (s.island isl).live = false ∨ (s.island isl).power = 3) →
      exec (.islResetReq t fn isl) s = .next ((s.at t).modPwr fun p => { p with rstRes := put p.rstRes fn stOk })) ∧
    (2 ≤ isl.val → s.heldBack fn isl = false → (s.island isl).inReset = false → (s.island isl).live = true →
      (s.island isl).power ≠ 3 → ((isl.val = 15 ∧ s.toneSounds = true) ∨ (isl.val = 14 ∧ s.hapticAlarmPlays = true)) →
      exec (.islResetReq t fn isl) s = .next ((s.at t).modPwr fun p => { p with rstRes := put p.rstRes fn stDenied })) ∧
    (2 ≤ isl.val → s.heldBack fn isl = false → (s.island isl).inReset = false → (s.island isl).live = true →
      (s.island isl).power ≠ 3 → ¬(isl.val = 15 ∧ s.toneSounds = true) → ¬(isl.val = 14 ∧ s.hapticAlarmPlays = true) →
      ∃ s', exec (.islResetReq t fn isl) s = .next s' ∧ (s'.island isl).inReset = true ∧
        look s'.pwr.rstRes fn 0 = stOk ∧ s'.dt = max s.dt t ∧ s'.lan.life = s.lan.life)) ∧
  ∀ (s : State) (t : Time) (isl : Fin 16), (s.island isl).inReset = true → (s.island isl).power ≠ 3 →
    (s.island isl).resetAt + 1000 ≤ max s.dt t → s.railHolds isl = true →
    ∃ s', exec (.islandRelease t isl) s = .next s' ∧ (s'.island isl).live = true ∧ (s'.island isl).inReset = false ∧
      s'.dt = max s.dt t

/-- Narrow accesses, group access, the function page: what REGISTER_WRITE does (R10, R11, R55, R56, R62, R65, R106,
R154, R576, Table 02.2). Where a clause goes beyond the rules it is the model's choice: log 117. -/
def Obligations.RegisterAccessRules : Prop :=
  (∀ (s : State) (t : Time) (a : Access), a.bar2 = false → a.size ≠ 4 ∨ a.off % 4 ≠ 0 →
    exec (.registerWrite t a) s = .next (s.at t) ∧ s.readReg a.fn a.off a.size = 0) ∧
  (∀ (s : State) (t : Time) (a : Access), a.bar2 = true → a.watch = false →
    (s.barOpen a.fn = true → exec (.registerWrite t a) s =
      .next (memWrite (s.at t) a.fn a.off (leBytes (min a.size 4) a.val.toNat))) ∧
    (s.barOpen a.fn = false → exec (.registerWrite t a) s = .next (s.at t))) ∧
  (∀ (s : State) (t : Time) (h : Fin 12) (fn : Fin 64) (v : Word), s.headOpen 0x41 h false = true →
    exec (.registerWrite t { fn := fn, off := 0x80000 + 0x1000 * h.val + 0x34, size := 4, val := v, watch := true }) s =
      .next ((s.at t).modHead h fun d => { d with blDuty := v &&& 0x0FFF0FFF })) ∧
  (∀ (s : State) (t : Time) (pf : Fin 2) (g isl o : Nat) (v : Word),
    (g, isl) ∈ [(1, 3), (5, 12), (6, 13), (7, 14), (8, 15), (9, 1)] → o < 0x100000 → o % 4 = 0 → ownRow g o = false →
    s.reach pf.val = true → s.up isl = true → s.mayWrite pf.val g = false →
    exec (.registerWrite t (.word ⟨pf.val, by omega⟩ (g * 0x100000 + o) v)) s = .next (s.at t).dropGroup) ∧
  (∀ (s : State) (t : Time) (fn : Fin 64) (v : Word), s.reach fn = true →
    let page := if fn.val < 2 then 0x80000 else 0
    ((s.fnc fn).lost = 0 → exec (.registerWrite t (.word fn (page + 0x104) v)) s = .next ((s.at t).modFn fn fun f => { f with eventQ := fld v 0 4 })) ∧
    (((s.fnc fn).deciding = true ∨ (s.fnc fn).featOk = true) → ∀ k, k < 4 →
      exec (.registerWrite t (.word fn (page + 0x1010 + 4 * k) v)) s = .next ((s.at t).modFn fn fun f => f)) ∧
    ∀ q, q < s.nQueues fn → q < 16 →
      exec (.registerWrite t (.word fn (page + 0x214 + 0x20 * q) v)) s = .next ((s.at t).modQ fn q fun u =>
        { u with vector := fld v 0 5, coalN := fld v 8 8, coalT := fld v 16 16 }) ∧
      ((s.que fn q).enable = true → ∀ r, r ∈ [0, 4, 8, 12, 16] → (r = 16 → v.getLsbD 31 = false) →
        exec (.registerWrite t (.word fn (page + 0x200 + 0x20 * q + r) v)) s = .next ((s.at t).modQ fn q fun u => u)) ∧
      ((s.que fn q).enable = false → ∃ s', exec (.registerWrite t (.word fn (page + 0x200 + 0x20 * q) v)) s = .next s' ∧
        s' = (s.at t).modQ fn q (fun u => { u with sqBase := u.sqBase / 2 ^ 32 * 2 ^ 32 + v.toNat }) ∧
        s'.readReg fn (page + 0x200 + 0x20 * q) 4 = v.toNat))

/-- SQ_DOORBELL: a valid doorbell moves the producer index, a repeat does nothing, others are discarded (R71, R72, R73,
R99). Where a clause goes beyond the rules it is the model's choice: log 140. -/
def Obligations.SubmissionDoorbellRules : Prop :=
  ∀ (s : State) (t : Time) (fn : Fin 64) (q : Fin 16) (w : Word), s.reach fn = true →
    (2 ≤ fn.val → 8 ≤ q.val → exec (.sqDoorbell t fn q w) s = .next (s.at t)) ∧ ((fn.val < 2 ∨ q.val < 8) →
    let u := s.que fn q
    let size := 2 ^ u.sqLog2
    let index := fld w 0 16
    let gen := w.getLsbD 16
    let repeats := index = u.prod ∧ (s.accepts fn 1 = true → gen = u.prodGen)
    let pendingCount := if s.accepts fn 1 then (b2n gen * size + index + 2 * size - (b2n u.consGen * size + u.cons)) % (2 * size)
      else (index + size - u.cons) % size
    let discarded := Host.Outcome.next (φ := Fault) (ρ := Refusal) (sendEvent ((s.at t).modFn fn fun f =>
      { f with discards := if f.discards < 0xFFFF then f.discards + 1 else f.discards }) 2 fn 1 q w.toNat 0)
    (u.enable = true → (s.fnc fn).state = 2 → ¬repeats → index < size → pendingCount ≤ size →
      exec (.sqDoorbell t fn q w) s = .next ((s.at t).modQ fn q fun u => { u with prod := index, prodGen := gen })) ∧
    (u.enable = true → (s.fnc fn).state = 2 → repeats → exec (.sqDoorbell t fn q w) s = .next (s.at t)) ∧
    (u.enable = true → (s.fnc fn).state = 2 → ¬repeats → (size ≤ index ∨ size < pendingCount) →
      exec (.sqDoorbell t fn q w) s = discarded) ∧
    ((u.enable = false ∨ (s.fnc fn).state ≠ 2) → exec (.sqDoorbell t fn q w) s = discarded))

/-- CQ_DOORBELL frees entries, and a completion that waits is then written (R73, R74, R76, R646). Where a clause goes
beyond the rules it is the model's choice: log 140. -/
def Obligations.CompletionDoorbellRules : Prop :=
  ∀ (s : State) (t : Time) (fn : Fin 64) (q : Fin 16) (w : Word), s.reach fn = true →
    (2 ≤ fn.val → 8 ≤ q.val → exec (.cqDoorbell t fn q w) s = .next (s.at t)) ∧ ((fn.val < 2 ∨ q.val < 8) →
    let u := s.que fn q
    let size := 2 ^ u.cqLog2
    let index := fld w 0 16
    let gen := w.getLsbD 16
    let freed := if s.accepts fn 1 then (b2n gen * size + index + 2 * size - (b2n u.cqGen * size + u.cqCons)) % (2 * size)
      else (index + size - u.cqCons) % size
    let repeats := index = u.cqCons ∧ (s.accepts fn 1 = true → gen = u.cqGen)
    let discarded := Host.Outcome.next (φ := Fault) (ρ := Refusal) (sendEvent ((s.at t).modFn fn fun f =>
      { f with discards := if f.discards < 0xFFFF then f.discards + 1 else f.discards }) 2 fn 1 (q + 2 ^ 16) w.toNat 0)
    (u.enable = true → (s.fnc fn).state = 2 → ¬repeats → index < size → freed ≤ u.cqW → u.held = [] → (s.fnc fn).lost = 0 →
      exec (.cqDoorbell t fn q w) s =
        .next ((s.at t).modQ fn q fun u => { u with cqCons := index, cqGen := gen, cqW := u.cqW - freed })) ∧
    (∀ h, u.enable = true → (s.fnc fn).state = 2 → ¬repeats → index < size → 0 < freed → freed ≤ u.cqW → u.cqW ≤ size - 1 →
      u.held = [h] → (s.fnc fn).lost = 0 →
      ∃ s' rest, exec (.cqDoorbell t fn q w) s = .next s' ∧ (s'.que fn q).held = [] ∧
        s'.out = s.out ++ .completion fn q u.cqNext ([h.tag, h.status + 2 ^ 16 * (s.fnc fn).qids.getD q 0 + 2 ^ 31 * b2n u.phase,
          h.dt % 2 ^ 32, h.dt / 2 ^ 32 % 2 ^ 32] ++ h.pay) :: rest) ∧
    (u.enable = true → (s.fnc fn).state = 2 → repeats → exec (.cqDoorbell t fn q w) s = .next (s.at t)) ∧
    (u.enable = true → (s.fnc fn).state = 2 → ¬repeats → (size ≤ index ∨ u.cqW < freed) →
      exec (.cqDoorbell t fn q w) s = discarded) ∧
    ((u.enable = false ∨ (s.fnc fn).state ≠ 2) → exec (.cqDoorbell t fn q w) s = discarded))

/-- QUEUE_ENABLE starts both rings afresh or sets CFG_ERROR; QUEUE_DISABLE stops the queue and keeps it (R61, R62,
R644). Where a clause goes beyond the rules it is the model's choice: log 146. -/
def Obligations.QueueEnableAndDisable : Prop :=
  ∀ (s : State) (t : Time) (fn : Fin 64) (q : Fin 16) (cfg : Word), s.reach fn = true → q.val < s.nQueues fn →
    (cfg.getLsbD 31 = true → (s.que fn q).enable = false →
      let u := s.que fn q
      let set : Queue := { u with sqLog2 := fld cfg 0 4, cqLog2 := fld cfg 4 4, engine := fld cfg 8 4
                                  priority := fld cfg 12 4, waitTo := fld cfg 16 8 }
      let good := set.sqBase % 4096 = 0 ∧ set.cqBase % 4096 = 0 ∧ (4 ≤ set.sqLog2 ∧ set.sqLog2 ≤ 12) ∧
        (4 ≤ set.cqLog2 ∧ set.cqLog2 ≤ 13) ∧ (set.engine ≤ 6 ∨ (set.engine = 15 ∧ fn.val < 2)) ∧
        set.vector < s.nVectors fn ∧ (s.fnc fn).state = 2 ∧ s.queueFlights fn q = [] ∧ set.held = []
      (good → (s.fnc fn).lost = 0 → exec (.queueEnable t fn q cfg) s =
        .next (((s.at t).modQ fn q fun _ => { set with
          enable := true, cfgErr := false, cons := 0, consGen := false, prod := 0, prodGen := false, cqCons := 0
          cqGen := false, cqW := 0, cqNext := 0, phase := true, gathered := 0, since := none }).modFn fn fun f =>
            { f with hostReset := false })) ∧
      (¬good → exec (.queueEnable t fn q cfg) s = .next ((s.at t).modQ fn q fun _ => { set with cfgErr := true }))) ∧
    (cfg.getLsbD 31 = false → (s.que fn q).enable = true → exec (.queueDisable t fn q cfg) s =
      .next ((s.at t).modQ fn q fun u => { u with enable := false, priority := fld cfg 12 4, waitTo := fld cfg 16 8 }))

/-- FEATURES_OK starts the decision; the decision keeps a set that is offered, whole and closed, and clears any other
(R63, R64, R96). -/
def Obligations.FeatureNegotiation : Prop :=
  (∀ (s : State) (t : Time) (fn : Fin 64), s.reach fn = true → (s.fnc fn).deciding = false → (s.fnc fn).featOk = false →
    exec (.featuresOk t fn) s =
      .next ((s.at t).modFn fn fun f => { f with featOk := true, deciding := true, reason := 0 })) ∧
  (∀ (s : State) (t : Time) (fn : Fin 64), (s.fnc fn).deciding = true →
    let a := (s.fnc fn).accept
    let good := (∀ b, b < 128 → a.testBit b = true → s.offers fn b = true) ∧ a.testBit 0 = true ∧
      (fn.val < 2 → a.testBit 19 = true) ∧ (a.testBit 4 = true → a.testBit 3 = true) ∧
      (a.testBit 7 = true → a.testBit 2 = true) ∧ (a.testBit 11 = true → a.testBit 10 = true)
    (good → (s.fnc fn).state ≠ 1 → exec (.featureDecision t fn) s =
      .next ((s.at t).modFn fn fun f => { f with featOk := true, deciding := false, reason := 0 })) ∧
    (good → (s.fnc fn).state = 1 → exec (.featureDecision t fn) s =
      .next (setFnState ((s.at t).modFn fn fun f => { f with featOk := true, deciding := false, reason := 0 }) fn 2)) ∧
    (¬good → ∃ r, r ∈ [1, 2, 3] ∧ exec (.featureDecision t fn) s =
      .next ((s.at t).modFn fn fun f => { f with featOk := false, deciding := false, reason := r })))

/-- A command that starts is checked in the order of R85; a fence not reached holds it back (R68, R69, R70, R80, R85). -/
def Obligations.CommandChecksInOrder : Prop :=
  ∀ (s : State) (p : OpSpec) (c : Cmd), p ∈ allSpecs → c.op = p.op →
    let s1 := consume s c
    (s.startable c = false → startCmd s p c = s) ∧
    (s.startable c = true → s1.malformed p c = true → startCmd s p c = finishCmd s1 c 6 [0, 0, 0, 0] (s.stamp 2)) ∧
    (∀ st, s.startable c = true → s1.malformed p c = false → s1.verdict p c = some st →
      st ∈ [stDenied, stQuarantined, stNoResource, stHeld] ∧
      startCmd s p c = finishCmd (if st = stHeld then countRefused s1 c.fn else s1) c st [0, 0, 0, 0] (s.stamp 2)) ∧
    (s.startable c = true → s1.malformed p c = false → s1.verdict p c = none → s1.fenceMet c = false →
      startCmd s p c = { s1 with
        flights := s1.flights ++ [{ id := s.nextId, op := p.op, cmd := c, stage := 0, start := s.dt
                                    limit := s1.waitLimit c, isl := p.isl s1 c }]
        nextId := s1.nextId + 1 })

/-- NOP, FENCE_SIGNAL and FENCE_WAIT complete OK, a signal sets its fence, a wait ends by its value or its time (R79,
R80, R81, R85, Table 02.7). -/
def Obligations.FencesSignalWaitAndTimeOut : Prop :=
  (∀ (s : State) (t : Time) (c : Cmd),
    ((s.at t).runs specNop c = true →
      exec (.nop t c) s = .next (complete ((s.at t).launched specNop c) s.nextId stOk [0, 0, 0, 0])) ∧
    ((s.at t).runs specFenceSignal c = true →
      exec (.fenceSignal t c) s = .next (complete ((s.at t).launched specFenceSignal c) s.nextId stOk [0, 0, 0, 0])) ∧
    ((s.at t).runs specFenceWait c = true →
      exec (.fenceWait t c) s = .next (complete ((s.at t).launched specFenceWait c) s.nextId stOk [0, 0, 0, 0]))) ∧
  (∀ (s : State) (c : Cmd) (st : Nat) (pay : List Nat) (stamp : Time), s.up 2 = true →
    (c.fn.val < 2 ∨ (s.fnc c.fn).state ≠ 5) → st ≠ stAbandoned → s.signalOk c = true →
    (finishCmd s c st pay stamp).fence c.fn c.signalFence = max (s.fence c.fn c.signalFence) c.signalValue) ∧
  (∀ (s : State) (t : Time) (fn : Fin 64) (q : Fin 16) (f : Flight) (l : Time), s.waiting fn q = some f → f.limit = some l →
    l ≤ max s.dt t → s.fenceMet f.cmd = false →
    exec (.waitTimeout t fn q) s = .next (completeAt (s.at t) f.id stTimedOut [0, 0, 0, 0] ((s.at t).stamp 2))) ∧
  (∀ (s : State) (t : Time) (fn : Fin 64) (q : Fin 16) (f : Flight) (p : OpSpec), s.waiting fn q = some f →
    s.up 2 = true → s.fenceMet f.cmd = true → allSpecs.find? (·.op = f.op) = some p →
    let s1 := (s.at t).modFlight f.id fun f => { f with stage := 1, limit := none }
    s1.verdict p f.cmd = none → (s.island f.isl).live = true → (s.island f.isl).inReset = false →
    exec (.waitFenceMet t fn q) s = .next (runUpdates (p.run (holdPerf s1 f.isl f.cmd.fn) f)))

/-- A finished command writes one entry of its completion ring, or waits while the ring is full (R74, R75, R76, R647,
Table 02.6). -/
def Obligations.CompletionEntryIsWrittenOrWaits : Prop :=
  (∀ (s : State) (c : Cmd) (st : Nat) (pay : List Nat) (stamp : Time), s.up 2 = true →
    (c.fn.val < 2 ∨ (s.fnc c.fn).state ≠ 5) → s.signalOk c = false → (st ≠ stOk ∨ c.b 0 16 = false) →
    let u := s.que c.fn c.q
    (u.held = [] → s.cqFull c.fn c.q = false → ∃ rest, (finishCmd s c st pay stamp).out = s.out ++
      .completion c.fn c.q u.cqNext ([c.tag, st + 2 ^ 16 * (s.fnc c.fn).qids.getD c.q 0 + 2 ^ 31 * b2n u.phase,
        stamp % 2 ^ 32, stamp / 2 ^ 32 % 2 ^ 32] ++ pay) :: rest ∧ ∀ o ∈ rest, ∃ v, o = .msix c.fn v) ∧
    ((u.held ≠ [] ∨ s.cqFull c.fn c.q = true) → (finishCmd s c st pay stamp).out = s.out ∧
      ((finishCmd s c st pay stamp).que c.fn c.q).held = u.held ++ [⟨c.tag, st, stamp, pay, c.b 0 17⟩]) ∧
    onlyMessages s (finishCmd s c st pay stamp)) ∧
  ∀ (s : State) (fn q : Nat), s.cqFull fn q = true ↔
    (if s.accepts fn 1 then 2 ^ (s.que fn q).cqLog2 else 2 ^ (s.que fn q).cqLog2 - 1) ≤ (s.que fn q).cqW

/-- An event is written into the event queue's ring, or dropped and counted (R77, R78). -/
def Obligations.EventsAreWrittenOrCounted : Prop :=
  (∀ (s : State) (fn ev d5 d6 d7 : Nat) (stamp : Time), s.up 2 = true → (fn < 2 ∨ (s.fnc fn).state ≠ 0) → (s.fnc fn).lost = 0 →
    let q := s.eventQueue fn
    let u := s.que fn q
    (u.enable = true → u.held = [] → s.cqFull fn q = false → ∃ rest, (sendEventAt s fn ev d5 d6 d7 stamp).out = s.out ++
      .completion fn q u.cqNext [0xFFFFFFFF, 2 ^ 16 * (s.fnc fn).qids.getD q 0 + 2 ^ 31 * b2n u.phase, stamp % 2 ^ 32,
        stamp / 2 ^ 32 % 2 ^ 32, ev, d5, d6, d7] :: rest) ∧
    ((u.enable = false ∨ u.held ≠ [] ∨ s.cqFull fn q = true) →
      sendEventAt s fn ev d5 d6 d7 stamp = s.modFn fn fun f => { f with lost := f.lost + 1 })) ∧
  (∀ (s : State) (fn ev d5 d6 d7 : Nat) (stamp : Time), onlyMessages s (sendEventAt s fn ev d5 d6 d7 stamp)) ∧
  ∀ (s : State) (fn ev d5 d6 d7 : Nat) (stamp : Time), (s.up 2 = false ∨ (2 ≤ fn ∧ (s.fnc fn).state = 0)) →
    sendEventAt s fn ev d5 d6 d7 stamp = s

/-- The hold of a queue's interrupt ends at COAL_TIME; a masked vector sets its pending bit (R82, R83). -/
def Obligations.InterruptsCoalesceAndMask : Prop :=
  ∀ (s : State) (t t0 : Time) (fn : Fin 64) (q : Fin 16), (s.que fn q).since = some t0 →
    t0 + (s.que fn q).coalT * 1000 ≤ max s.dt t →
    let v := (s.que fn q).vector
    let m := look (s.fnc fn).msix v {}
    let s1 := (s.at t).modQ fn q fun u => { u with gathered := 0, since := none }
    (m.ctrl.getLsbD 0 = false → exec (.irqCoalesceTimeout t fn q) s = .next { s1 with out := s.out ++ [.msix fn v] }) ∧
    (m.ctrl.getLsbD 0 = true → exec (.irqCoalesceTimeout t fn q) s =
      .next (s1.modFn fn fun f => { f with msix := put f.msix v { m with pend := true } }))

/-- A management command that names an FN of another port, or a PF, completes with DENIED (R87). -/
def Obligations.ManagementOfAForeignFunctionIsDenied : Prop :=
  ∀ (s : State) (t : Time) (c : Cmd) (p : OpSpec) (i : Instr),
    (p, i) ∈ [(specCreate, Instr.vfCreate t c), (specQuiesce, .vfQuiesce t c), (specDestroy, .vfDestroy t c),
      (specRelease, .vfRelease t c), (specSecure, .secureVfRequest t c)] →
    c.op = p.op → (s.at t).startable c = true → (consume (s.at t) c).malformed p c = false →
    (c.f 10 0 6 < 2 ∨ s.portOf (c.f 10 0 6) ≠ c.fn.val) →
    exec i s = .next (finishCmd (consume (s.at t) c) c stDenied [0, 0, 0, 0] ((s.at t).stamp 2))

/-- VF_CREATE that runs records the grant, reserves queues and partitions, and moves the FN to CREATED (R90, R60, R79,
R96, Table 02.10). Where a clause goes beyond the rules it is the model's choice: log 9. -/
def Obligations.VfCreateTakesWhatItNames : Prop :=
  ∀ (s : State) (t : Time) (c : Cmd), (s.at t).runs specCreate c = true →
    let g := grantOf c
    let s1 := (s.at t).launched specCreate c
    ∃ s2, exec (.vfCreate t c) s = .next (complete s2 s.nextId stOk [0, 0, 0, 0]) ∧
      (s2.fnc g.fn).grant = g ∧ (s2.fnc g.fn).qids = s.freeQids g.queues ∧ (s2.fnc g.fn).state = 1 ∧
      (∀ p, p < 16 → (s2.part p).holder = if g.mpMask.testBit p then g.fn else (s.part p).holder) ∧
      (∀ n, n < 4096 → s2.fence g.fn n = 0) ∧
      (∀ i, i ≠ g.fn → (s2.fnc i).grant = (s.fnc i).grant ∧ (s2.fnc i).qids = (s.fnc i).qids ∧
        (s2.fnc i).state = (s.fnc i).state) ∧
      (∀ p, ¬(p < 16 ∧ g.mpMask.testBit p = true) → s2.part p = s.part p) ∧
      s2.mem.dram = s.mem.dram ∧ s2.flights = s1.flights

/-- VF_QUIESCE stops the FN; the rest is abandoned at TIMEOUT_MS; it completes once nothing of the FN is in flight (R98,
R99, R100, R101, R102, R96). -/
def Obligations.QuiesceDrainsAbandonsAndEnds : Prop :=
  (∀ (s : State) (t : Time) (c : Cmd), (s.at t).runs specQuiesce c = true →
    let s1 := (s.at t).launched specQuiesce c
    let fn := c.f 10 0 6
    let limit := max s.dt t + (if c.f 11 0 16 = 0 then 100 else c.f 11 0 16) * 1000000
    let s2 := (setFnState s1 fn 3).modFn fn fun f =>
      { f with quiesce := some { flight := s.nextId, abandon := c.b 10 8, start := max s.dt t, limit := limit } }
    ((s.fnc fn).state = 4 → exec (.vfQuiesce t c) s = .next (complete s1 s.nextId stOk [1, 0, 0, 0])) ∧
    ((s.fnc fn).state = 2 → (s2.fnc fn).state = 3 ∧ exec (.vfQuiesce t c) s =
      .next (leaveActive (if c.b 10 8 then abandonWork s2 fn else s2) fn))) ∧
  (∀ (s : State) (t : Time) (fn : Fin 64) (z : Quiesce), (s.fnc fn).quiesce = some z → z.abandon = false → z.timedOut = false →
    z.limit ≤ max s.dt t → (∃ f ∈ s.flights, f.cmd.fn = fn) → exec (.quiesceTimeout t fn) s =
      .next (abandonWork ((s.at t).modFn fn fun f => { f with quiesce := some { z with timedOut := true } }) fn)) ∧
  ∀ (s : State) (t : Time) (fn : Fin 64) (z : Quiesce), (s.fnc fn).quiesce = some z → (s.fnc fn).state = 3 →
    ((∀ f ∈ s.flights, f.cmd.fn ≠ fn) → ∃ s1, exec (.quiesceComplete t fn) s = .next (complete s1 z.flight
        (if z.timedOut then stTimedOut else stOk) [if z.abandoned = 0 then 1 else 0, z.done % 2 ^ 32, z.abandoned % 2 ^ 32, 0]) ∧
      (s1.fnc fn).state = 4 ∧ (s1.fnc fn).quiesce = none ∧ (s1.fnc fn).grant = (s.fnc fn).grant ∧
      s1 = { s.at t with fns := s1.fns, queues := s1.queues, out := s1.out }) ∧
    ((∃ f ∈ s.flights, f.cmd.fn = fn) → exec (.quiesceComplete t fn) s = .next (s.at t))

/-- VF_DESTROY and VF_RELEASE fill the partitions and return everything once it is idle (R97, R107, R346, R548, R649).
Where a clause goes beyond the rules it is the model's choice: log 118. -/
def Obligations.LeavingGuestsReturnTheirResources : Prop :=
  (∀ (s : State) (t : Time) (c : Cmd),
    let fn := c.f 10 0 6
    let start := fun (p : OpSpec) (release : Bool) => dropLayers (((s.at t).launched p c).modFn fn fun f =>
      { f with leaving := some (s.nextId, release, max s.dt t) }) fn
    let fill := fun (s2 : State) => (s2.grantParts fn).foldl
      (fun s p => startFill s p (if (s.part p).state = 3 ∨ (s.part p).gone ≠ 0 then 3 else 2) none) s2
    ((s.at t).runs specDestroy c = true →
      exec (.vfDestroy t c) s = .next (tryLeave (fill (tearLocks (start specDestroy false) (· = fn) 0)) fn)) ∧
    ((s.at t).runs specRelease c = true → exec (.vfRelease t c) s = .next (tryLeave (fill (start specRelease true)) fn))) ∧
  (∀ (s : State) (t : Time) (mp : Fin 16), (s.part mp).state ≠ 0 → (s.part mp).filling = true → s.up 3 = true →
    (∀ c ∈ (s.part mp).live, s.up (if c < 4 then 4 else 5) = true ∧
      ((s.chan c).state = 2 ∨ ((s.chan c).state = 4 ∧ (s.chan c).sweep = false))) →
    let s1 := endFill (s.at t) mp
    exec (.partitionFillComplete t mp) s = .next (serveWaits (tryLeaves (updMemReady s1))) ∧ (s1.part mp).filling = false ∧
    (s1.part mp).unfill = false ∧
    (s1.part mp).state = if (s.part mp).state = 1 then (s.part mp).after else (s.part mp).state) ∧
  (∀ (s : State) (fn id : Nat) (release : Bool) (start : Time), 2 ≤ fn → (s.fnc fn).leaving = some (id, release, start) →
    s.leaveIdle fn = true →
    let s1 := tryLeave s fn
    (s1.fnc fn).state = 0 ∧ (s1.fnc fn).secure = false ∧ (s1.fnc fn).grant = {} ∧ (s1.fnc fn).qids = [] ∧
    (s1.fnc fn).leaving = none ∧ (s1.fnc fn).sriov = (s.fnc fn).sriov) ∧
  ∀ (s : State) (fn : Nat), s.leaveIdle fn = false → tryLeave s fn = s

/-- POOL_QUERY writes its snapshot, PARTITION_CREATE places, fills and removes partitions, SCRUB starts on a free engine
(R92, R93, R95, R343, R346, R370, R371, Table 02.12). Where a clause goes beyond the rules it is the model's choice:
log 85, 86. -/
def Obligations.PoolQueriesPartitionsAndScrubsRun : Prop :=
  (∀ (s : State) (t : Time) (c : Cmd), (s.at t).runs specPool c = true →
    let s1 := (s.at t).launched specPool c
    exec (.poolQuery t c) s =
      .next (complete (s1.emit (.hostWrite c.fn (c.d 10) (s1.poolReport c.fn))) s.nextId stOk [0, 0, 0, 0]) ∧
      (s1.poolReport c.fn).length = 32) ∧
  (∀ (s : State) (t : Time) (c : Cmd), (s.at t).runs specPartition c = true →
    let s1 := (s.at t).launched specPartition c
    let mp := c.f 10 0 4
    (c.f 11 0 16 = 0 → (s.part mp).state = 0 →
      exec (.partitionCreate t c) s = .next (complete s1 s.nextId stOk [0, 0, 0, 0])) ∧
    (c.f 11 0 16 = 0 → (s.part mp).state ≠ 0 → exec (.partitionCreate t c) s =
      .next (complete (s1.modPart mp fun _ => {}) s.nextId stOk [0, 0, 0, 0])) ∧
    (∀ b, c.f 11 0 16 ≠ 0 → s1.lowestBase (c.f 10 8 8) (c.f 11 0 16) = some b → exec (.partitionCreate t c) s =
      .next (startFill ((s1.modMem fun m => { m with nextOrd := m.nextOrd + 1 }).modPart mp fun _ =>
        { state := 1, mask := c.f 10 8 8, holder := c.fn.val, creator := c.fn.val, size := c.f 11 0 16, base := b
          order := s.mem.nextOrd }) mp 2 (some s.nextId)))) ∧
  ∀ (s : State) (t : Time) (c : Cmd), (s.at t).runs specScrub c = true →
    let s1 := (s.at t).launched specScrub c
    let ch := c.d 10 / 2 ^ 34
    ((s.chan ch).scrub = none → exec (.scrub t c) s = .next (s1.modChan ch fun x =>
      { x with scrub := some { flight := some s.nextId, addr := c.d 10, len := c.d 12, start := max s.dt t, host := c.d 14
                               rate := if 100 ≤ s.fab.scrRate ∧ s.fab.scrRate ≤ 20000 then s.fab.scrRate else 1000
                               limit := if x.state = 3 then some (max s.dt t + fabWindow s.fab.timeout) else none } })) ∧
    ((s.chan ch).scrub ≠ none → exec (.scrub t c) s =
      .next (s1.modChan ch fun x => { x with waitScrub := x.waitScrub ++ [s.nextId] }))

/-- SECURE_VF_REQUEST takes the lowest free slot; at 1000 ms without a signature it ends with SECURE = 0 (R94, R529,
R530). Where a clause goes beyond the rules it is the model's choice: log 118, 145. -/
def Obligations.SecureRequestsAuthenticateOrEnd : Prop :=
  (∀ (s : State) (t : Time) (c : Cmd), (s.at t).runs specSecure c = true →
    let s1 := (s.at t).launched specSecure c
    let fn := c.f 10 0 6
    ((s.fnc fn).secure = true → exec (.secureVfRequest t c) s = .next (complete s1 s.nextId stOk [1, 0, 0, 0])) ∧
    (∀ k, (s.fnc fn).secure = false → k < 4 → (s.mbox (8 + k)).mapped = none → (∀ j, j < k → (s.mbox (8 + j)).mapped ≠ none) →
      exec (.secureVfRequest t c) s = .next ((s1.modMbox (8 + k) fun x => { x with mapped := some fn }).modFn fn fun f =>
        { f with auth := some { flight := s.nextId, slot := k, limit := max s.dt t + 1000000000 } }))) ∧
  ∀ (s : State) (t : Time) (fn : Fin 64) (a : Auth), (s.fnc fn).auth = some a →
    (a.limit ≤ max s.dt t → ∃ s1, exec (.secureAuthTimeout t fn) s = .next s1 ∧ s1 = freeSlot
        (complete ((s.at t).modFn fn fun f => { f with auth := none }) a.flight stOk [0, 0, 0, 0]) fn ∧
      (∀ i, i < 4 → (s1.mbox (8 + i)).mapped ≠ some fn.val) ∧ (s1.fnc fn).secure = (s.fnc fn).secure) ∧
    (max s.dt t < a.limit → exec (.secureAuthTimeout t fn) s = .next (s.at t))

/-- Resets of a VF, a PF and a port: what each keeps, quarantines and tears (R103, R104, R105, R651, R652, R548, R54,
R88, R608, Table 02.13). Where a clause goes beyond the rules it is the model's choice: log 118. -/
def Obligations.FunctionAndPortResets : Prop :=
  (∀ (s : State) (t : Time) (fn : Fin 64), 2 ≤ fn.val → s.up 2 = true →
    let torn := tearLocks (endSecure (s.at t) fn false) (· = fn.val) 0
    (((s.fnc fn).state = 2 ∨ (s.fnc fn).state = 3) → ∃ s1, exec (.flr t fn) s = .next s1 ∧ s1 = quarantine (s.at t) fn 0 ∧
      quarantined s s1 fn) ∧
    (((s.fnc fn).state = 1 ∨ (s.fnc fn).state = 4) → ∃ s1, exec (.flr t fn) s = .next s1 ∧
      s1 = setFnState (resetFnRegs torn fn) fn 1 ∧ (s1.fnc fn).state = 1 ∧ (s1.fnc fn).secure = false ∧
      (s1.fnc fn).grant = (s.fnc fn).grant ∧ (s1.fnc fn).accept = 0 ∧ (s1.fnc fn).featOk = false ∧
      (∀ q, q < 16 → (s1.que fn q).enable = false) ∧ unlocked s1 fn) ∧
    (((s.fnc fn).state = 0 ∨ (s.fnc fn).state = 5) → ∃ s1, exec (.flr t fn) s = .next s1 ∧ s1 = torn ∧
      (s1.fnc fn).state = (s.fnc fn).state ∧ (s1.fnc fn).secure = false ∧ unlocked s1 fn)) ∧
  (∀ (s : State) (t : Time) (pf : Fin 2), s.up 2 = true → ∃ s1, exec (.pfFlr t pf) s = .next s1 ∧
    s1 = resetPf (s.at t) pf ∧ pfReset s s1 pf) ∧
  (∀ (s : State) (t : Time) (port : Fin 2), s.up 2 = true → (s.port port).numVfs ≠ 0 →
    ∃ s1, exec (.sriovVfDisable t port) s = .next s1 ∧ s1 = endSriov (quarantinePort (s.at t) port 1) port ∧
      (s1.port port).numVfs = 0 ∧ ∀ i, i ∈ s.portFns port → (s1.fnc i).sriov = false ∧
        (((s.fnc i).state = 2 ∨ (s.fnc i).state = 3) → (s1.fnc i).state = 5 ∧ (s1.fnc i).secure = false) ∧
        ((s.fnc i).state ≠ 2 → (s.fnc i).state ≠ 3 → (s1.fnc i).state = (s.fnc i).state)) ∧
  (∀ (s : State) (t : Time) (port : Fin 2) (n : Fin 64), s.up 2 = true → (s.port port).link = true → (s.port port).numVfs = 0 →
    ∃ s1, exec (.sriovVfEnable t port n) s = .next s1 ∧ (s1.port port).numVfs = ((s.portFns port).take n.val).length ∧
      (∀ i, (s1.fnc i).sriov = true ↔ i ∈ (s.portFns port).take n.val ∨ (s.fnc i).sriov = true) ∧
      s1 = { s.at t with fns := s1.fns, ports := s1.ports }) ∧
  (∀ (s : State) (t : Time) (port : Fin 2), (s.port port).perst = false →
    ∃ s1, exec (.perstAssert t port) s = .next s1 ∧
      s1 = (if s.up 2 then resetPf (s.at t) port else s.at t).modPort port (fun x =>
        { x with perst := true, link := false, gen := 0, width := 0, ready := false, since := none }) ∧
      (s1.port port).perst = true ∧ (s1.port port).link = false ∧ (s1.port port).ready = false ∧
      (s.up 2 = true → pfReset s s1 port)) ∧
  (∀ (s : State) (t : Time) (port : Fin 2), (s.port port).perst = true →
    ∃ s1, exec (.perstDeassert t port) s = .next s1 ∧ (s1.port port).perst = false ∧
      (s1.port port).since = (if s.boot.hostAt = none then none else some (max s.dt t)) ∧ s1.pwr.wakeEvt = some (max s.dt t) ∧
      s1.pwr.wake = (s.pwr.wake || decide (s.pwr.device = 1)) ∧ s1 = { s.at t with ports := s1.ports, pwr := s1.pwr }) ∧
  ∀ (s : State) (fn cause : Nat), 2 ≤ fn → quarantined s (quarantine s fn cause) fn

/-- HEAD_CONFIG waits for a blanking start, is judged again there, and configures, trains or turns off its head (R120,
R121, R122, R124, R131, R132, R134, R85, Table 03.4). Where a clause goes beyond the rules it is the model's choice:
log 34, 36, 41, 151, 181. -/
def Obligations.HeadConfigWaitsThenTakesEffect : Prop :=
  (∀ (s : State) (t : Time) (c : Cmd), (s.at t).runs specHeadConfig c = true → exec (.headConfig t c) s =
    .next (((s.at t).launched specHeadConfig c).modHead (c.f 10 0 4) fun d => { d with configs := d.configs ++ [s.nextId] })) ∧
  (∀ (s : State) (t : Time) (h : Fin 12), s.configBusy h = true → exec (.headConfigApply t h) s = .next (s.at t)) ∧
  (∀ (s : State) (t : Time) (h : Fin 12) (f : Flight) (r : List Flight), s.up (mantleOf h) = true → s.configBusy h = false →
    (s.head h).configs.filterMap s.flight? = f :: r →
    let s1 := (s.at t).modHead h fun d => { d with configs := r.map (·.id) }
    s1.verdict specHeadConfig f.cmd = none → (s.island f.isl).live = true → (s.island f.isl).inReset = false →
    exec (.headConfigApply t h) s = .next (showSends (s.at t) (applyConfig (holdPerf s1 f.isl f.cmd.fn) f) h)) ∧
  (∀ (d : Head) (h : Nat), (d.role = 0 → d.sends h = .nothing) ∧ (d.role ≠ 0 →
    (isDp h = true → d.link = 2 → d.sends h = .training) ∧ (isDp h = true → d.link ≠ 2 → d.link ≠ 3 → d.sends h = .idle) ∧
    (isDp h = true → d.link = 3 → d.running = true → d.applied = none → d.sends h = .picture) ∧
    (isDp h = false → d.applied ≠ none → d.sends h = .blank) ∧ (isDp h = false → d.applied = none → d.sends h = .picture))) ∧
  ∀ (s : State) (f : Flight),
    let c := f.cmd
    let h := c.f 10 0 4
    let new := (if c.f 10 16 2 = 2 then dropSlots s h else s).modHead h fun d => d.configured c (s.csi (c.f 11 4 3)).starts
    (c.f 10 16 2 = 0 → applyConfig s f = linkEvent (complete (turnOff s h) f.id stOk [0, 0, 0, 0]) h 0 ∧
      ((turnOff s h).head h).role = 0 ∧ ((turnOff s h).head h).link = 0 ∧ ((turnOff s h).head h).running = false) ∧
    (c.f 10 16 2 ≠ 0 → (s.safeOf h).safety = false →
      (isDp h = false → applyConfig s f =
        startTiming (setLink (new.modHead h fun d => { d with applied := some (f.id, 0) }) h 3 0 0) h) ∧
      (isDp h = true → (s.head h).hpd = false →
        let s1 := startTiming (setLink new h 1 0 0) h
        applyConfig s f = linkEvent (complete s1 f.id stOk [2 ^ 8, 0, 0, 0]) h 0) ∧
      (isDp h = true → (s.head h).hpd = true → new.headCands h ≠ [] → 
        let tr : Training := { cands := new.headCands h, cause := 0, limit := s.dt + 2000000000, flight := some f.id }
        applyConfig s f = setLink (new.modHead h fun d => { d with training := some tr }) h 2 0 0))

/-- A trained candidate brings the link UP; a failed one gives way to the next; the last or the limit ends in FAILED
(R130, R131, R132, R133, R135, R155, Table 03.7). Where a clause goes beyond the rules it is the model's choice: log
32, 41, 47, 152. -/
def Obligations.LinksTrainThroughTheirCandidates : Prop :=
  (∀ (s : State) (t : Time) (h : Fin 12) (ok : Bool) (tr : Training) (c : Nat × Nat) (r : List (Nat × Nat)),
    (s.head h).training = some tr → s.up (mantleOf h) = true → tr.boot = false → tr.cands = c :: r →
    let shown := fun (s1 : State) => Host.Outcome.next (φ := Fault) (ρ := Refusal) (showSends (s.at t) s1 h)
    let up := setLink ((s.at t).modHead h fun d => { d with training := none }) h 3 c.2 c.1
    (max s.dt t ≤ tr.limit → ok = true → (∀ id, tr.flight = some id → exec (.linkTrainingResult t h ok) s =
        shown (startTiming (up.modHead h fun d => { d with applied := some (id, tr.attempts + 1) }) h)) ∧
      (tr.flight = none → exec (.linkTrainingResult t h ok) s = shown (linkEvent up h tr.cause))) ∧
    (max s.dt t ≤ tr.limit → ok = false → r ≠ [] → exec (.linkTrainingResult t h ok) s = .next ((s.at t).modHead h fun d =>
      { d with training := some { tr with cands := r, attempts := tr.attempts + 1 } })) ∧
    ((tr.limit < max s.dt t ∨ (ok = false ∧ r = [])) → exec (.linkTrainingResult t h ok) s =
      shown (trainingFailed (s.at t) h tr.flight (tr.attempts + 1))) ∧
    (tr.limit ≤ max s.dt t → exec (.linkTrainingTimeout t h) s =
      shown (trainingFailed (s.at t) h tr.flight (tr.attempts + 1)))) ∧
  (∀ (s : State) (h n : Nat), trainingFailed s h none n =
    linkEvent (s.modHead h fun d => { d with
      training := none, link := 4, rate := 0, lanes := 0, auxSince := if d.link = 2 then s.dt else d.auxSince }) h 4) ∧
  (∀ (s : State) (t : Time) (h : Fin 12) (rate lanes : Fin 8), isDp h = true →
    let s1 := (s.at t).modHead h fun d => { d with hpd := true, sinkRate := rate, sinkLanes := lanes }
    (s.up (mantleOf h) = true → (s.head h).role ≠ 0 → ((s.head h).link = 1 ∨ (s.head h).link = 4) →
      (s.head h).training = none → (s.head h).hpd = false →
      exec (.hpdRise t h rate lanes) s = .next (showSends (s.at t) (train s1 h 1 (s1.headCands h) none) h)) ∧
    (((s.head h).role = 0 ∨ (s.head h).link = 3) → exec (.hpdRise t h rate lanes) s = .next s1)) ∧
  (∀ (s : State) (t : Time) (h : Fin 12), isDp h = true →
    let s1 := (s.at t).modHead h fun d => { d with hpd := false }
    ((s.head h).role = 0 → exec (.hpdUnplug t h) s = .next s1) ∧
    (s.up (mantleOf h) = true → (s.head h).role ≠ 0 → (s.head h).training = none → (s.head h).link = 3 →
      exec (.hpdUnplug t h) s = .next (showSends (s.at t)
        (linkLost (linkEvent (setLink (s1.modHead h fun d => { d with training := none }) h 1 0 0) h 2) h) h))) ∧
  ∀ (s : State) (t : Time) (h : Fin 12), isDp h = true → s.up (mantleOf h) = true → (s.head h).link = 3 →
    exec (.irqHpd t h true) s = .next (showSends (s.at t) (linkLost (train (s.at t) h 3 (((s.head h).lanes, (s.head h).rate) ::
      (s.headCands h).filter (· ≠ ((s.head h).lanes, (s.head h).rate))) none) h) h)

/-- Frame start, blanking start and latch: count, stamp, picture, completions and shadows (R111, R122, R127, R146, R149,
R150, R179, R192, R194, R195, R233, R44). Where a clause goes beyond the rules it is the model's choice: log 42, 44,
154, 179. -/
def Obligations.FramesStartBlankAndLatch : Prop :=
  (∀ (s : State) (t : Time) (h : Fin 12) (loopOk : Bool), s.up (mantleOf h) = true → (s.head h).running = true →
    (s.head h).role ≠ 2 →
    ∃ s', exec (.frameStart t h loopOk) s = .next s' ∧ (s'.head h).frames = ((s.head h).frames + 1) % 2 ^ 32 ∧
      (s'.head h).frameDt = (s.at t).stamp (mantleOf h) ∧ (s'.head h).pic = (s.head h).next ∧ (s'.head h).applied = none ∧
      ∀ k, k < 12 → (s.head k).role = 2 → (s.head k).cloneSrc = h.val → (s.head k).running = true → s.up (mantleOf k) = true →
        (s'.head k).frames = ((s.head k).frames + 1) % 2 ^ 32 ∧ (s'.head k).frameDt = (s.at t).stamp (mantleOf k) ∧
        ((s.head k).lockEn = false → (s'.head k).trim = (s'.head h).trim)) ∧
  (∀ (s : State) (t : Time) (h : Fin 12) (loopOk : Bool), (s.head h).role = 2 →
    exec (.frameStart t h loopOk) s = .next (s.at t)) ∧
  (∀ (s : State) (t : Time) (h : Fin 12) (cmpOk : Bool), s.framing h = true →
    ∃ s', exec (.blankingStart t h cmpOk) s = .next s' ∧ (s'.head h).done = [] ∧ (s'.head h).undFrame = 0 ∧
      (s'.head h).pend = (s.head h).pend.filter (fun p => !p.timedOut) ∧
      ∀ n, n < 64 → (s.slotOf n).head = h.val → (s'.slotOf n).hidden = (s.head h).pic.hidden.contains n) ∧
  (∀ (s : State) (t : Time) (h : Fin 12), s.framing h = true →
    ∃ s', exec (.latch t h) s = .next s' ∧ (s'.head h).lastLatch = max s.dt t ∧
      (s'.head h).nightP = (s'.head h).nightW.isSome ∧
      (s'.head h).gCommit = ((s.head h).gCommit && decide (max s.dt t ≤ (s.head h).gCommitAt)) ∧
      ((s.head h).pend = [] → ∀ w, (s.head h).nightW = some w →
        (s'.head h).night = (if w.2 < max s.dt t then w.1 else (s.head h).night) ∧
        ((s'.head h).nightW = if w.2 < max s.dt t then none else some w)) ∧ (s'.head h).next.night = (s'.head h).night ∧ (s'.head h).next.bg = (s.head h).bg.toNat % 2 ^ 30 ∧
      (s'.head h).next.gamma = if (s.head h).gCommit = true ∧ (s.head h).gCommitAt < max s.dt t then (s.head h).gShadow else (s.head h).next.gamma) ∧
  ∀ (s : State) (t : Time) (h : Fin 12), (s.safeOf h).safety = true → s.up (mantleOf h) = true → (s.head h).running = true →
    max (s.head h).frameDt (s.head h).runAt + 2 * (modeOf (s.head h).mode).period ≤ max s.dt t →
    exec (.frameStartAbsent t h) s = .next (relocate (s.at t) h 1)

/-- A line that is not composed in time repeats pixels and counts; UNDERRUN_CLR clears; the PWM takes its settings at a
period end (R143, R144, R145, R151, R152). Where a clause goes beyond the rules it is the model's choice: log 43,
48, 158, 166. -/
def Obligations.TailLinesCountUnderruns : Prop :=
  (∀ (s : State) (t : Time) (h : Fin 12) (y ready : Nat) (fault : Word), s.framing h = true → y < (modeOf (s.head h).mode).h →
    let rep := (modeOf (s.head h).mode).w - ready
    let d := s.head h
    ∃ s', exec (.tailLine t h y ready fault) s = .next s' ∧
      (s'.head h).undPix = min (d.undPix + rep) (max d.undPix 0xFFFFFFFF) ∧
      (s'.head h).undLines = (if rep = 0 then d.undLines else if d.undLines < 0xFFFFFFFF then d.undLines + 1 else d.undLines) ∧
      (s'.head h).undFrame = (if rep = 0 then d.undFrame else d.undFrame + 1) ∧
      ((s.safeOf h).safety = false ∨ (∃ r ∈ d.rows, r.y = y ∧ r.next = false) →
      (d.link = 3 → ∃ l, s'.out = s.out ++ [.line h y l]) ∧ (d.link ≠ 3 → s'.out = s.out) ∧
      s' = { s.at t with heads := s'.heads, out := s'.out } ∧ ∀ k, k ≠ h.val → s'.head k = s.head k)) ∧
  (∀ (s : State) (t : Time) (fn : Fin 128) (h : Fin 12) (w : Word), s.headOpen fn h false = true → w.getLsbD 0 = true →
    exec (.underrunClr t fn h w) s = .next ((s.at t).modHead h fun d => { d with undPix := 0, undLines := 0 })) ∧
  ∀ (s : State) (t : Time) (h : Fin 12), s.up (mantleOf h) = true →
    (s.head h).blStart + (s.head h).blPeriod ≤ max s.dt t →
    let duty := if (s.head h).next.night then fld (s.head h).blDuty 16 12 else fld (s.head h).blDuty 0 12
    exec (.pwmPeriodEnd t h) s = .next ((s.at t).modHead h fun d => { d with
      blPeriod := pwmPeriod d, blStart := max s.dt t, blDutyA := if (s.safeOf h).safety then max (s.safeOf h).floor duty else duty
      blOn := d.blCfg.getLsbD 0 || ((s.safeOf h).safety && d.running) })

/-- Gamma, night and AUX: what an owner's write does, how a transaction ends; the frame stamp reads consistently (R149,
R150, R151, R153, R154, R521, R42, R111). Where a clause goes beyond the rules it is the model's choice: log 38, 40,
157, 179. -/
def Obligations.GammaNightAuxAndFrameStamp : Prop :=
  (∀ (s : State) (t : Time) (fn : Fin 128) (h : Fin 12), s.headOpen fn h true = true →
    (∀ w : Word, let k := 1024 * (if (s.head h).gBank then 1 else 0) + (s.head h).gIndex
      exec (.gammaDataWrite t fn h w) s = .next (((s.at t).modHead h fun d => { d with
        gShadow := put d.gShadow k (w.toNat % 2 ^ 30), gIndex := (d.gIndex + 1) % 1024 }).modSafe h fun o =>
          if o.safety then { o with gmShadow := put o.gmShadow k (w.toNat % 2 ^ 30) } else o)) ∧
    exec (.gammaCommit t fn h) s = .next ((s.at t).modHead h fun d =>
      if d.gCommit then d else { d with gCommit := true, gCommitAt := max s.dt t })) ∧
  (∀ (s : State) (t : Time) (fn : Fin 128) (h : Fin 12), s.headOpen fn h false = true →
    (∀ night : Bool, exec (.nightWrite t fn h night) s = .next ((s.at t).modHead h fun d => { d with
      night := match d.nightW with
        | some w => if w.2 < max s.dt t then w.1 else d.night
        | none => d.night
      nightW := some (night, max s.dt t), nightP := true })) ∧
    (isDp h = true → (s.head h).auxBusy = false →
      let normal := (s.safeOf h).safety = true ∧ s.isSecure fn = false
      let native := fld (s.head h).aux 0 4 = 8
      (¬(normal ∧ (native ∨ (s.head h).auxShut = true)) → exec (.auxStart t fn h) s = .next ((s.at t).modHead h fun d =>
        { d with auxBusy := true, auxRun := d.aux, auxTries := 0, auxSince := max s.dt t })) ∧
      (normal → (s.head h).auxShut = true → exec (.auxStart t fn h) s =
        .next ((s.at t).modHead h fun d => { d with auxRes := 3 })) ∧
      (normal → (s.head h).auxShut = false → native → exec (.auxStart t fn h) s =
        .next (worldViolation ((s.at t).modHead h fun d => { d with auxRes := 3 }) (mantleOf h) fn)))) ∧
  (∀ (s : State) (t : Time) (h : Fin 12) (reply : Fin 3) (data : List Byte), s.auxLive h = true →
    (reply = 2 → (s.head h).auxTries < 7 → exec (.auxReply t h reply data) s = .next ((s.at t).modHead h fun d =>
      { d with auxTries := d.auxTries + 1, auxSince := max s.dt t })) ∧
    ((reply ≠ 2 ∨ 7 ≤ (s.head h).auxTries) → ∃ s', exec (.auxReply t h reply data) s = .next s' ∧
      (s'.head h).auxBusy = false ∧ (s'.head h).auxRes = reply.val ∧ s' = { s.at t with heads := s'.heads } ∧
      ∀ k, k ≠ h.val → s'.head k = s.head k) ∧
    ((s.head h).auxSince + 400000 ≤ max s.dt t → exec (.auxTimeout t h) s =
      .next ((s.at t).modHead h fun d => { d with auxBusy := false, auxRes := 2 }))) ∧
  (∀ (s : State) (t : Time) (fn : Fin 128) (h : Fin 12) (night : Bool), fn.val < 64 → s.reach fn = true → s.up (mantleOf h) = true →
    (2 ≤ fn.val ∨ s.mayWrite fn 4 = true) → s.ownsHead fn h = false →
    exec (.nightWrite t fn h night) s = .next { s.at t with hdDrop := s.hdDrop + 1 }) ∧
  ∀ (s : State) (t : Time) (ini : Fin 128) (h : Fin 12), s.canRead ini (mantleOf h) = true →
    ∃ s', exec (.frameDtLoRead t ini h) s = .next s' ∧
      s' = { s.at t with time := { s.time with snapFrame := s'.time.snapFrame }
                         out := s.out ++ [.readData ini ((s.head h).frameDt % 2 ^ 32)] } ∧
      (∀ k, look s'.time.snapFrame k 0 = if k = 16 * ini.val + h.val then (s.head h).frameDt else look s.time.snapFrame k 0)

/-- A FLIP that runs is pending at its head; FLIP_TIMEOUT marks what has expired and the members of its group (R189,
R195, R198, R200, Table 04.4). Where a clause goes beyond the rules it is the model's choice: log 44. -/
def Obligations.FlipsPendAndTimeOut : Prop :=
  (∀ (s : State) (t : Time) (c : Cmd), (s.at t).runs specFlip c = true →
    let h := c.f 10 0 4
    exec (.flip t c) s = .next (((s.at t).launched specFlip c).modHead h fun d => { d with pend := d.pend ++ [{
      flight := s.nextId, fn := c.fn, arrive := max s.dt t, limit := max s.dt t + flipLimit (s.head h)
      entries := (List.range (c.f 10 4 4)).map (entryOf c), replace := c.b 10 8, night := c.f 10 9 2
      group := c.f 10 16 8, gsize := c.f 10 24 4, target := c.d 11
      gid := (((s.forming c.fn (c.f 10 16 8)).head?).map fun e => e.2.gid).getD s.nextId }] })) ∧
  ∀ (s : State) (t : Time) (h : Fin 12), s.up (mantleOf h) = true →
    let gone := (s.head h).pend.filter (s.at t).flipExpired
    ∃ s', exec (.flipTimeout t h) s = .next s' ∧ s' = { s.at t with heads := s'.heads } ∧
      ∀ k, k < 12 → (s'.head k).pend = (s.head k).pend.map fun p =>
        if gone.any fun q => q.flight = p.flight || (q.group ≠ 0 && q.fn = p.fn && q.group = p.group && q.gid = p.gid)
        then { p with timedOut := true } else p

/-- At a latch a ready flip is applied whole, one that breaks a limit ends, one that is not ready waits and holds back
its function (R191, R192, R193, R194, R196, Table 04.5). Where a clause goes beyond the rules it is the model's
choice: log 44, 45, 46, 161, 179. -/
def Obligations.FlipsApplyInOrderAtTheLatch : Prop :=
  (∀ (h : Nat) (L : Time) (s : State) (p : PFlip) (r : List PFlip) (blocked : List Nat),
    ((p.fn ∈ blocked ∨ s.latchReady p = false) → judge h L s (p :: r) blocked =
      judge h L (s.modHead h fun d => { d with pend := d.pend ++ [{ p with passed := p.passed + 1, due := p.due ||
        (decide (p.arrive < s.dt) && (decide (p.target = 0) || decide (p.target ≤ s.dt))) }] }) r (p.fn :: blocked)) ∧
    (p.fn ∉ blocked → s.latchReady p = true → flipFits s (applyLayers s h p) h p = true →
      ((s.head h).role ≠ 2 ∨ p.entries = []) →
      judge h L s (p :: r) blocked = judge h L ((applyLayers s h p).modHead h fun d => { d with
        nApplied := (d.nApplied + 1) % 65536
        night := if p.night = 2 then false else if p.night = 3 then true else d.night
        done := d.done ++ [{ flight := p.flight, status := if p.due then stLate else stOk
                             pay := [(d.frames + 1) % 2 ^ 32, p.passed, L % 2 ^ 32, L / 2 ^ 32 % 2 ^ 32] }] }) r blocked) ∧
    (p.fn ∉ blocked → s.latchReady p = true →
      (flipFits s (applyLayers s h p) h p = false ∨ ((s.head h).role = 2 ∧ p.entries ≠ [])) →
      judge h L s (p :: r) blocked = judge h L (complete s p.flight stNoResource [0, p.passed + 1, 0, 0]) r blocked)) ∧
  ∀ (fn h : Nat) (s : State) (e : Layer),
    let s1 := applyEntry fn h s e
    ((s1.slotOf e.slot).layer.enable = e.enable) ∧
    (e.enable = true → (s1.slotOf e.slot).layer = e ∧ (s1.slotOf e.slot).head = h ∧ (s1.slotOf e.slot).fn = fn) ∧
    (∀ n, n ≠ e.slot → s1.slotOf n = s.slotOf n) ∧ s1 = { s with slots := s1.slots, isl := s1.isl }

/-- LAYER_FETCH counts the fetched and skipped lines of a memory layer, and the missed lines of a ring (R165, R171,
R178, R184, R538). Where a clause goes beyond the rules it is the model's choice: log 58, 173. -/
def Obligations.LayerFetchCountsLines : Prop :=
  ∀ (s : State) (t : Time) (slot : Fin 64),
    (s.shownBy slot = none → exec (.layerFetch t slot) s = .next (s.at t)) ∧
    ∀ (h : Nat) (p : PicLayer), s.shownBy slot = some (h, p) →
    let m := modeOf (s.head h).mode
    (p.layer.lineLock = false → s.perfHeld (mantleOf h) = false →
      exec (.layerFetch t slot) s = .next ((fetchReads (s.at t) m p).modSlot slot fun x => { x with
        fetched := (fetchLines m p).1 % 65536, skipped := (fetchLines m p).2 % 65536
        bcsErr := min (x.bcsErr + badBlocks (s.at t) m p) (max x.bcsErr 0xFFFF)
        beyond := x.beyond + beyondReads (s.at t) m p })) ∧
    (p.layer.lineLock = true →
      exec (.layerFetch t slot) s = .next (if (s.at t).ringMissed h p ((s.at t).lineNow h)
        then (s.at t).modSlot slot fun x => { x with ringMiss := if x.ringMiss < 0xFFFF then x.ringMiss + 1 else x.ringMiss }
        else s.at t))

/-- SAFETY_LIST_UPDATE waits its turn; then it writes both copies, and a commit is validated (R247, R248, R250, R244,
Table 05.4). Where a clause goes beyond the rules it is the model's choice: log 50, 55, 56, 162, 165. -/
def Obligations.SafetyListUpdatesTakeTurns : Prop :=
  (∀ (s : State) (t : Time) (c : Cmd),
    let s0 := if 4 ≤ c.f 10 4 4 ∧ c.f 10 4 4 ≤ 8 ∧ c.f 12 0 24 ≠ 0 then readLists (s.at t) (s.at t).allBases else s.at t
    let s1 := s0.launched specListUpdate c
    s0.runs specListUpdate c = true →
    exec (.safetyListUpdate t c) s =
      .next (runUpdates { s1 with store := { s1.store with queue := s1.store.queue ++ [s0.nextId] } })) ∧
  (∀ (s : State) (f : Flight),
    let c := f.cmd
    let h := c.f 10 0 4
    let base := slBase h (1 - (s.safeOf h).bankL) (c.f 10 4 4) + c.f 11 0 24 * (slSize (c.f 10 4 4)).2
    let s0 := writeStore s base (slData c)
    let s1 := if c.f 10 4 4 ≤ 1 then fileDirectory s0 h else s0
    let s2 := readLists s1 (s1.validateBases h)
    let restored := fun (s : State) => if c.b 10 9 && (s.safeOf h).fault
      then s.modSafe h fun o => { o with restore := true, goodRun := 0 } else s
    (c.b 10 8 = false → applyUpdate s f = complete (restored s1) f.id stOk [0, 0, 0, 0]) ∧
    (∀ i, c.b 10 8 = true → s2.validateBank h = some i → applyUpdate s f = complete s2 f.id stMalformed [0, i, 0, 0]) ∧
    (c.b 10 8 = true → s2.validateBank h = none →
      applyUpdate s f = restored (s2.modSafe h fun o => { o with commit := some (f.id, s.dt) }))) ∧
  (∀ (s : State) (h : Nat), (s.safeOf h).refresh = true → s.bankDrawn h (1 - (s.safeOf h).bankL) = false →
    let bank := (s.safeOf h).bankL
    let s1 := fixStore s false (s.store.listedIn false (bankRanges h bank))
    let s2 := fixStore s1 true (s1.store.listedIn true (bankRanges h bank))
    refreshBank s h = fileDirectory ({ s2 with store := s2.store.refreshShadow h bank }.modSafe h fun o =>
      { o with refresh := false }) h) ∧
  ∀ (s : State) (h id : Nat) (L v : Time), (s.safeOf h).safety = true → s.wl.frozen = false →
    (s.safeOf h).commit = some (id, v) → v < s.dt →
    let s1 := applyCommit s h L
    (s1.safeOf h).bankL = 1 - (s.safeOf h).bankL ∧ (s1.safeOf h).commit = none ∧
    (s1.safeOf h).refresh = true ∧
    (s1.head h).done = (s.head h).done ++
      [{ flight := id, status := stOk, pay := [((s.head h).frames + 1) % 2 ^ 32, 0, L % 2 ^ 32, L / 2 ^ 32 % 2 ^ 32] }]

/-- Line rendering, the masking of a renderer fault, its rebuild, and the retirement at a third rebuild in 10 s (R207,
R208, R218, R219, R221, R222, R223, R224, R225). Where a clause goes beyond the rules it is the model's choice: log
52, 53, 54, 162, 163. -/
def Obligations.RenderersMaskRebuildAndRetire : Prop :=
  (∀ (s : State) (t : Time) (h : Fin 12) (y : Nat) (d : PassFault), (s.safeOf h).safety = true → s.up (mantleOf h) = true →
    (s.head h).running = true → (s.island 1).live = true → y < (modeOf (s.head h).mode).h → s.takes h false = true → s.takes h true = true →
    let u := s.at t
    let nxt := u.rowNext h y
    let pic := if nxt then (s.head h).next else (s.head h).pic
    let wa := u.lineWords pic y false
    let wb := u.lineWords pic y true
    let s2 := fixStore (fixStore u false wa) true wb
    let la := s2.planeLine pic (modeOf (s.head h).mode).w y false
    let lb := s2.planeLine pic (modeOf (s.head h).mode).w y true
    let crc := fun (l : List Nat) (x : Word) => crc32c (l.flatMap (leBytes 4)) ^^^ x.toNat
    let fa := crc la d.mainA ≠ crc la d.checkA ∨ s2.store.broken false wa = true
    let fb := crc lb d.mainB ≠ crc lb d.checkB ∨ s2.store.broken true wb = true
    let shown := fun (s3 : State) => s3.modHead h fun x => { x with rows := x.rows.filter (fun r => r.y ≠ y || r.next ≠ nxt) ++
      [{ y := y, next := nxt, feed := if s3.feeding h then lb else la, check := if s3.checking h then lb else la }] }
    let differ := crc la d.mainA ≠ crc lb d.mainB
    let s3 := if differ then s2.modPair (pairOf h) fun x =>
      { x with misLines := if x.misLines < 0xFFFF then x.misLines + 1 else x.misLines } else s2
    (¬differ → ¬fa → ¬fb → exec (.safetyLineRender t h y d) s = .next (shown s2)) ∧
    (fa → ¬fb → exec (.safetyLineRender t h y d) s = .next (shown (rebuild s3 (pairOf h) false))) ∧
    (¬fa → fb → exec (.safetyLineRender t h y d) s = .next (shown (rebuild s3 (pairOf h) true))) ∧
    ((fa ∧ fb) ∨ (differ ∧ ¬fa ∧ ¬fb) →
      exec (.safetyLineRender t h y d) s = .next (shown (unresolved s3 (pairOf h))))) ∧
  (∀ (s : State) (p : Nat), (s.pair p).stA = 0 → (s.pair p).stB = 0 → s.flt.coresUp = true → s.wl.frozen = false →
    let recent := (s.pair p).timesA.filter fun t => s.dt < t + 10000 * 1000000
    (recent.length < 2 → rebuild s p false = report (s.modPair p fun x => { x with
      feedB := true, rebuilds := if x.rebuilds < 0xFF then x.rebuilds + 1 else x.rebuilds, stA := 1, timesA := recent ++ [s.dt] }) 1 0x12) ∧
    (2 ≤ recent.length → rebuild s p false = report (s.modPair p fun x => { x with
      feedB := true, stA := 2, timesA := recent ++ [s.dt] }) 1 0x13 false)) ∧
  (∀ (s : State) (t : Time) (p : Fin 2), s.flt.coresUp = true →
    let good := fun (b : Bool) => fixStore (s.at t) b (s.store.listed b)
    ((s.pair p).stA = 1 → exec (.rendererRebuildDone t p false) s = .next ({ good true with
      store := { (good true).store with memA := (good true).store.memB, chkA := (good true).store.chkB } }.modPair p fun x =>
        { x with stA := 0, backA := s.safeHeads p })) ∧
    ((s.pair p).stB = 1 → exec (.rendererRebuildDone t p true) s = .next ({ good false with
      store := { (good false).store with memB := (good false).store.memA, chkB := (good false).store.chkA } }.modPair p fun x =>
        { x with stB := 0, backB := s.safeHeads p }))) ∧
  ∀ (s : State) (t : Time), s.flt.coresUp = true → s.wl.frozen = false →
    let s1 := fixStore (s.at t) false (s.store.listed false)
    let s2 := fixStore s1 true (s1.store.listed true)
    s2.store.broken false (s2.store.listed false) = false → s2.store.broken true (s2.store.listed true) = false →
    exec (.storeScrub t) s = .next s2

/-- In HANDBACK WL_CONFIRM with the current WL_GEN leads to HOSTED; any other GEN sets CONFIRM_FAIL (R261). -/
def Obligations.ConfirmationMovesHandbackToHosted : Prop :=
  ∀ (s : State) (t : Time) (fn : Fin 64) (w : Word), s.guestOpen fn = true → s.wl.mode = 2 →
    (fld w 0 16 = s.wl.gen → exec (.wlConfirm t fn w) s = .next (setWlMode (s.at t) 0 4) ∧ (setWlMode (s.at t) 0 4).wl.mode = 0) ∧
    (fld w 0 16 ≠ s.wl.gen → exec (.wlConfirm t fn w) s =
      .next ((s.at t).modWl fun x => { x with confFail := true }) ∧ ((s.at t).modWl fun x => { x with confFail := true }).wl.mode = 2)

/-- A valid heartbeat restarts the window and ends AUTONOMOUS; an invalid one is counted; an empty window leads to
AUTONOMOUS (R256, R258, R260, R262, R264, R265, R295). Where a clause goes beyond the rules it is the model's
choice: log 75. -/
def Obligations.HeartbeatsKeepWatchlampHosted : Prop :=
  (∀ (s : State) (t : Time) (fn : Fin 64) (w : Word), s.guestOpen fn = true →
    let seq := fld w 0 16
    let valid := s.wl.hbFirst = true ∨ seq = (s.wl.hbLast + 1) % 65536
    let noted := (s.at t).modWl fun x => { x with hbLast := seq, hbFirst := false, hbAt := max s.dt t }
    (valid → s.wl.mode ≠ 1 → exec (.wlHeartbeat t fn w) s = .next noted) ∧
    (valid → s.wl.mode = 1 → exec (.wlHeartbeat t fn w) s =
      .next (setWlMode (noted.modWl fun x => { x with handAt := max s.dt t, confFail := false }) 2 3)) ∧
    (¬valid → exec (.wlHeartbeat t fn w) s =
      .next ((s.at t).modWl fun x => { x with hbBad := if x.hbBad < 0xFF then x.hbBad + 1 else x.hbBad }))) ∧
  (∀ (s : State) (t : Time) (im : Image), s.img = some im → s.wl.mode ≠ 1 →
    (s.wl.hbAt + im.takeoverMs * 1000000 ≤ max s.dt t → s.watchUp = true →
      ∃ s', exec (.takeoverTimeout t) s = .next s' ∧ s'.wl.mode = 1 ∧ s'.wl.sysAlarm = true ∧ s'.wl.hbFirst = true) ∧
    (max s.dt t < s.wl.hbAt + im.takeoverMs * 1000000 → exec (.takeoverTimeout t) s = .next (s.at t))) ∧
  ∀ (s : State) (t : Time) (im : Image), s.img = some im → s.wl.mode = 2 →
    (s.wl.handAt + im.handbackMs * 1000000 ≤ max s.dt t → s.watchUp = true →
      ∃ s', exec (.handbackLimitExpiry t) s = .next s' ∧ s'.wl.mode = 1 ∧ s'.wl.sysAlarm = s.wl.sysAlarm) ∧
    (max s.dt t < s.wl.handAt + im.handbackMs * 1000000 → exec (.handbackLimitExpiry t) s = .next (s.at t))

/-- A telegram is counted as SHORT, CRC or SEQ, or it sets its signal; a signal without fresh telegrams is STALE (R270,
R271, R272, R273, R274, R276). Where a clause goes beyond the rules it is the model's choice: log 70, 71. -/
def Obligations.TelegramsAreJudgedBeforeTheySetASignal : Prop :=
  (∀ (s : State) (t stamp : Time) (n : Fin 512) (p : List Byte) (im : Image) (e : MapEntry), s.img = some im →
    im.mapping.find? (·.1 = n.val) = some (n.val, e) → telUsable e = true → s.watchUp = true →
    let s1 := (s.at t).modWl fun w => { w with inbox := w.inbox.erase ⟨n, p, stamp⟩ }
    (telFits e p = false → exec (.telegramAccept t n p stamp) s =
      .next (s1.modWl fun w => { w with short := if w.short < 0xFF then w.short + 1 else w.short })) ∧
    (telFits e p = true → e.e2e = true → telCrcOk e p = false → exec (.telegramAccept t n p stamp) s =
      .next (s1.modWl fun w => { w with crcBad := if w.crcBad < 0xFF then w.crcBad + 1 else w.crcBad })) ∧
    (telFits e p = true → e.e2e = true → telCrcOk e p = true →
      telSeqOk e (look s.wl.e2e n {}) (s.staleAt e.signal (max s.dt t)) p = false → exec (.telegramAccept t n p stamp) s =
      .next (s1.modWl fun w => { w with seqBad := if w.seqBad < 0xFF then w.seqBad + 1 else w.seqBad })) ∧
    (telFits e p = true → (e.e2e = true → telCrcOk e p = true ∧
        telSeqOk e (look s.wl.e2e n {}) (s.staleAt e.signal (max s.dt t)) p = true) →
      im.signals.any (fun x => x.1 = e.signal.val) = true → (∀ t0, (s.sigOf e.signal).stamp = some t0 → t0 < stamp) →
      ∃ s', exec (.telegramAccept t n p stamp) s = .next s' ∧ (s'.sigOf e.signal).value = telValue e p ∧
        (s'.sigOf e.signal).stamp = some stamp ∧ (s'.sigOf e.signal).entry = n.val)) ∧
  ∀ (s : State) (t : Time) (sig : Fin 256) (im : Image), s.img = some im → s.watchUp = true →
    s.staleAt sig (max s.dt t) = true → ∃ s', exec (.signalStale t sig) s = .next s' ∧ (s'.sigOf sig).stale = true ∧
      (∀ e ∈ im.mapping, e.2.signal = sig → (look s'.wl.e2e e.1 {}).resync = true) ∧ s' = { s.at t with wl := s'.wl } ∧
      ∀ k, k ≠ sig.val → s'.sigOf k = s.sigOf k

/-- A rule whose condition has held for its delay becomes ACTIVE_UNACK; one that returns follows Table 06.5 (R275, R276,
R277, R278, R279, R289, Table 06.5). Where a clause goes beyond the rules it is the model's choice: log 72, 73. -/
def Obligations.RulesActivateAndReturn : Prop :=
  (∀ (s : State) (t : Time) (im : Image), s.img = some im → s.watchUp = true → s.wl.running = true → s.wl.evaluated = true →
    (s.wl.runAt < max s.dt t → max s.dt t % 1000000 = 0 → exec (.ruleEvaluation t) s = .next (updAlmout
      ((im.rules.foldl (fun s e => evalRule s e.1 e.2) (s.at t)).modWl fun w => { w with evaluated := true }))) ∧
    (max s.dt t % 1000000 ≠ 0 → exec (.ruleEvaluation t) s = .next (s.at t))) ∧
  (∀ (s : State) (r : Nat) (rule : AlarmRule),
    let x := s.ruleSt r
    let c := ruleCond rule (s.staleAt rule.signal s.dt) x.cond (s.sigOf rule.signal).value
    let s1 := s.modRule r fun x => { x with cond := c, since := if c then some (x.since.getD s.dt) else none }
    let due := c = true ∧ x.since.getD s.dt + rule.onDelay * 1000000 ≤ s.dt
    (due → (x.state = 0 ∨ x.state = 3) → evalRule s r rule = setRule s1 r rule 1) ∧
    (c = false → x.state = 1 → evalRule s r rule = setRule s1 r rule (if rule.latching then 3 else 0)) ∧
    (c = false → x.state = 2 → evalRule s r rule = setRule s1 r rule 0) ∧
    (((c = true ∧ (x.state = 1 ∨ x.state = 2)) ∨ (c = false ∧ (x.state = 0 ∨ x.state = 3)) ∨ (¬due ∧ c = true)) →
      evalRule s r rule = s1)) ∧
  ∀ (s : State) (r st : Nat) (rule : AlarmRule),
    let s1 := setRule s r rule st
    (s1.ruleSt r).state = st ∧ (s1.ruleSt r).actSeq = (if st = 1 then ((s.ruleSt r).actSeq + 1) % 256 else (s.ruleSt r).actSeq) ∧
    s1.wl.gen = (s.wl.gen + 1) % 65536 ∧ (∀ k, k ≠ r → s1.ruleSt k = s.ruleSt k) ∧ s1.wl.sysAlarm = s.wl.sysAlarm

/-- Pins and WL_ACK: when each acknowledges, and a pin held for 10 s is stuck (R280, R281, R282, R283, R284, R563,
R578). Where a clause goes beyond the rules it is the model's choice: log 72, 74. -/
def Obligations.AcknowledgementByPinAndGuest : Prop :=
  (∀ (s : State) (t : Time) (pin : Fin 4),
    exec (.ackinFall t pin) s = .next ((s.at t).modPin pin fun p => { p with low := true, fall := (s.at t).stamp 1, acted := false }) ∧
    exec (.ackinRelease t pin) s = .next ((s.at t).modPin pin fun p => { p with low := false, stuck := false }) ∧
    (s.watchUp = true → (s.pin pin).low = true → (s.pin pin).stuck = false → (s.pin pin).fall + 10000000000 ≤ max s.dt t →
      exec (.ackinStuck t pin) s = .next (report (raiseSysAlarm ((s.at t).modPin pin fun p => { p with stuck := true })) 1 0x17))) ∧
  (∀ (s : State) (t : Time) (pin : Fin 4) (im : Image), s.img = some im → s.watchUp = true → s.wl.evaluated = true →
    let p := s.pin pin
    (p.low = true → p.acted = false → p.stuck = false → p.fall + 20000000 ≤ max s.dt t →
      let s0 := (s.at t).modPin pin fun p => { p with acted := true }
      let s1 := if im.wakeMask.val.testBit pin then wakeEvent s0 else s0
      let s2 := im.rules.foldl (fun s e =>
        if e.2.ackMask.val.testBit pin && decide ((s.ruleSt e.1).unack < p.fall) then ackRule s e.1 else s) s1
      exec (.ackinPress t pin) s =
        .next (if im.sysAckMask.val.testBit pin && decide (s2.wl.sysSince < p.fall) then ackSysAlarm s2 else s2)) ∧
    ((p.low = false ∨ p.acted = true ∨ p.stuck = true ∨ max s.dt t < p.fall + 20000000) →
      exec (.ackinPress t pin) s = .next (s.at t))) ∧
  (∀ (s : State) (t : Time) (fn : Fin 64) (w : Word), s.guestOpen fn = true →
    let r := fld w 0 7
    let x := s.ruleSt r
    let s1 := if w.getLsbD 7 = true ∧ (x.state = 1 ∨ x.state = 3) ∧ x.actSeq = fld w 8 8 then ackRule (s.at t) r else s.at t
    (s.wl.mode = 1 → exec (.wlAck t fn w) s = .next (s.at t)) ∧
    (s.wl.mode ≠ 1 → exec (.wlAck t fn w) s = .next (if w.getLsbD 16 then ackSysAlarm s1 else s1))) ∧
  (∀ (s : State) (r : Nat) (rule : AlarmRule), s.ruleOf r = some rule →
    ((s.ruleSt r).state = 1 → ((ackRule s r).ruleSt r).state = 2) ∧ ((s.ruleSt r).state = 3 → ((ackRule s r).ruleSt r).state = 0) ∧
    ((s.ruleSt r).state ≠ 1 → (s.ruleSt r).state ≠ 3 → ackRule s r = s)) ∧
  ∀ (s : State), s.wl.sysAlarm = true →
    (s.flt.lossAt ≠ some (s.stamp 1) → (ackSysAlarm s).wl.sysAlarm = false ∧ (ackSysAlarm s).wl.gen = (s.wl.gen + 1) % 65536) ∧
    (s.flt.lossAt = some (s.stamp 1) → s.wl.frozen = false → (ackSysAlarm s).wl.sysAlarm = true)

/-- The tones that sound are those of R285; an unacknowledged alarm plays its haptic effect again every 2 s; STANDBY
(R285, R286, R287, R288, R578, R579, R630). Where a clause goes beyond the rules it is the model's choice: log 60,
120, 174. -/
def Obligations.TonesAndHapticAlarmsFollowTheRules : Prop :=
  (∀ (s : State) (t : Time), s.watchUp = true → s.wl.running = true →
    (max s.dt t % 1000000 = 0 → ∃ s', exec (.toneChange t) s = .next s' ∧
      (∀ n, n < 4 → (look s'.wl.tones n {}).on = (s.at t).tonesDue n) ∧
      s' = { s.at t with wl := { s.wl with tones := s'.wl.tones } }) ∧
    (max s.dt t % 1000000 ≠ 0 → exec (.toneChange t) s = .next (s.at t))) ∧
  (∀ (s : State) (t : Time) (r : Fin 128) (rule : AlarmRule), s.ruleOf r = some rule → s.watchUp = true → s.wl.running = true →
    (s.ruleSt r).state = 1 → rule.effect.val ≠ 0 → (s.ruleSt r).played + 2000000000 ≤ max s.dt t →
    exec (.hapticAlarmRepeat t r) s =
      .next (hapticAlarm ((s.at t).modRule r fun x => { x with played := max s.dt t }) rule.channel rule.effect)) ∧
  ∀ (s : State) (t : Time) (fn : Fin 64) (w : Word), s.guestOpen fn = true →
    (w.getLsbD 0 = true → exec (.wlStandby t fn w) s = .next (enterStandby (s.at t)) ∧
      (s.pwr.device = 2 → s.pwr.shut = false → s.boot.loadAt ≠ none → s.pwr.wakeEvt ≠ some (max s.dt t) →
        let s' := enterStandby (s.at t)
        s'.pwr.device = 1 ∧ s'.wl.running = false ∧ s'.wl.tones = [] ∧ s'.wl.almout = false ∧ s'.fns = [] ∧ s'.queues = [] ∧
          s'.flights = [] ∧ s'.lan.life = s.lan.life ∧ s'.img = s.img)) ∧
    (w.getLsbD 0 = false → exec (.wlStandby t fn w) s = .next (s.at t))

/-- COPY, SPARSE_BIND and PIPELINE do their work and complete; a submission joins the queue of its context (R299, R304,
R313, R315, R316, R317, R318, R319, R350, R366). Where a clause goes beyond the rules it is the model's choice: log
12, 80, 149. -/
def Obligations.ChandelierCommandsRun : Prop :=
  (∀ (s : State) (t : Time) (c : Cmd), (s.at t).runs specCopy c = true →
    let s1 := (s.at t).launched specCopy c
    let fill := c.b 15 0
    let rs := if fill then [] else [(c.d 10, c.w 14)]
    let ws := [(c.d 12, c.w 14)]
    let s2 := afterReads s1 c.fn rs
    let data := if fill then (List.replicate (c.w 14 / 4) (leBytes 4 (c.w 10))).flatten else chdBytes s2 c.fn (c.d 10) (c.w 14)
    let lost := (rs ++ ws).any fun r => s1.touchesLost c.fn r.1 r.2
    let stall := fun (s : State) => ((rs ++ ws).filterMap fun r => s.stallAt c.fn r.1 r.2).head?
    (lost = false → stall s1 = none → stall s2 = none → exec (.copy t c) s =
      .next (complete (memWrite (writeBack s2) c.fn (c.d 12) data) s.nextId stOk [0, 0, 0, 0])) ∧
    (lost = true → exec (.copy t c) s = .next (complete s1 s.nextId stPartLost [0, 0, 0, 0])) ∧
    (∀ ch, lost = false → stall s1 = some ch → exec (.copy t c) s = .next (waitChan s1 s.nextId ch)) ∧
    (∀ ch, lost = false → stall s1 = none → stall s2 = some ch → exec (.copy t c) s = .next (waitChan s2 s.nextId ch))) ∧
  (∀ (s : State) (t : Time) (c : Cmd), (s.at t).runs specSparse c = true →
    let s1 := (s.at t).launched specSparse c
    let list := [(c.d 16, 16 * c.w 18)]
    let s2 := afterReads s1 c.fn list
    let es := (List.range (c.w 18)).map (bindEntry s2 c.fn (c.d 16))
    let bad := es.any fun e => e.2.1 && (e.2.2 % 65536 ≠ 0 || !s2.inMem c.fn e.2.2 65536)
    let maps := es.map fun (e : Nat × Bool × Nat) => (c.d 12 + e.1 / 8, 1)
    let s3 := afterReads s2 c.fn maps
    served s1 c.fn list [] →
    (bad = true → exec (.sparseBind t c) s = .next (complete s2 s.nextId stMalformed [0, 0, 0, 0])) ∧
    (bad = false → served s2 c.fn maps (es.map fun (e : Nat × Bool × Nat) => (c.d 10 + 8 * e.1, 8)) →
      exec (.sparseBind t c) s =
        .next (complete (es.foldl (bindPage c.fn (c.d 10) (c.d 12)) (writeBack s3)) s.nextId stOk [0, 0, 0, 0]))) ∧
  (∀ (s : State) (t : Time) (c : Cmd), (s.at t).runs specPipeline c = true →
    let s1 := (s.at t).launched specPipeline c
    let s2 := afterReads s1 c.fn [(c.d 11, c.w 13)]
    let bytes := memRead s2 c.fn (c.d 11) (c.w 13)
    let same := fun (p : Pipeline) => p.fn = c.fn.val && p.digest = Config.sha384 bytes && p.dying = []
    let live := served s1 c.fn [(c.d 11, c.w 13)] []
    let users := (s1.ctxsOf c.fn).filterMap fun k => if ((s1.ctx k).state = 3 ∨ (s1.ctx k).state = 4) ∧
      (s1.ctx k).bound.contains (c.d 11) = true then (s1.ctx k).queue.head? else none
    let doomed := if users = [] then s1.chand.pipes.filter fun p => p.handle ≠ c.d 11
      else s1.chand.pipes.map fun p => if p.handle = c.d 11 then { p with dying := users } else p
    (c.b 10 0 = true → s1.ownsPipe c.fn (c.d 11) = false →
      exec (.pipelineCompile t c) s = .next (complete s1 s.nextId stMalformed [0, 0, 0, 0])) ∧
    (c.b 10 0 = true → s1.ownsPipe c.fn (c.d 11) = true → exec (.pipelineCompile t c) s =
      .next (complete (s1.modChand fun d => { d with pipes := doomed }) s.nextId stOk [0, 0, 0, 0])) ∧
    (∀ p, c.b 10 0 = false → live → s2.chand.pipes.find? same = some p → ∃ s3 n, exec (.pipelineCompile t c) s =
      .next (complete s3 s.nextId stOk [p.handle % 2 ^ 32, p.handle / 2 ^ 32 % 2 ^ 32, 1, n]) ∧ s3 = { s2 with draws := s3.draws }) ∧
    (c.b 10 0 = false → live → s2.chand.pipes.find? same = none → exec (.pipelineCompile t c) s = .next (
      match failingStage bytes with
      | some k => complete s2 s.nextId stMalformed [0, 0, k % 256 * 256, 0]
      | none =>
        if Config.codeSize bytes + s2.chand.pipes.foldl (fun m p => m + p.size) 0 ≤ 268435456 then
          complete (s2.modChand fun d => { d with nextH := d.nextH + 1, pipes := d.pipes ++
            [{ handle := s2.chand.nextH, fn := c.fn, digest := Config.sha384 bytes, size := Config.codeSize bytes }] }).drawn
            s.nextId stOk [s2.chand.nextH % 2 ^ 32, s2.chand.nextH / 2 ^ 32 % 2 ^ 32, 0, s2.free % 2 ^ 32]
        else complete s2 s.nextId stNoResource [0, 0, 0, 0]))) ∧
  ∀ (s : State) (t : Time) (c : Cmd) (k : Nat),
    ((s.at t).runs specGfxSubmit c = true → s.hwCtx c.fn (c.f 10 0 6) = some k →
      let s1 := (s.at t).launched specGfxSubmit c
      let s2 := s1.modCtx k fun x => { x with
        queue := x.queue ++ [s.nextId], dls := x.dls ++ ((s1.deadline c (max s.dt t)).map fun d => (s.nextId, d)).toList }
      exec (.gfxSubmit t c) s = .next (kickChandelier s2)) ∧
    ((s.at t).runs specComputeSubmit c = true → s.hwCtx c.fn (c.f 10 0 6) = some k →
      let s1 := (s.at t).launched specComputeSubmit c
      let s2 := s1.modCtx k fun x => { x with
        queue := x.queue ++ [s.nextId], dls := x.dls ++ ((s1.deadline c (max s.dt t)).map fun d => (s.nextId, d)).toList }
      exec (.computeSubmit t c) s = .next (kickChandelier s2)) ∧
    (∀ n, ((s.ctx k).state = 3 ∨ (s.ctx k).state = 4) → beginCtx n s k = s)

/-- Submissions end, wait in memory and give way to deadlines; windows account shares (R299, R303, R307, R322, R326,
R328, R329, R330). Where a clause goes beyond the rules it is the model's choice: log 76, 77, 79, 170, 171. -/
def Obligations.SubmissionsEndWaitAndYield : Prop :=
  (∀ (s : State) (t : Time) (ctx : Fin 64),
    (∀ f id r, (s.at t).subDone ctx = true → (s.ctx ctx).queue = id :: r → s.flight? id = some f →
      ((s.at t).backStall = none → ∃ s', exec (.submissionComplete t ctx) s = .next s' ∧ ∀ g ∈ s'.flights, g.id ≠ id) ∧
      (∀ k, (s.at t).backStall = some k → exec (.submissionComplete t ctx) s =
        .next (waitChan ((s.at t).modCtx ctx fun x => { x with stall := some k }) id k))) ∧
    ((s.at t).subDone ctx = false → exec (.submissionComplete t ctx) s = .next (s.at t))) ∧
  (∀ (s : State) (t : Time) (ctx : Fin 64) (w : WaitMem), (s.ctx ctx).wait = some w → s.chdUp = true → (s.ctx ctx).state = 3 →
    (s.waitMatch (s.ctx ctx).fn w = true → ∃ s', exec (.waitMemMatch t ctx) s = .next s' ∧
      s' = kickChandelier ((s.at t).modCtx ctx fun x => { x with wait := none })) ∧
    (s.waitMatch (s.ctx ctx).fn w = false → exec (.waitMemMatch t ctx) s = .next (s.at t)) ∧
    (∀ l, s.waitMatch (s.ctx ctx).fn w = false → w.limit = some l → l ≤ max s.dt t →
      exec (.waitMemTimeout t ctx) s = .next (endSubmission (s.at t) ctx stTimedOut)) ∧
    (s.waitMatch (s.ctx ctx).fn w = true → exec (.waitMemTimeout t ctx) s = .next (s.at t))) ∧
  (∀ (s : State) (t : Time), max s.dt t % 1000000 = 0 → s.chdUp = true → ∃ s', exec (.shareWindow t) s = .next s' ∧
    let s1 := book (s.at t)
    s'.chand.window = max s.dt t ∧ ∀ f, f < 64 → look s'.chand.budget f ((s.fnc f).grant.chdShare * 500000) =
      (s.fnc f).grant.chdShare * 500000 + min (look s1.chand.taken f 0) (s1.budgetOf f - look s1.chand.used f 0)) ∧
  (∀ (s : State) (t : Time), max s.dt t % 1000 = 0 → s.chdUp = true →
    (∃ s', exec (.deadlineEvaluation t) s = .next s' ∧ s' = kickChandelier (rebalance (preemptShort (book (s.at t))))) ∧
    ((∀ c, (book (s.at t)).short c = false) → preemptShort (book (s.at t)) = book (s.at t))) ∧
  (∀ (s : State) (c : Nat) (ts : List Nat), ts ≠ [] →
    let s1 := preempt s c ts
    (∀ k, s1.taper k = if k ∈ ts then { s.taper k with saving := true } else s.taper k) ∧
    (s1.ctx c).preempts = (s.ctx c).preempts + 1 ∧ (s1.ctx c).owed = (s.ctx c).owed + ts.length ∧
    (s1.ctx c).state = (if s1.running c = [] then 4 else (s.ctx c).state) ∧ (∀ k, k ≠ c → s1.ctx k = s.ctx k) ∧
    s1.chand.preempts = (if s.perfHeld 6 then s.chand.preempts
      else if s.chand.preempts < 0xFFFFFFFF then s.chand.preempts + 1 else s.chand.preempts)) ∧
  (∀ (s : State) (t : Time) (ctx : Fin 64) (k : Nat), s.chdUp = true → k ∈ s.tapersOf ctx → (s.taper k).saving = true →
    s.saveStall ctx = false → exec (.preemptSaveDone t ctx) s = .next (kickChandelier (saveDone (book (s.at t)) ctx))) ∧
  ∀ (s : State) (c k : Nat), k ∈ s.tapersOf c → (s.taper k).saving = true → (saveDone s c).taper k = {}

/-- Training, tracking, refresh, row closing, the command a bank issues, and the freeze of a channel (R337, R339, R342,
R352, R353, R354, R355, R360, R605). Where a clause goes beyond the rules it is the model's choice: log 81, 82, 84,
172. -/
def Obligations.ChannelsTrainRefreshAndFreeze : Prop :=
  (∀ (s : State) (t : Time) (ch : Fin 8) (r : TrainResult), s.up (memIsl ch) = true → (s.chan ch).state = 1 →
    (s.chan ch).sweep = true → (s.boot.memcfg = true → s.flt.coresUp = true) → s.mem.waits = [] →
    let rd := sweeps s.boot.memcfg r.rd
    let wr := sweeps s.boot.memcfg r.wr
    let good := r.step2 = true ∧ (s.boot.memcfg = true → r.comparator = true) ∧ 32 ≤ (narrowest rd).1 ∧ 32 ≤ (narrowest wr).1
    (good → ∃ s', exec (.channelTrainingDone t ch r) s = .next s' ∧
      s'.chan ch = { trainRegs (s.chan ch) ch s.boot.memcfg r with state := 2 } ∧ ∀ c, c ≠ ch.val → s'.chan c = s.chan c) ∧
    (¬good → ∃ s', exec (.channelTrainingDone t ch r) s = .next s' ∧ (s'.chan ch).state = 5)) ∧
  (∀ (pass : BitVec 256) (a n : Nat),
    (∀ i, (eyeOf pass).2 ≤ i → i < (eyeOf pass).2 + (eyeOf pass).1 → pass.getLsbD i = true) ∧
    ((∀ i, i < n → pass.getLsbD (a + i) = true) → n ≤ (eyeOf pass).1)) ∧
  (∀ (s : State) (t : Time) (ch : Fin 8) (rd wr : Vector (Fin 256) 4), s.up (memIsl ch) = true → (s.chan ch).state = 2 →
    exec (.wckOscTrack t ch rd wr) s = .next ((s.at t).modChan ch fun x =>
      { x with pendRd := moveTaps x.rd rd, pendWr := moveTaps x.wr wr })) ∧
  (∀ old new : Nat, moveTap old new ≤ old + 2 ∧ old ≤ moveTap old new + 2 ∧ (old ≤ new + 2 → new ≤ old + 2 → moveTap old new = new)) ∧
  (∀ (s : State) (t : Time) (ch : Fin 8) (b : Fin 16) (postpone : Bool), s.up (memIsl ch) = true →
    ((s.chan ch).state = 2 ∨ (s.chan ch).state = 3) →
    let k := (s.chan ch).bank b
    (postpone = true → k.owed < 8 → k.queue ≠ [] →
      exec (.bankRefresh t ch b postpone) s = .next ((s.at t).modBank ch b fun k => { k with owed := k.owed + 1 })) ∧
    ((postpone = false ∨ 8 ≤ k.owed ∨ k.queue = []) → exec (.bankRefresh t ch b postpone) s =
      .next (((s.at t).modBank ch b fun k => { k.close with owed := 0 }).modChan ch fun x => { x with
        rd := if x.pendRd = [] then x.rd else x.pendRd, wr := if x.pendWr = [] then x.wr else x.pendWr
        pendRd := [], pendWr := [] }))) ∧
  (∀ (s : State) (t : Time) (ch : Fin 8) (b : Fin 16), s.up (memIsl ch) = true → (s.chan ch).state = 2 →
    ((s.chan ch).bank b).kept = true → ((s.chan ch).bank b).lastAt + s.pageIdle ≤ max s.dt t →
    exec (.pageIdleClose t ch b) s = .next ((s.at t).modBank ch b Bank.close)) ∧
  (∀ (s : State) (k : Bank) (oldest : MemReq) (r : List MemReq), k.queue = oldest :: r →
    (∀ hit, k.queue.find? (fun e => k.row = some e.row) = some hit → s.dt - oldest.issue < s.ageCap → k.hits < s.hitCap →
      s.pickReq k = some (hit, true)) ∧
    (((∀ e ∈ k.queue, k.row ≠ some e.row) ∨ s.ageCap ≤ s.dt - oldest.issue ∨ s.hitCap ≤ k.hits) →
      s.pickReq k = some (oldest, false))) ∧
  (∀ (s : State) (t : Time) (ch : Fin 8) (arrivals : List MemReq) (ready : Fin 65536) (b : Nat) (r : MemReq) (hit : Bool) (s3 : State),
    s.up (memIsl ch) = true → (s.chan ch).state = 2 →
    let s1 := (s.at t).modMem fun m => { m with reqs := m.reqs ++ arrivals.map fun r => (r, (s.at t).fabEnd r.issue) }
    let s2 := s1.mem.reqs.foldl (fillQueues ch) s1
    s2.pickBank ch ready = some b → s2.pickReq ((s2.chan ch).bank b) = some (r, hit) →
    (dataPath s2 ch r ((s2.chan ch).bank b).queue = (s3, none) → exec (.controllerCycle t ch arrivals ready) s =
      .next (((s3.modMem fun m => { m with reqs := m.reqs.filter fun e => e.1.id ≠ r.id }).modBank ch b
        fun k => k.issued r hit (max s.dt t)).modChan ch fun x => { x with last := b }))) ∧
  ∀ (s : State) (t : Time) (ch : Fin 8) (r : MemReq), s.up (memIsl ch) = true → (s.chan ch).state = 2 →
    ∃ s', exec (.channelFreeze t ch r) s = .next s' ∧ (s'.chan ch).state = 3 ∧ (s'.chan ch).frzAddr = r.addr / 8 * 8 ∧
      (s'.chan ch).frzSrc = r.source % 256 ∧ (s'.chan ch).frzSec = r.secure ∧ (s'.chan ch).frzBank = r.bank.val ∧
      (s'.chan ch).frozeAt = max s.dt t ∧ (s'.chan ch).banks = (s.chan ch).banks ∧ s'.mem.dram = s.mem.dram ∧
      ∀ c, c ≠ ch.val → s'.chan c = s.chan c

/-- Recovery, timeouts, lost lines and partitions, and scrubs of a channel (R350, R351, R361, R363, R367, R369, R371,
R372, R373, R533). Where a clause goes beyond the rules it is the model's choice: log 83, 85, 86, 88, 141, 169. -/
def Obligations.ChannelsRecoverAndLosePartitions : Prop :=
  (∀ (s : State) (t : Time) (fn : Fin 64) (ch : Fin 8) (w : Word), s.groupOpen fn 2 (memIsl ch) = true → w.getLsbD 0 = true →
    ((s.chan ch).state = 3 → s.heldBack fn (0x10 + ch) = false → exec (.chRecover t fn ch w) s = .next (startRecovery (s.at t) ch)) ∧
    ((s.chan ch).state = 3 → s.heldBack fn (0x10 + ch) = true → exec (.chRecover t fn ch w) s = .next (countRefused (s.at t) fn)) ∧
    ((s.chan ch).state ≠ 3 → exec (.chRecover t fn ch w) s = .next (s.at t))) ∧
  (∀ (s : State) (t : Time) (ch : Fin 8) (im : Image), s.img = some im → s.watchUp = true → s.up (memIsl ch) = true →
    (s.chan ch).state = 3 → im.autoRecoverMs ≠ 0 → (s.chan ch).frozeAt + im.autoRecoverMs * 1000000 ≤ max s.dt t →
    exec (.autoRecoverExpiry t ch) s = .next (startRecovery (s.at t) ch)) ∧
  (∀ (s : State) (ch : Nat), ((startRecovery s ch).chan ch).state = 4 ∧ ((startRecovery s ch).chan ch).sweep = true ∧
    ((startRecovery s ch).chan ch).scrub = none ∧ ((startRecovery s ch).chan ch).banks = [] ∧
    (∀ e ∈ (startRecovery s ch).mem.reqs, e.1.addr / 2 ^ 34 ≠ ch) ∧ ∀ w ∈ s.mem.waits, w.chan = ch → (startRecovery s ch).flight? w.flight = none) ∧
  (∀ (s : State) (t : Time) (req : Nat), s.up 3 = true → (∀ w ∈ s.mem.waits, w.flight ≠ req ∧ (s.chan w.chan).state ≠ 2) →
    ∃ s', exec (.fabricTimeout t req) s = .next s' ∧
    s'.mem.reqs = s.mem.reqs.filter fun e => !(decide (e.1.id = req) && decide (e.2 ≤ max s.dt t))) ∧
  (∀ (s : State) (t : Time) (line : Nat), s.up 3 = true → line / 2 ^ 27 < 8 →
    let s1 := (s.at t).modMem fun m => { m with lines := dropKeys m.lines (· = line) }
    (look s.mem.lines line false = false → exec (.cacheLineLost t line) s = .next (report s1 3 0x01)) ∧
    (∀ p, look s.mem.lines line false = true → s.partAt (128 * line) = some p → exec (.cacheLineLost t line) s =
      .next (report (loseParts s1 [p] (fun _ => line / 2 ^ 27) true) 3 0x10))) ∧
  (∀ (s : State) (t : Time) (fn : Fin 64) (w : Word),
    let p := fld w 0 4
    s.groupOpen fn 2 3 = true → (s.part p).state = 3 → (s.part p).creator = fn.val → (s.part p).holder = fn.val →
    ((s.part p).filling = false → (s.part p).unfill = false →
      exec (.mpLostClr t fn w) s = .next ((s.at t).modPart p fun x => { x with state := 2 })) ∧
    ((s.part p).filling = true →
      exec (.mpLostClr t fn w) s = .next ((s.at t).modPart p fun x => { x with state := 1, after := 2 }))) ∧
  (∀ (s : State) (t : Time) (fn : Fin 64), s.groupOpen fn 1 3 = true →
    let c := s.fab.scrAddr / 2 ^ 34
    (scrubRangeOk s.fab.scrAddr s.fab.scrLen = true → (s.chan c).scrub = none → exec (.scrubStart t fn) s =
      .next (((s.at t).modFab fun k => { k with scrRef := false, scrBusy := true }).modChan c fun k => { k with
        scrub := some { flight := none, addr := s.fab.scrAddr, len := s.fab.scrLen, start := max s.dt t, host := 0,
                          rate := s.scrubRate, limit := if k.state = 3 then some (s.at t).fabLimit else none } })) ∧
    ((scrubRangeOk s.fab.scrAddr s.fab.scrLen = false ∨ (s.chan c).scrub ≠ none) →
      exec (.scrubStart t fn) s = .next ((s.at t).modFab fun k => { k with scrRef := true }))) ∧
  (∀ (s : State) (t : Time) (ch : Fin 8) (x : Scrub), (s.chan ch).scrub = some x → s.up 3 = true → x.limit = none →
    x.start + 8 * s.examined ch (x.addr % 2 ^ 34) x.len * 1000 / x.rate ≤ max s.dt t →
    ∃ s', exec (.scrubDone t ch) s = .next s' ∧ s' = endScrub (s.at t) ch x.len stOk ∧
    (x.flight = none → (s.chan ch).waitScrub = [] → (s'.chan ch).scrub = none ∧ s'.fab.scrBusy = false ∧ s'.mem.dram = s.mem.dram ∧
      s'.fab.scrSum = (((s.at t).scrubSummary ch x x.len stOk).zipIdx).map fun e => (e.2, e.1))) ∧
  ∀ (s : State) (t : Time) (fn : Fin 64) (ch : Fin 8), fn.val < 2 → s.reach fn = true → s.up (memIsl ch) = true →
    exec (.frzQdataRead t fn ch) s = .next (((s.at t).modChan ch fun x => { x with qidx := (x.qidx + 1) % 128 }).emit
      (.readData fn (look (s.chan ch).qdump (s.chan ch).qidx 0)))

/-- A target grants the requesting port of highest priority, a tie upward from the last owner's index + 1 (R375). -/
def Obligations.ArbitrationGrantsTheHighestPriority : Prop :=
  ∀ (s : State) (t : Time) (target : Fin 6) (requests : Fin 65536), s.up 3 = true →
    let x := s.target target
    let req := requests.val &&& 0xFFCF
    let steps := fun p => (p + 15 - x.owner % 16) % 16
    (2 ≤ target.val ∨ ((s.at t).slotNow target).testBit 7 = false) → x.owner < 16 →
    (req ≠ 0 → ∃ p, p < 16 ∧ req.testBit p = true ∧
      (∀ q, q < 16 → req.testBit q = true → x.prio q < x.prio p ∨ (x.prio q = x.prio p ∧ steps p ≤ steps q)) ∧
      exec (.arbitrationDecision t target requests) s =
        .next ((s.at t).modTarget target fun x => { x with owner := p, busy := true, since := max s.dt t, held := x.limit })) ∧
    (req = 0 → exec (.arbitrationDecision t target requests) s =
      .next ((s.at t).modTarget target fun x => { x with busy := false }))

/-- Hardware locks, slot tables and snuffers: acquire, release, TORN, commit, round boundary, bite (R378, R379, R380,
R381, R383, R384, R520, R546, R547, R550). Where a clause goes beyond the rules it is the model's choice: log 87. -/
def Obligations.LocksSlotsAndSnuffers : Prop :=
  (∀ (s : State) (t : Time) (ini : Fin 128) (path : LockPath) (n : Fin 64), s.canRead ini 3 = true →
    let secure : Bool := path = .secure
    (path = .window → ini.val < 2 → s.mayWrite ini 1 = false →
      exec (.hlRelease t ini path n) s = .next (s.at t).dropGroup ∧
      exec (.hlTornClear t ini path n) s = .next (s.at t).dropGroup) ∧
    ((path = .window → ini.val < 2 → s.mayWrite ini 1 = true) → (s.lockShut ini secure n = true →
      exec (.hlAcquire t ini secure n) s = .next ((worldViolation (s.at t) 3 ini).emit (.readData ini 0)) ∧
      exec (.hlRelease t ini path n) s = .next (worldViolation (s.at t) 3 ini) ∧
      exec (.hlTornClear t ini path n) s = .next (worldViolation (s.at t) 3 ini)) ∧
    (s.lockShut ini secure n = false →
      let dropped := Host.Outcome.next (φ := Fault) (ρ := Refusal) ((s.at t).modFab fun f => { f with lockDrop := f.lockDrop + 1 })
      let mine := (s.lock n).held = true ∧ (s.lock n).owner = ini.val
      ((s.lock n).held = false → ∃ v, exec (.hlAcquire t ini secure n) s = .next (((s.at t).modLock n fun l =>
        { l with held := true, owner := ini.val, ownerS := s.lockWorld ini secure }).emit (.readData ini v)) ∧ v % 2 = 1) ∧
      ((s.lock n).held = true → ∃ v, exec (.hlAcquire t ini secure n) s = .next ((s.at t).emit (.readData ini v)) ∧
        (v % 2 = 1 ↔ (s.lock n).owner = ini.val)) ∧
      (mine → exec (.hlRelease t ini path n) s =
          .next ((s.at t).modLock n fun l => { l with held := false, owner := 0, ownerS := false }) ∧
        exec (.hlTornClear t ini path n) s = .next ((s.at t).modLock n fun l => { l with torn := false })) ∧
      (¬mine → exec (.hlRelease t ini path n) s = dropped ∧ exec (.hlTornClear t ini path n) s = dropped)))) ∧
  (∀ (s : State) (t : Time) (target : Fin 6) (requests : Fin 65536), s.up 3 = true → target.val < 2 →
    let e := (s.at t).slotNow target
    e.testBit 7 = true → (requests.val &&& 0xFFCF).testBit (e % 16) = true → exec (.arbitrationDecision t target requests) s =
      .next ((s.at t).modTarget target fun x => { x with
        owner := e % 16, busy := true, since := max s.dt t, held := x.limit })) ∧
  (∀ (s : State) (t : Time) (fn : Fin 64) (i : Fin 2), s.groupOpen fn 1 3 = true →
    exec (.slotCommit t fn i) s = .next ((s.at t).modSlotTab i fun x => { x with commit := true })) ∧
  (∀ (s : State) (t : Time) (i : Fin 2), s.up 3 = true → (s.slotTab i).origin + 64 * slotLen (s.slotTab i).nsA ≤ max s.dt t →
    exec (.slotRoundBoundary t i) s = .next ((s.at t).modSlotTab i fun x => { x with
      rounds := (x.rounds + 1) % 65536, origin := max s.dt t, commit := false
      active := if x.commit then x.shadow else x.active, nsA := if x.commit then x.slotNs else x.nsA })) ∧
  ∀ (s : State) (t : Time) (target : Fin 6),
    let x := s.target target
    let n := if x.bites < 0xFFFFFFF then x.bites + 1 else x.bites
    let s1 := (s.at t).modTarget target fun x => { x with busy := false, bites := n, port := x.owner }
    (s.up 3 = true → x.busy = true → x.since + x.hold ≤ max s.dt t → exec (.snufferBite t target) s =
      .next (sendManagers (report (endPort s1 x.owner) x.owner 0x05) 3 0x0F83 target x.owner n)) ∧
    ((x.busy = false ∨ max s.dt t < x.since + x.hold) → exec (.snufferBite t target) s = .next (s.at t))

/-- Camera packets, frames, lines, signal loss and CAMERA_BIND (R388, R389, R390, R391, R393, R395, R396, R397, R398).
Where a clause goes beyond the rules it is the model's choice: log 91, 92, 168. -/
def Obligations.CamerasCheckCountAndBind : Prop :=
  (∀ (s : State) (t : Time) (port : Fin 8) (hd : CsiHeader), s.up 12 = true → (s.csi port).active = true →
    (hd.eccDouble = true → exec (.csiPacket t port hd) s =
      .next ((s.at t).modCsi port fun x => { x with ecc := if x.ecc < 0xFF then x.ecc + 1 else x.ecc })) ∧
    (hd.eccDouble = false → hd.eccSingle = false → (s.csi port).hears hd.vc = false → exec (.csiPacket t port hd) s =
      .next ((s.at t).modCsi port fun x => { x with other := if x.other < 0xFF then x.other + 1 else x.other })) ∧
    (hd.eccDouble = false → hd.eccSingle = false → (s.csi port).hears hd.vc = true → hd.dtype.val < 4 →
      exec (.csiPacket t port hd) s = .next (s.at t)) ∧
    (hd.eccDouble = false → hd.eccSingle = true → (s.csi port).hears hd.vc = true → hd.dtype.val < 4 →
      exec (.csiPacket t port hd) s = .next (countCorrected ((s.at t).modCsi port fun x => { x with corr := x.corr + 1 }) 12))) ∧
  (∀ (s : State) (t : Time) (port : Fin 8) (dtype : Fin 64), s.up 12 = true → (s.csi port).active = true →
    ∃ s1, (∀ p, p ≠ port.val → s1.csi p = s.csi p) ∧
      (s1.csi port).signal = true ∧ (s1.csi port).starts = (s.csi port).starts + 1 ∧ (s1.csi port).inFrame = true ∧ (s1.csi port).line = 0 ∧
      (s1.csi port).dtype = dtype.val ∧ (s1.csi port).frames = ((s.csi port).frames + 1) % 65536 ∧
      (s1.csi port).startDt = (s.at t).stamp 12 ∧ (s1.csi port).prevDt = (s.csi port).startDt ∧
      (s1.csi port).mem = (((s.csi port).pendMem.getD (s.csi port).mem).filter fun b => !s.bindEnds port b) ∧
      (s1.csi port).ring = (((s.csi port).pendRing.getD (s.csi port).ring).filter fun b => !s.bindEnds port b) ∧
      (s1.csi port).pendMem = none ∧ (s1.csi port).pendRing = none ∧
      s1 = { s.at t with media := { s.media with csi := s1.media.csi } } ∧
      (s1.csi port).size = (if misfit dtype (s1.csi port).mem || misfit dtype (s1.csi port).ring then satInc (s.csi port).size 0xFF
        else (s.csi port).size) ∧
      exec (.csiFrameStart t port dtype) s = .next (camReturns (if (s.csi port).signal then s1
        else signalEvent s1 port (s1.csi port) 0 (((s.csi port).frames + 1) % 65536)) port)) ∧
  (∀ (s : State) (t : Time) (port : Fin 8) (px : List Byte), s.up 12 = true → (s.csi port).inFrame = true →
    imageType (s.csi port).dtype = true →
    (exec (.csiLine t port false px) s = .next ((s.at t).modCsi port fun x => { x with
      line := x.line + 1, crc := if x.crc < 0xFF then x.crc + 1 else x.crc })) ∧
    ((s.csi port).mem = none → (s.csi port).ring = none → exec (.csiLine t port true px) s =
      .next ((s.at t).modCsi port fun x => { x with line := x.line + 1 })) ∧
    (∀ b, (s.csi port).mem = some b → (s.csi port).ring = none → (s.csi port).line < b.height →
      fmtSuits (s.csi port).dtype b.fmt = true → exec (.csiLine t port true px) s =
      .next (memWrite ((s.at t).modCsi port fun x => { x with line := x.line + 1 }) b.fn
        (b.base + b.frame % b.bufs * b.pitch * b.height + (s.csi port).line * b.pitch) (bindLine (s.csi port) b px))) ∧
    (∀ b, (s.csi port).mem = none → (s.csi port).ring = some b → (s.csi port).line < b.height →
      fmtSuits (s.csi port).dtype b.fmt = true →
      let s1 := (s.at t).modCsi port fun x => { x with line := x.line + 1 }
      let r : RingLine := { src := (s.csi port).line, frame := (s.csi port).startDt, done := max s.dt t + (s.at t).free % 401, bytes := bindLine (s.csi port) b px }
      exec (.csiLine t port true px) s =
        .next ({ s1 with media := { s1.media with rings := put s.media.rings (64 * b.ring + (s.csi port).line % 64) r } }).drawn)) ∧
  (∀ (s : State) (t : Time) (port : Fin 8), s.up 12 = true → (s.csi port).inFrame = true →
    let wrong := fun (o : Option Bind) => o.any fun b => b.height ≠ (s.csi port).line
    let s1 := (s.at t).modCsi port fun x => { x with
      inFrame := false
      mem := x.mem.map fun b => { b with frame := b.frame + 1 }
      ring := x.ring.map fun b => { b with frame := b.frame + 1 }
      size := if (wrong x.mem || wrong x.ring) = true ∧ x.size < 0xFF then x.size + 1 else x.size }
    ((∀ b, (s.csi port).mem = some b → b.fence = none) → exec (.csiFrameDone t port) s = .next s1) ∧
    (∀ b n, (s.csi port).mem = some b → b.fence = some n →
      exec (.csiFrameDone t port) s = .next (signalFence s1 b.fn n (b.frame + 1)))) ∧
  (∀ (s : State) (t : Time) (port : Fin 8), s.up 12 = true → (s.csi port).signal = true →
    (s.csi port).startDt + 200000000 ≤ max s.dt t → exec (.csiSignalLost t port) s =
      .next (signalEvent ((s.at t).modCsi port fun x => { x with signal := false }) port (s.csi port) 1 (s.csi port).frames)) ∧
  (∀ (s : State) (port : Nat) (x : Csi) (lost frames : Nat), (x.mem = none → x.ring = none → signalEvent s port x lost frames = s) ∧
    ∀ b, x.mem = some b → (x.ring = none ∨ x.ring.map (·.fn) = some b.fn) →
      signalEvent s port x lost frames = sendEvent s 12 b.fn 0x0382 port lost frames) ∧
  ∀ (s : State) (t : Time) (c : Cmd), (s.at t).runs specCameraBind c = true →
    let b := if cbEnable c then some (bindOf c) else none
    exec (.cameraBind t c) s = .next (complete (((s.at t).launched specCameraBind c).modCsi (cbPort c) fun x =>
      if cbRing c then { x with pendRing := some b } else { x with pendMem := some b }) s.nextId stOk [0, 0, 0, 0])

/-- Codec sessions: decode, pictures, encode and slices (R399, R400, R402, R403, R405, R406, R407, R350). Where a clause
goes beyond the rules it is the model's choice: log 93, 94, 95, 168. -/
def Obligations.CodecSessionsOpenRunAndClose : Prop :=
  (∀ (s : State) (t : Time) (c : Cmd), (s.at t).runs specDecode c = true →
    let s0 := (s.at t).launched specDecode c
    let s1 := readRange s0 c.fn (c.d 11) (c.f 13 0 24)
    let k := sessKey c.fn (c.f 10 0 4) false
    s0.touchesLost c.fn (c.d 11) (c.f 13 0 24) = false → s0.stallAt c.fn (c.d 11) (c.f 13 0 24) = none →
    s1.stallAt c.fn (c.d 11) (c.f 13 0 24) = none →
    (mdInit c = true → mdEnd c = false → c.f 14 0 24 = 0 → 0 < c.f 19 0 5 →
      ∃ s', exec (.mediaDecode t c) s = .next (complete s' s.nextId stOk [0, 0, 0, 0]) ∧
        s'.session k = some { enc := false, codec := c.f 10 6 1, w := c.f 18 0 16, h := c.f 18 16 16, fps := c.f 19 8 8, area := c.d 16, slots := c.f 19 0 5, free := List.range (c.f 19 0 5), fmt := c.f 10 7 2, depth10 := c.b 19 5 } ∧
        (∀ j, j ≠ k → s'.session j = s.session j) ∧
        s' = { s1 with media := { s1.media with sessions := s'.media.sessions } }) ∧
    (∀ x, mdInit c = false → mdEnd c = false → c.f 14 0 24 = 0 → s.session k = some x → x.free = [] →
      ∃ s', exec (.mediaDecode t c) s = .next s' ∧ s'.session k = some { x with waiting := x.waiting ++ [s.nextId] } ∧
        (∀ j, j ≠ k → s'.session j = s.session j) ∧
        s' = ({ s1 with media := { s1.media with sessions := s'.media.sessions } }).modFlight s.nextId fun f => { f with holds := true }) ∧
    (∀ x, mdInit c = false → mdEnd c = false → c.f 14 0 24 = 0 → s.session k = some x → x.free ≠ [] →
      (∀ i ∈ x.free, i < x.slots) → x.waiting = [] →
      ∃ s', exec (.mediaDecode t c) s = .next (complete s' s.nextId stOk [0, 0, 0, 0]) ∧
        (∃ y, s'.session k = some y ∧ y = { x with free := y.free } ∧ ∀ i, i ∈ y.free ↔ i ∈ x.free) ∧
        (∀ j, j ≠ k → s'.session j = s.session j) ∧
        s' = { s1 with media := { s1.media with sessions := s'.media.sessions } })) ∧
  (∀ (s : State) (t : Time) (fn : Fin 64) (n : Fin 16) (concealed : Nat) (x : Session) (slot : Nat) (r : List Nat),
    s.up 12 = true → s.session (sessKey fn n false) = some x → x.free = slot :: r →
    ∃ px : List Byte, px.length = pictureBytes x.w x.h x.fmt ∧ exec (.mediaPicture t fn n concealed) s =
      .next (sendEvent ((memWrite (s.at t).drawn fn
          (x.area + 17 * refBytes x.w x.h x.depth10 + slot * slotBytes x.w x.h x.fmt) px).setSession (sessKey fn n false)
        { x with free := r, out := x.out + 1, concealed := x.concealed + b2n (concealed ≠ 0) }) 12 fn 0x0380
        (n + 2 ^ 8 * slot + 2 ^ 16 * b2n (concealed ≠ 0)) (x.out % 2 ^ 32) (concealed % 2 ^ 32))) ∧
  (∀ (s : State) (t : Time) (c : Cmd), (s.at t).runs specEncode c = true → mdEnd c = false → meCamera c = true →
    let s1 := (s.at t).launched specEncode c
    let k := sessKey c.fn (c.f 10 0 4) true
    (∀ x, mdInit c = false → s.session k = some x → exec (.mediaEncode t c) s =
      .next (complete (s1.setSession k { x with idrDue := x.idrDue || c.b 10 7 }) s.nextId stOk [0, 0, 0, 0])) ∧
    (mdInit c = true → ∃ s', exec (.mediaEncode t c) s = .next (complete s' s.nextId stOk [0, 0, 0, 0]) ∧
      s'.session k = some (encOf c) ∧ (∀ j, j ≠ k → s'.session j = s.session j) ∧
      s' = { s1 with media := { s1.media with sessions := s'.media.sessions } })) ∧
  ∀ (s : State) (t : Time) (fn : Fin 64) (n : Fin 16) (idr : Bool) (nal : List Byte) (x : Session),
    s.up 12 = true → s.session (sessKey fn n true) = some x →
    ((idr = false ∨ x.irPeriod = 0 ∨ x.idrDue = true) →
      (x.cbr = true → (x.coded + nal.length) * 8 * x.fps * 10 ≤ x.kbps * 1000 * 11) →
      0 < nal.length → x.ringPos + nal.length ≤ x.ringKib * 1024 → exec (.mediaSlice t fn n idr nal) s =
      .next (sendEvent ((memWrite (s.at t) fn (x.ring + x.ringPos) nal).setSession (sessKey fn n true)
        { x with
          ringPos := (x.ringPos + nal.length) % (x.ringKib * 1024), idrDue := x.idrDue && idr
          slice := if x.slices ≤ x.slice + 1 then 0 else x.slice + 1
          coded := if x.slices ≤ x.slice + 1 then 0 else x.coded + nal.length }) 12 fn 0x0381
        (n + 2 ^ 16 * b2n idr) (x.ringPos % 2 ^ 32) (nal.length % 2 ^ 32))) ∧
    ((idr = false ∨ x.irPeriod = 0 ∨ x.idrDue = true) →
      (x.cbr = true → (x.coded + nal.length) * 8 * x.fps * 10 ≤ x.kbps * 1000 * 11) →
      x.ringPos < x.ringKib * 1024 → x.ringKib * 1024 < x.ringPos + nal.length → nal.length ≤ x.ringKib * 1024 →
      let k := x.ringKib * 1024 - x.ringPos
      exec (.mediaSlice t fn n idr nal) s =
      .next (sendEvent ((memWrite (memWrite (s.at t) fn (x.ring + x.ringPos) (nal.take k)) fn x.ring (nal.drop k)).setSession
        (sessKey fn n true) { x with
          ringPos := (x.ringPos + nal.length) % (x.ringKib * 1024), idrDue := x.idrDue && idr
          slice := if x.slices ≤ x.slice + 1 then 0 else x.slice + 1
          coded := if x.slices ≤ x.slice + 1 then 0 else x.coded + nal.length }) 12 fn 0x0381
        (n + 2 ^ 16 * b2n idr) (x.ringPos % 2 ^ 32) (nal.length % 2 ^ 32))) ∧
    (x.cbr = true → x.kbps * 1000 * 11 < (x.coded + nal.length) * 8 * x.fps * 10 →
      exec (.mediaSlice t fn n idr nal) s = .next (s.at t)) ∧
    (idr = true → x.irPeriod ≠ 0 → x.idrDue = false → exec (.mediaSlice t fn n idr nal) s = .next (s.at t))

/-- Ethernet frames and links, gPTP domains, gate control lists, stream filters and SAKs (R36, R37, R38, R411, R414,
R415, R417, R419, R420, R423, R427, R428). Where a clause goes beyond the rules it is the model's choice: log 97,
98, 100, 101, 102, 167. -/
def Obligations.FramesFiltersGatesAndDomainsRun : Prop :=
  (∀ (s : State) (t : Time) (port : Fin 8) (f : EthFrame), s.up 13 = true → (s.eport port).link = true →
    let must := ∃ im, s.img = some im ∧ port.val ∈ im.macsecReq
    let bad := f.len < 64 ∨ 9216 < f.len ∨ f.fcsOk = false ∨ (f.macsec = true ∧ (f.macsecOk = false ∨ (s.eport port).macsec = false)) ∨ (f.macsec = false ∧ must)
    let fr : Frame := { port := port, len := f.len, dst := f.dst, vid := f.vid, pcp := f.pcp.val, rtag := f.rtag, payload := f.payload, stamp := (s.at t).stamp 13 }
    let dropped := (s.at t).modEport port fun x => { x with drops := if x.drops < 0xFFFF then x.drops + 1 else x.drops }
    (bad → exec (.ethFrameRx t port f) s = .next dropped) ∧
    (∀ i x, s.filterFor fr = some (i, x) → (filterHits x fr = true ∧ (i, x) ∈ s.net.filters ∧
        ∀ j y, (j, y) ∈ s.net.filters → filterHits y fr = true → i ≤ j) ∧
      (¬bad → x.maxSdu < f.len → exec (.ethFrameRx t port f) s = .next dropped) ∧
      (¬bad → f.len ≤ x.maxSdu → x.recoveryEn = false → x.portMask < 256 →
        exec (.ethFrameRx t port f) s = .next (sendOut (s.at t) x.portMask fr)))) ∧
  (∀ (s : State) (p : Fin 8) (f : Frame), (s.eport p).link = true → s.egressBytes = 0 → f.len ≤ 9216 → (s.gcl p).pending = false →
    (s.gcl p).oper.enable = false → (s.eport p).freeAt ≤ s.dt → (s.eport p).served ≤ s.dt → (s.eport p).egress = [] →
    let s1 := sendOut s (2 ^ p.val) f
    let q := Config.pcpQueue p f.pcp % 8
    (s1.out = s.out ++ [.frame p f.len s.dt] ∧ (s1.eport p).egress = []) ∨
      ((q = 5 ∨ q = 6) ∧ s1.out = s.out ∧ (s1.eport p).egress = [{ q := q, len := f.len }])) ∧
  (∀ (s : State) (p : Nat) (f : EFrame) (t : Time) (w : Nat × Nat × Nat), (s.gcl p).pending = false →
    let g := (s.gcl p).oper
    let pos := (t - g.origin) % max g.cycle 1
    g.enable = true → w ∈ g.windows → w.1 ≤ pos → pos < w.2.1 → w.2.2.testBit f.q = false → startsWith s p f t = none) ∧
  (∀ (s : State) (t : Time) (p : Fin 8) (up : Bool) (rate : Fin 5), s.up 13 = true →
    ∃ s1, exec (.ethLinkChange t p up rate) s = .next (sendManagers s1 13 0x0680 p
        (b2n up + 2 * (if up then rate.val else 0) + 2 ^ 4 * b2n (up && (s.eport p).macsec)) 0) ∧
      (s1.eport p).link = up ∧ (s1.eport p).rate = (if up then rate.val else 0) ∧ (s1.eport p).macsec = (up && (s.eport p).macsec) ∧
      (up = false → (s1.eport p).egress = [] ∧ (s1.eport p).saks = 0) ∧ ∀ q, q ≠ p.val → s1.eport q = s.eport q) ∧
  (∀ (s : State) (t : Time) (d : Fin 2) (port : Fin 8) (g rate : Int), s.up 13 = true → (s.eport port).link = true →
    let s1 := (s.at t).modPtp d fun x => { x with
      synced := true, port := port.val, domain := if x.pend.isSome then x.pend else x.domain, pend := none
      offset := g - (s.at t).stamp 13, last := max s.dt t }
    (s.time.source ≠ d.val + 1 → exec (.ptpSyncRx t d port g rate) s = .next s1) ∧
    (s.time.source = d.val + 1 → exec (.ptpSyncRx t d port g rate) s =
      .next { s1 with time := { s1.time with locked := true, holdover := false, rate := max (-20000) (min rate 20000) } })) ∧
  (∀ (s : State) (t : Time) (d : Fin 2), s.up 13 = true → (s.ptp d).last < max s.dt t → (s.ptp d).synced = true →
    (s.ptp d).last + 3 * Config.syncInterval (s.ptp d).port ≤ max s.dt t →
    let s1 := (s.at t).modPtp d fun x => { x with synced := false }
    (s.time.source ≠ d.val + 1 → exec (.ptpSyncTimeout t d) s = .next s1) ∧
    (s.time.source = d.val + 1 → exec (.ptpSyncTimeout t d) s =
      .next (report { s1 with time := { s1.time with locked := false, holdover := true } } 1 0x18))) ∧
  (∀ (s : State) (t : Time) (ini : Fin 128) (d : Fin 2), s.canRead ini 13 = true → ∃ v : Nat, exec (.ptpOffsetLoRead t ini d) s =
      .next ({ s.at t with time := { s.time with snapPtp := put s.time.snapPtp (2 * ini.val + d.val) (s.ptp d).offset } }.emit (.readData ini v)) ∧
    (v : Int) = (s.ptp d).offset % 2 ^ 32) ∧
  (∀ (s : State) (t : Time) (fn : Fin 64) (p : Fin 8), s.groupOpen fn 6 13 = true →
    let x := s.gcl p
    let ok := (1 ≤ x.len ∧ x.len ≤ 256) ∧ (1000 ≤ x.cycle ∧ x.cycle ≤ 1000000000) ∧ ∀ i, i < x.len → gclNs x.entries i ≠ 0
    (¬ok → exec (.gclCommit t fn p) s = .next ((s.at t).modGcl p fun x => { x with err := true })) ∧
    (ok → ∃ c n, exec (.gclCommit t fn p) s = .next ((s.at t).modGcl p fun x => { x with err := false, pending := true, change := c }) ∧
      c = x.base + n * x.cycle ∧ max s.dt t ≤ c ∧ (n = 0 ∨ c < max s.dt t + x.cycle))) ∧
  (∀ (s : State) (t : Time) (p : Fin 8), s.up 13 = true → (s.gcl p).pending = true → (s.gcl p).takeover ≤ max s.dt t →
    ∃ s1, exec (.gclTakeover t p) s = .next (sendManagers s1 13 0x0681 p ((s.gcl p).takeover % 2 ^ 32) ((s.gcl p).takeover / 2 ^ 32 % 2 ^ 32)) ∧
      (s1.gcl p).pending = false ∧ (s1.gcl p).oper = { enable := (s.gcl p).enable, len := (s.gcl p).len, cycle := (s.gcl p).cycle, entries := (s.gcl p).entries, preempt := (s.gcl p).preempt, origin := (s.gcl p).takeover } ∧
      ∀ q, q ≠ p.val → s1.gcl q = s.gcl q) ∧
  (∀ (s : State) (t : Time) (p : Fin 8), s.up 13 = true →
    let g := (s.gcl p).oper
    let pos := (max s.dt t - g.origin) % max g.cycle 1
    let sum := fun i => ((List.range i).map (gclNs g.entries)).sum
    (g.enable = false → exec (.gateIntervalEnd t p) s =
      .next (serveEgress ((s.at t).modGcl p fun x => { x with cur := 0, gates := 0xFF }) p)) ∧
    (g.enable = true → 0 < g.len → ∃ i, i < g.len ∧ sum i ≤ pos ∧ (i + 1 < g.len → pos < sum (i + 1)) ∧
      exec (.gateIntervalEnd t p) s = .next (serveEgress ((s.at t).modGcl p fun x =>
        { x with cur := i, gates := (gclEntry g.entries i).toNat % 2 ^ 8 }) p))) ∧
  (∀ (s : State) (t : Time) (fn : Fin 64) (f : Fin 1024) (word : Fin 4) (val : Word),
    fn.val < 2 → s.reach fn = true → s.up 13 = true →
    let x := look s.net.filters f {}
    let y := setFilterWord x word val
    let mine := fun g : Nat => g = fn.val ∨ (2 ≤ g ∧ s.portOf g = fn.val)
    let okay := f.val ∉ s.net.fixed ∧ (x.valid = true → mine x.fn) ∧ y.portMask.testBit 9 = false ∧
      (word = 3 → mine y.fn ∧ (y.portMask.testBit 8 = true → y.netq < (s.fnc y.fn).grant.netQueues))
    (okay → exec (.filterWrite t fn f word val) s = .next ((s.at t).modNet fun n => { n with filters := put n.filters f y })) ∧
    (¬okay → exec (.filterWrite t fn f word val) s = .next ((s.at t).modNet fun n => { n with dropped := n.dropped + 1 }))) ∧
  ∀ (s : State) (t : Time) (p : Fin 8), s.up 13 = true → s.up 0 = true → (s.eport p).link = true →
    let s1 := (s.at t).modEport p fun x => { x with saks := x.saks + 1, macsec := true }
    ((s.eport p).macsec = true → exec (.sakInstall t p) s = .next s1) ∧
    ((s.eport p).macsec = false → exec (.sakInstall t p) s =
      .next (sendManagers s1 13 0x0680 p (1 + 2 * (s.eport p).rate + 2 ^ 4) 0))

/-- Host network queues and CAN FD: NET_TX, NET_RX_POST, received frames, errors, bus-off and recovery (R267, R430,
R431, R432, R433, R434, R435, R436, R350). Where a clause goes beyond the rules it is the model's choice: log 99,
103, 177. -/
def Obligations.HostQueuesAndCanRun : Prop :=
  (∀ (s : State) (t : Time) (c : Cmd), (s.at t).runs specNetTx c = true →
    let s0 := (s.at t).launched specNetTx c
    let s1 := readRange s0 c.fn (c.d 10) (c.f 12 0 14)
    let b := memRead s1 c.fn (c.d 10) (c.f 12 0 14)
    (s0.touchesLost c.fn (c.d 10) (c.f 12 0 14) = true →
      exec (.netTx t c) s = .next (complete s0 s.nextId stPartLost [0, 0, 0, 0])) ∧
    (s0.touchesLost c.fn (c.d 10) (c.f 12 0 14) = false → s0.stallAt c.fn (c.d 10) (c.f 12 0 14) = none →
      s1.stallAt c.fn (c.d 10) (c.f 12 0 14) = none →
      ∃ e1 e2, exec (.netTx t c) s =
        .next (complete (forward s1.drawn (txFrame b (s1.stamp 13))) s.nextId stOk [c.f 12 0 14, 0, e1, e2]) ∧
        ((c.b 13 4 = false ∨ ptpEvent b = false) → e1 = 0 ∧ e2 = 0))) ∧
  (∀ (s : State) (t : Time) (c : Cmd), (s.at t).runs specNetRxPost c = true → exec (.netRxPost t c) s =
    .next (((s.at t).launched specNetRxPost c).modNet fun n => { n with posts := n.posts ++ [s.nextId] })) ∧
  (∀ (s : State) (t : Time) (p : Fin 2) (f : CanFrame), s.up 13 = true → (s.can p).state ≠ 2 →
    (f.remote = true → exec (.canFrameRx t p f) s = .next (s.at t)) ∧
    (f.remote = false →
      (s.img = none → exec (.canFrameRx t p f) s = .next (s.at t)) ∧
      ∀ im, s.img = some im → exec (.canFrameRx t p f) s = .next ((s.at t).modWl fun w => { w with
        inbox := w.inbox ++ (im.mapping.filter fun e => telUsable e.2 && (decide (e.2.source.val = p.val) &&
          decide (e.2.ide = f.ide) && decide (e.2.id = f.id))).map fun e => ⟨e.1, f.payload, (s.at t).stamp 13⟩ }))) ∧
  (∀ (s : State) (match_ : MapEntry → Bool) (b : List Byte) (stamp : Time),
    (∀ im, s.img = some im → ∀ e ∈ im.mapping, match_ e.2 = false) → passTelegram s match_ b stamp = s) ∧
  (∀ (s : State) (t : Time) (p : Fin 2), s.up 13 = true →
    let n := if (s.can p).offs < 0xFF then (s.can p).offs + 1 else (s.can p).offs
    ((s.can p).state < 2 → exec (.canBusOff t p) s = .next (report (sendManagers
      ((s.at t).modCan p fun x => { x with offs := n, tec := 0xFF, offAt := max s.dt t, state := 2 }) 13 0x0682 p 2 n) 13 0x10)) ∧
    ((s.can p).state = 3 → exec (.canBusOff t p) s = .next (s.at t)) ∧
    ((s.can p).state = 2 → (max s.dt t - (s.can p).offAt) * (s.can p).nominal < 1408000000 →
      exec (.canBusOffRecovered t p) s = .next (s.at t)) ∧
    ((s.can p).state = 2 → 1408000000 ≤ (max s.dt t - (s.can p).offAt) * (s.can p).nominal →
      exec (.canBusOffRecovered t p) s = .next (sendManagers
      ((s.at t).modCan p fun x => { x with tec := 0, rxec := 0, state := 0 }) 13 0x0682 p 0 (s.can p).offs))) ∧
  ∀ (s : State) (t : Time) (p : Fin 2) (tec rxec : Nat), s.up 13 = true → (s.can p).state ≠ 2 →
    let s1 := (s.at t).modCan p fun x => { x with tec := min tec 0xFF, rxec := min rxec 0xFF }
    ((s.can p).state = 3 → exec (.canBusError t p tec rxec) s = .next s1) ∧
    ((s.can p).state = 0 → 127 < tec ∨ 127 < rxec → exec (.canBusError t p tec rxec) s = .next (sendManagers
      ((s.at t).modCan p fun x => { x with tec := min tec 0xFF, rxec := min rxec 0xFF, state := 1 }) 13 0x0682 p 1 (s.can p).offs)) ∧
    ((s.can p).state = 0 → tec ≤ 127 → rxec ≤ 127 → exec (.canBusError t p tec rxec) s = .next s1) ∧
    ((s.can p).state = 1 → tec ≤ 127 → rxec ≤ 127 → exec (.canBusError t p tec rxec) s = .next (sendManagers
      ((s.at t).modCan p fun x => { x with tec := min tec 0xFF, rxec := min rxec 0xFF, state := 0 }) 13 0x0682 p 0 (s.can p).offs))

/-- Audio: boundary, routes, bank swaps, streams, safe-load and TDM ports (R441, R443, R444, R448, R458, R459, R460,
R461, R462, R463, R466, R350). Where a clause goes beyond the rules it is the model's choice: log 104, 107, 109,
179, 180. -/
def Obligations.AudioCommandsRun : Prop :=
  (∀ (s : State) (t : Time) (tdmIn convIn : Tbl Int), s.up 15 = true →
    ∃ s', exec (.sampleBoundary t tdmIn convIn) s = .next s' ∧ s'.audio.sample = s.audio.sample + 1 ∧
      s'.audio.boundAt = (s.at t).stamp 15 ∧
      s'.audio.loopA = (if s.audio.loopAt < max s.dt t then s.audio.loopSel else s.audio.loopWas) ∧
      s'.audio.pendStr = s.audio.pendStr.filter (fun e => e.since ≥ max s.dt t) ∧
      s'.audio.imms = s.audio.imms.filter (fun e => e.since ≥ max s.dt t) ∧
      ∀ o, o < 96 → -2147483648 ≤ look s'.audio.outs o 0 ∧ look s'.audio.outs o 0 ≤ 2147483647) ∧
  (∀ (l : Limiter) (o n : Nat) (x : Int),
    let goal := limiterTarget x
    min l.gain goal ≤ (l.next o n x).gain ∧ (l.next o n x).gain ≤ max l.gain goal ∧
    (goal < l.gain → 47 ≤ l.down → (l.next o n x).gain = goal) ∧ (l.gain < goal → 2399 ≤ l.up → (l.next o n x).gain = goal)) ∧
  (∀ (s : State) (t : Time) (c : Cmd), (s.at t).runs specRoute c = true →
    let s0 := (s.at t).launched specRoute c
    let n := c.f 13 0 14
    let s1 := readRange s0 c.fn (c.d 11) (32 * n)
    s0.touchesLost c.fn (c.d 11) (32 * n) = false → s0.stallAt c.fn (c.d 11) (32 * n) = none →
    s1.stallAt c.fn (c.d 11) (32 * n) = none →
    let ps := (List.range n).map (arParam s1 c)
    let s2 := s1.modAudio fun a => { a with shadow := ps.foldl AudioBank.write a.shadow }
    ((∃ i, i < n ∧ arBad s1 c i = true) → exec (.audioRoute t c) s = .next (complete s1 s.nextId stMalformed [0, 0, 0, 0])) ∧
    ((∀ i, i < n → arBad s1 c i = false) → (∃ p ∈ ps, s.mayParam c.fn p = false) →
      exec (.audioRoute t c) s = .next (complete s1 s.nextId stDenied [0, 0, 0, 0])) ∧
    ((∀ i, i < n → arBad s1 c i = false) → (∀ p ∈ ps, s.mayParam c.fn p = true) →
      (c.b 10 0 = false → s.accepts c.fn 12 = true →
        exec (.audioRoute t c) s = .next (complete s2 s.nextId stOk [0, 0, 0, 0])) ∧
      ((c.b 10 0 = true ∨ s.accepts c.fn 12 = false) → exec (.audioRoute t c) s =
        .next (s2.modAudio fun a => { a with imms := a.imms ++ [⟨s.nextId, max s.dt t, ps⟩] })))) ∧
  (∀ (s : State) (t : Time) (c : Cmd),
    ((s.at t).runs specSwap c = true → exec (.audioBankSwap t c) s =
      .next (((s.at t).launched specSwap c).modAudio fun a => { a with swaps := a.swaps ++ [s.nextId] })) ∧
    ((s.at t).runs specStream c = true → exec (.audioStream t c) s =
      .next (((s.at t).launched specStream c).modAudio fun a => { a with pendStr := a.pendStr ++
        [⟨s.nextId, max s.dt t, 32 * c.f 10 0 2 + c.f 10 2 5, if c.b 10 7 then some (asOf c) else none⟩] }))) ∧
  (∀ (a : Audio) (o : Nat), (swapOutput a o).shadow = a.shadow ∧
    (∀ i, i < 128 → (swapOutput a o).active.node o i = a.shadow.node o i) ∧
    (∀ sec k, sec < 6 → k < 5 → (swapOutput a o).active.coef o sec k = a.shadow.coef o sec k) ∧
    (swapOutput a o).active.auto o = a.shadow.auto o) ∧
  (∀ (a : Audio) (o i : Nat) (g : Int), i < 128 → (applyActive a (.gain o i g)).active.node o i = g ∧
    (a.active.node o i ≠ g → look (applyActive a (.gain o i g)).ramps (128 * o + i) { from_ := 0, to_ := 0, k := 0, len := 0 } =
      { from_ := before a.ramps (128 * o + i) (a.active.node o i), to_ := g, k := 0, len := 64 }) ∧
    ∀ k, k < 128 * 96 → k ≠ 128 * o + i → look (applyActive a (.gain o i g)).active.gain k 0 = look a.active.gain k 0) ∧
  (∀ (s : State) (t : Time) (fn : Fin 64), s.reach fn = true → s.up 15 = true → s.accepts fn 13 = true →
    exec (.safeLoadTrigger t fn) s = .next ((s.at t).modSafeLoad fn fun x => { x with
      trig := true, trigAt := if x.trig then x.trigAt else max s.dt t })) ∧
  (∀ (s : State) (t : Time) (p : Fin 4) (ppm : Int), s.up 15 = true →
    ((s.tdm p).cfg.getLsbD 1 = true → exec (.tdmFrameSync t p ppm) s =
      .next ((s.at t).modTdm p fun x => { x with cfgA := x.cfg, syncAt := max s.dt t, off := 0, lost := false, good := 0 })) ∧
    ((s.tdm p).cfg.getLsbD 1 = false → (ppm < -1000 ∨ 1000 < ppm) → exec (.tdmFrameSync t p ppm) s =
      .next ((s.at t).modTdm p fun x => { x with
        cfgA := x.cfg, syncAt := max s.dt t, off := max (-32768) (min ppm 32767), lost := true, good := 0 })) ∧
    ((s.tdm p).cfg.getLsbD 1 = false → -1000 ≤ ppm → ppm ≤ 1000 → exec (.tdmFrameSync t p ppm) s =
      .next ((s.at t).modTdm p fun x => { x with
        cfgA := x.cfg, syncAt := max s.dt t, off := ppm, good := x.good + 1, lost := if 48 ≤ x.good + 1 then false else x.lost }))) ∧
  ∀ (s : State) (t : Time) (p : Fin 4), s.up 15 = true → (s.tdm p).cfgA.getLsbD 0 = true → (s.tdm p).cfgA.getLsbD 1 = false →
    (250000 ≤ 3 * (max s.dt t - (s.tdm p).syncAt) →
      exec (.tdmSyncLost t p) s = .next ((s.at t).modTdm p fun x => { x with lost := true, good := 0 })) ∧
    (3 * (max s.dt t - (s.tdm p).syncAt) < 250000 → exec (.tdmSyncLost t p) s = .next (s.at t))

/-- Touch: frames, panel loss, object scans, long hold, recalibration and TOUCH_CONFIG (R475, R476, R478, R488, R492,
R494, R495, R498, R500). Where a clause goes beyond the rules it is the model's choice: log 110, 111, 112, 113. -/
def Obligations.TouchFramesObjectsAndHoldsRun : Prop :=
  (∀ (s : State) (t : Time) (p : Fin 4) (b : List Byte), s.up 14 = true →
    ((∀ c, (s.panel p).coming = some c → frameOk c b = false) → exec (.touchFrame t p b) s =
      .next ((s.at t).modPanel p fun x => { x with rejected := if x.rejected < 0xFF then x.rejected + 1 else x.rejected })) ∧
    (∀ c, (s.panel p).coming = some c → frameOk c b = true → ∃ s', exec (.touchFrame t p b) s = .next s' ∧
      (s'.panel p).link = true ∧ (s'.panel p).seq = (b.getD 1 0).toNat ∧ (s'.panel p).lastAt = max s.dt t ∧
      (s'.panel p).frames = ((s.panel p).frames + 1) % 65536 ∧ (s'.panel p).cfg = some c ∧ (s'.panel p).pend = [] ∧
      (s'.panel p).rejected = (s.panel p).rejected ∧ ∀ q, q ≠ p.val → s'.panel q = s.panel q)) ∧
  (∀ (c : TouchCfg) (b : List Byte), frameOk c b = true ↔
    (b.getD 0 0).toNat = 0x5A ∧ b.length = 12 + 2 * c.rows * c.cols ∧ (b.getD 2 0).toNat = c.rows ∧ (b.getD 3 0).toNat = c.cols ∧
      leNat (b.drop (8 + 2 * c.rows * c.cols)) = crc32c (b.take (8 + 2 * c.rows * c.cols))) ∧
  (∀ (s : State) (t : Time) (p : Fin 4), s.up 14 = true → (s.panel p).link = true →
    ((s.panel p).lastAt + 100000000 ≤ max s.dt t → ∃ s', exec (.panelLost t p) s = .next s' ∧
      (s'.panel p) = { s.panel p with link := false, contacts := [] } ∧ ∀ q, q ≠ p.val → s'.panel q = s.panel q) ∧
    (max s.dt t < (s.panel p).lastAt + 100000000 → exec (.panelLost t p) s = .next (s.at t))) ∧
  (∀ (s : State) (t : Time) (raw : Vector (Fin 65536) 48), s.up 14 = true →
    ((∀ o, o < 24 → (s.obj o).kind = 0 ∧ (s.obj o).pend = []) → exec (.scScan t raw) s = .next (s.at t)) ∧
    ∃ s', exec (.scScan t raw) s = .next s' ∧ s'.sense.panels = s.sense.panels ∧ s'.mem = s.mem) ∧
  (∀ (s : State) (t : Time) (p : Fin 24) (k : Fin 10) (c : TouchCfg) (x : Contact), s.up 14 = true →
    (s.panel p).cfg = some c → (s.panel p).contacts.find? (·.id = k.val) = some x →
    (x.held = false → x.down + c.longNs ≤ max s.dt t →
      let s1 := (s.at t).modPanel p fun y => { y with contacts := y.contacts.map fun e => if e.id = k.val then { e with held := true } else e }
      exec (.touchLongHold t false p k) s = .next (if (s.panel p).reports then
        sendTo s1 14 (s.panel p).holder 0x0581 (2 * p.val) k ((max s.dt t - x.down) / 1000000) else s1)) ∧
    ((x.held = true ∨ max s.dt t < x.down + c.longNs) → exec (.touchLongHold t false p k) s = .next (s.at t)) ∧
    (c.maxH ≠ 0 → x.down + c.maxNs ≤ max s.dt t → ∃ s', exec (.maxHoldRecal t false p k) s = .next s' ∧
      s'.panel p = { s.panel p with
        contacts := (s.panel p).contacts.filter (·.id ≠ k.val)
        nodes := x.nodes.foldl (fun t n => upd t n {} Node.recal) (s.panel p).nodes }) ∧
    ((c.maxH = 0 ∨ max s.dt t < x.down + c.maxNs) → exec (.maxHoldRecal t false p k) s = .next (s.at t))) ∧
  (∀ (s : State) (t : Time) (o : Fin 24) (k : Fin 10) (c : TouchCfg), s.up 14 = true →
    (s.obj o).cfg = some c → (s.obj o).touched = true → (s.obj o).wait = false →
    ((s.obj o).held = false → (s.obj o).down + c.longNs ≤ max s.dt t →
      let s1 := (s.at t).modObj o fun y => { y with held := true }
      exec (.touchLongHold t true o k) s = .next (if (s.obj o).reports then
        sendTo s1 14 (s.obj o).holder 0x0581 (1 + 2 * o.val) 0 ((max s.dt t - (s.obj o).down) / 1000000) else s1)) ∧
    (c.maxH ≠ 0 → (s.obj o).down + c.maxNs ≤ max s.dt t → ∃ s', exec (.maxHoldRecal t true o k) s = .next s' ∧
      s'.obj o = { s.obj o with touched := false, wait := true } ∧
      s'.sense.elecs = (s.obj o).elec.foldl (fun t e => upd t e {} Node.recal) s.sense.elecs)) ∧
  ∀ (s : State) (t : Time) (c : Cmd), (s.at t).runs specTouchConfig c = true →
    let s1 := (s.at t).launched specTouchConfig c
    (c.f 10 0 2 = 1 → exec (.touchConfig t c) s =
      .next (s1.modObj (c.f 10 2 5) fun x => { x with pend := x.pend ++ [(s.nextId, tcOf c)] })) ∧
    (c.f 10 0 2 ≠ 1 → exec (.touchConfig t c) s =
      .next (s1.modPanel (c.f 10 2 5) fun x => { x with pend := x.pend ++ [(s.nextId, tcOf c)] }))

/-- Haptic channels: play, refusals, arming, trigger edges, sense windows, cut, braking and its end (R501, R502, R504,
R505, R506, R507, R509, R510, R511, R513, R514). Where a clause goes beyond the rules it is the model's choice: log
60, 61, 62, 63, 64, 65. -/
def Obligations.HapticChannelsPlayBrakeAndArm : Prop :=
  (∀ (s : State) (t : Time) (c : Cmd), (s.at t).runs specHapticPlay c = true →
    let s1 := (s.at t).launched specHapticPlay c
    let ch := c.f 10 0 3
    let n := c.f 10 3 7
    let e : Effect := { n := n, prio := c.f 10 10 3, gain := hpGain c, flight := some s.nextId, fn := some c.fn }
    (n = 0 → (s.hap ch).next = none → (s.hap ch).cur = none → (s.hap ch).state = 0 →
      exec (.hapticPlay t c) s = .next (complete s1 s.nextId stOk [0, 0, 0, s1.hapFreq ch])) ∧
    (∀ x, n = 0 → (s.hap ch).next = none → (s.hap ch).cur = some x → x.alarm = false → (s.hap ch).state = 1 →
      ∃ s', exec (.hapticPlay t c) s = .next s' ∧ (s'.hap ch).state = 2 ∧ (s'.hap ch).stops = (s.hap ch).stops ++ [s.nextId]) ∧
    (n ≠ 0 → (s.hap ch).next = none → (s.hap ch).state = 2 → (∀ x, (s.hap ch).cur = some x → x.alarm = false) →
      s1.dutyRefuses ch n = false → exec (.hapticPlay t c) s = .next (s1.modHap ch fun x => { x with next := some e })) ∧
    (∀ x, (s.hap ch).cur = some x → x.alarm = true →
      exec (.hapticPlay t c) s = .next (complete s1 s.nextId stNoResource [n, 24, 0, s1.hapFreq ch])) ∧
    (n ≠ 0 → (s.hap ch).next = none →
    (∀ x, (s.hap ch).state = 1 → (s.hap ch).cur = some x → x.alarm = false →
      (e.prio < x.prio → exec (.hapticPlay t c) s = .next (complete s1 s.nextId stNoResource [n, 8, 0, s1.hapFreq ch])) ∧
      (x.prio ≤ e.prio → s1.dutyRefuses ch n = false →
        exec (.hapticPlay t c) s = .next (s1.modHap ch fun x => { x with next := some e }))) ∧
    ((s.hap ch).state = 0 → (s.hap ch).cur = none →
      (s1.dutyRefuses ch n = false → ∃ s', exec (.hapticPlay t c) s = .next s' ∧ (s'.hap ch).state = 1 ∧
        (s'.hap ch).cur = some { e with start := max s.dt t, run := s1.runFrom ch, clamp := s1.hapClamps ch n e.gain } ∧
        s' = s1.modHap ch fun _ => s'.hap ch) ∧
      (s1.dutyRefuses ch n = true →
        let s2 := s1.modHap ch fun x => { x with refused := if x.refused < 0xFFFF then x.refused + 1 else x.refused }
        exec (.hapticPlay t c) s = .next (complete s2 s.nextId stNoResource [n, 16, 0, s2.hapFreq ch]))))) ∧
  (∀ (s : State) (t : Time) (c : Cmd), (s.at t).runs specHapticArm c = true →
    let a : Arm := { fn := c.fn, effect := c.f 10 4 7, prio := c.f 10 11 3, falling := c.b 10 14, holdoff := c.f 10 16 8, gain := hpGain c }
    exec (.hapticArm t c) s = .next (complete (((s.at t).launched specHapticArm c).modHap (c.f 10 0 3) fun x =>
      { x with arm := if c.b 10 3 then some a else none }) s.nextId stOk [0, 0, 0, 0])) ∧
  (∀ (s : State) (t : Time) (ch : Fin 8) (falling : Bool) (a : Arm), (s.hap ch).arm = some a → s.up 14 = true →
    ((a.falling ≠ falling ∨ max s.dt t < a.until_) → exec (.htrigEdge t ch falling) s = .next (s.at t)) ∧
    (a.falling = falling → a.until_ ≤ max s.dt t →
      let s1 := (s.at t).modHap ch fun x => { x with arm := some { a with until_ := max s.dt t + a.holdoff * 1000000 } }
      ∃ s2 cause, requestEffect s1 ch { n := a.effect, prio := a.prio, gain := a.gain, fn := some a.fn } = (s2, cause) ∧
        exec (.htrigEdge t ch falling) s =
          .next (sendEvent s2 14 a.fn 0x0585 ch a.effect ((if cause = 0 then 0 else 1) + 2 * cause)))) ∧
  (∀ (s : State) (t : Time) (ch : Fin 8), s.up 14 = true →
    ((s.hap ch).state = 0 → ∀ w, exec (.bemfSenseWindow t ch w) s = .next (s.at t)) ∧
    ((s.hap ch).state ≠ 0 → (s.hap ch).next = none → (∀ c, (s.hap ch).cur = some c → c.brake = false) →
      (∀ k, ∃ f, 1000 ≤ f ∧ f ≤ 3000 ∧ exec (.bemfSenseWindow t ch (some k)) s =
        .next ((s.at t).modHap ch fun x => { x with freq := f, miss := 0, open_ := false })) ∧
      ((s.hap ch).miss ≠ 3 → exec (.bemfSenseWindow t ch none) s =
        .next ((s.at t).modHap ch fun x => { x with miss := x.miss + 1 })) ∧
      ((s.hap ch).miss = 3 → (s.hap ch).open_ = false → ∃ s', exec (.bemfSenseWindow t ch none) s = .next s' ∧
        (s'.hap ch).open_ = true ∧ (s'.hap ch).freq = (s.hapCfg ch).f0 % 4096 ∧ ∀ c, c ≠ ch.val → s'.hap c = s.hap c))) ∧
  (∀ (s : State) (t : Time) (ch : Fin 8) (e : Effect), s.up 14 = true → (s.hap ch).state = 1 → (s.hap ch).cur = some e →
    let seg := driveBefore (s.planned ch e.n e.run e.start) (max s.dt t)
    let cut := ((s.cutAt ch e.n e.run e.start).map fun c => decide (c ≤ max s.dt t)).getD false
    let braked := fun (x : Effect) => (s.at t).modHap ch fun h => { h with
      state := 2, brakeAt := max s.dt t
      cur := some { x with drive := (seg.foldl (fun n d => n + d.2) 0) / 1000, cut := x.cut || cut, pre := x.pre, brake := false }
      drives := (h.drives ++ seg).filter fun d => max s.dt t < d.1 + d.2 + 2000000000 }
    ((∀ d ∈ s.planned ch e.n e.run e.start, d.1 + d.2 ≤ max s.dt t) → exec (.mainDriveEnd t ch) s = .next (braked e)) ∧
    ((∃ d ∈ s.planned ch e.n e.run e.start, max s.dt t < d.1 + d.2) → exec (.mainDriveEnd t ch) s = .next (s.at t)) ∧
    (cut = true → exec (.maxOnCut t ch) s = .next (braked e)) ∧ (cut = false → exec (.maxOnCut t ch) s = .next (s.at t))) ∧
  (∀ (maxOn left : Nat) (l : List (Nat × Nat)), left ≤ maxOn →
    (∀ r ∈ cutDrive maxOn left l, r.2 ≤ maxOn) ∧
    ((∀ r ∈ l, r.2 ≤ left) → cutDrive maxOn left l = l) ∧
    ∀ o n r, l = (o, n) :: r → left < n → cutDrive maxOn left l = [(o, left)]) ∧
  ∀ (s : State) (t : Time) (ch : Fin 8) (e : Effect), s.up 14 = true → (s.hap ch).state = 2 → (s.hap ch).cur = some e →
    (s.hap ch).stops = [] →
    let done := fun (s : State) => match e.flight with
      | some id => complete s id stOk [e.n, b2n e.cut + 2 * b2n e.pre + 4 * b2n e.clamp, e.drive, s.hapFreq ch]
      | none => s
    let s2 := (done (s.at t)).modHap ch fun x => { x with state := 0, cur := none }
    ((s.hap ch).next = none → exec (.brakingEnd t ch) s = .next s2) ∧
    (∀ n, (s.hap ch).next = some n →
      (s2.effectVerdict n = none → s2.dutyRefuses ch n.n = false → ∃ s', exec (.brakingEnd t ch) s = .next s' ∧
        (s'.hap ch).state = 1 ∧ (s'.hap ch).next = none ∧
        ∃ r x, (s'.hap ch).cur = some { n with start := max s.dt t, run := r, clamp := x }) ∧
      ∀ st id, s2.effectVerdict n = some st → n.flight = some id → exec (.brakingEnd t ch) s =
        .next (complete (s2.modHap ch fun x => { x with next := none }) id st [0, 0, 0, 0]))

/-- Lantern: mailboxes, their commands, claims, nonces, signatures, advances and the performance hold (R523, R524, R525,
R526, R527, R529, R530, R532, R536, R538, R539, R653). Where a clause goes beyond the rules it is the model's
choice: log 114, 116. -/
def Obligations.MailboxCommandsAreServed : Prop :=
  (∀ (s : State) (t : Time) (fn : Fin 64) (mb : Fin 16), s.reach fn = true → s.up 0 = true →
    (2 ≤ fn.val ∨ s.mayWrite fn 10 = true) → s.mbUser mb = some fn.val →
    let now := (s.at t).stamp 0
    exec (.mailboxDoneClear t fn mb) s =
      .next ((s.at t).modMbox mb fun x => { x with done := x.done && decide (x.doneAt = some now) }) ∧
    ∀ w : Word, w.getLsbD 0 = true →
      let g : LanMsg := { mb := mb, words := (s.mbox mb).request, seen := now }
      (((s.mbox mb).busy = true ∨ (s.mbox mb).done = true) → exec (.mailboxGo t fn mb w) s =
        .next ((s.at t).modMbox mb fun x => { x with overrun := true, done := x.done && (!w.getLsbD 2 || decide (x.doneAt = some now)) })) ∧
      ((s.mbox mb).busy = false → (s.mbox mb).done = false →
        (∀ h r, queueMail g s.lan.order = h :: r → (cmdLen h.cmd).isSome = true) → exec (.mailboxGo t fn mb w) s =
        .next (((s.at t).modMbox mb fun x => { x with busy := true, overrun := false }).modLan fun l => { l with order := queueMail g l.order })) ∧
      ((s.mbox mb).busy = false → (s.mbox mb).done = false → s.lan.order = [] → cmdLen g.cmd = none →
        ∃ s', exec (.mailboxGo t fn mb w) s = .next s' ∧ (s'.mbox mb).busy = false ∧ (s'.mbox mb).done = true ∧
          (s'.mbox mb).overrun = false ∧ s'.lan.order = [])) ∧
  (∀ (g : LanMsg) (l : List LanMsg), ((∀ x ∈ l, x.seen ≠ g.seen) → queueMail g l = l ++ [g]) ∧
    ∀ x, x.seen = g.seen → l = [x] → queueMail g l = if g.mb < x.mb then [g, x] else [x, g]) ∧
  (∀ (s : State) (r : List LanMsg), (∀ h q, r = h :: q → (cmdLen h.cmd).isSome = true) →
    serveUndefined s r = s.modLan fun l => { l with order := r }) ∧
  (∀ (s : State) (t : Time) (mb : Fin 16) (g : LanMsg) (r : List LanMsg), s.lan.order = g :: r → s.up 0 = true → g.mb = mb.val →
    let s0 := (s.at t).modLan fun l => { l with order := r }
    let ends := fun s1 => Host.Outcome.next (φ := Fault) (ρ := Refusal) (serveUndefined s1 r)
    let good := g.malformed = false ∧ s.mbAllowed mb g.cmd = true
    let own := (s.mbUser mb).getD 0
    (∀ e ∈ [(0x01, Instr.info t mb), (0x02, .claim t mb), (0x03, .unclaim t mb), (0x10, .authBegin t mb), (0x11, .authSigR t mb),
        (0x12, .authSigS t mb), (0x20, .advBegin t mb), (0x21, .advSigR t mb), (0x22, .advSigS t mb)],
      (g.cmd ≠ e.1 → exec e.2 s = .next (s.at t)) ∧
      (g.cmd = e.1 → g.malformed = true → exec e.2 s = ends (reply s0 g stMalformed [])) ∧
      (g.cmd = e.1 → g.malformed = false → s.mbAllowed mb g.cmd = false → exec e.2 s = ends (reply s0 g stDenied []))) ∧
    (good → g.cmd = 0x01 → ∃ pay, pay.length = 24 ∧ exec (.info t mb) s = ends (reply s0 g stOk pay)) ∧
    (good → g.cmd = 0x02 →
      (∀ c, s.claimOf own g.byte0 = some c → exec (.claim t mb) s = ends (reply s0 g stOk [BitVec.ofNat 8 c])) ∧
      (∀ c, s.claimOf own g.byte0 = none → s.freeClaim = some c → exec (.claim t mb) s =
        ends (reply (s0.modLan fun l => { l with claims := put l.claims c ⟨g.byte0, true, own⟩ }) g stOk [BitVec.ofNat 8 c])) ∧
      (s.claimOf own g.byte0 = none → s.freeClaim = none → exec (.claim t mb) s = ends (reply s0 g stNoResource []))) ∧
    (good → g.cmd = 0x03 →
      let x := look s.lan.claims g.byte0 {}
      (x.valid = false → exec (.unclaim t mb) s = ends (reply s0 g stOk [])) ∧
      (x.valid = true → s.mbUser mb ≠ some x.owner → exec (.unclaim t mb) s = ends (reply s0 g stDenied [])) ∧
      (x.valid = true → s.mbUser mb = some x.owner → exec (.unclaim t mb) s =
        ends (reply (s0.modLan fun l => { l with claims := put l.claims g.byte0 {} }) g stOk []))) ∧
    (∀ e ∈ [(0x10, Instr.authBegin t mb, 0), (0x20, .advBegin t mb, g.byte0)], good → g.cmd = e.1 → ∃ n, n < 2 ^ 384 ∧
      exec e.2.1 s = ends (reply ((s0.modMbox mb fun x => { x with nonce := some n, sigR := none, target := e.2.2 }).drawn) g stOk (leBytes 48 n))) ∧
    (∀ e ∈ [(0x11, Instr.authSigR t mb), (0x21, .advSigR t mb)], good → g.cmd = e.1 →
      exec e.2 s = ends (reply (s0.modMbox mb fun x => { x with sigR := some g.num48 }) g stOk [])) ∧
    (let x := s.mbox mb
      let s1 := s0.modMbox mb fun x => { x with nonce := none, sigR := none }
      (good → g.cmd = 0x22 → ((x.nonce = none ∨ x.sigR = none) → exec (.advSigS t mb) s = ends (reply s1 g stOk [0#8])) ∧
        ∀ n q, x.nonce = some n → x.sigR = some q →
          let ok := decide (x.target = s.lan.life + 1) && (decide (s.lan.life = 1) || decide (s.lan.life = 2)) &&
            Config.ecdsa Config.ownerKey.1 Config.ownerKey.2 (signedBytes n x.target) q g.num48
          exec (.advSigS t mb) s = ends (reply (if ok then s1.modLan fun l => { l with lifeNext := x.target } else s1) g stOk
            [BitVec.ofNat 8 (b2n ok)])) ∧
      (good → g.cmd = 0x12 → ∃ s', exec (.authSigS t mb) s = .next s' ∧ (s'.fnc own).auth = none ∧
        ((x.nonce = none ∨ x.sigR = none) → (s'.fnc own).secure = (s.fnc own).secure) ∧
        ∀ n q, x.nonce = some n → x.sigR = some q →
          (s'.fnc own).secure = ((s.fnc own).secure || ((s.fnc own).auth.isSome && s.authVerifies own n q g.num48))))) ∧
  ∀ (s : State) (t : Time) (isl : Fin 16), max s.dt t % 1000000 = 0 →
    (∀ fn, fn < 64 → s.isSecure fn = true → s.workIn isl fn = false) →
    exec (.perfHoldEnd t isl) s = .next ((s.at t).modIsl isl fun x => { x with perfHold := false })

/-- Fault reports, the watchdog, WICK and lockstep; start-up from the reset pin to ready ports (R51, R554, R559, R561,
R565, R566, R567, R593, R594, R596, R602, R607). Where a clause goes beyond the rules it is the model's choice: log
122, 123, 139, 142, 176. -/
def Obligations.FaultsWatchdogAndStartUp : Prop :=
  (∀ (s : State) (t : Time) (isl : Fin 16) (src : Fin 256) (stamp : Time), s.boot.porst = false → faultKnown isl src = true →
    let code := 256 * isl.val + src.val
    (faultClass isl src (s.lossNow isl src) = 0 → exec (.faultReport t isl src stamp) s = .next ((s.at t).modFlt fun f =>
      { f with corr := put f.corr isl (if look f.corr isl 0 < 0xFFFFFFFF then look f.corr isl 0 + 1 else look f.corr isl 0) })) ∧
    (faultClass isl src (s.lossNow isl src) = 1 → s.flt.log.length < 64 → (∀ e ∈ s.flt.log, e.seen < (s.at t).stamp 1) →
      (∀ e, s.flt.log.getLast? = some e → e.code = code → stamp < e.stamp ∨ e.stamp + 1000000 ≤ stamp) →
      exec (.faultReport t isl src stamp) s = .next (faultEvents ((s.at t).modFlt fun f =>
        { f with log := f.log ++ [{ code := code, cls := 1, stamp := stamp, open_ := false, seen := (s.at t).stamp 1 }] }) code 1 0 stamp))) ∧
  (∀ (s : State) (t : Time), s.flt.coresUp = true →
    (s.boot.loadAt ≠ none → s.wl.evaluated = true → exec (.watchdogKick t) s = .next { s.at t with flt := { s.flt with
      kicked := true
      kickAt := if s.flt.kicked && max s.dt t = (s.flt.kickAt + 2) * 1000000 then s.flt.kickAt + 1 else max s.dt t / 1000000
      pin := s.flt.pin && (s.flt.fatal || s.flt.needAck || decide (s.flt.lossOut ≠ [])) } }) ∧
    (s.flt.kicked = true → ((s.flt.kickAt + 2) * 1000000 ≤ max s.dt t → exec (.firmwareWatchdog t) s = .next (report (s.at t) 1 0x11)) ∧
      (max s.dt t < (s.flt.kickAt + 2) * 1000000 → exec (.firmwareWatchdog t) s = .next (s.at t)) ∧
      (max s.dt t % 1000000 = 0 → (s.flt.wickOn = true ∨ s.flt.kickAt < max s.dt t / 1000000) →
        exec (.wickEdge t) s = .next ((s.at t).modFlt fun f => { f with wick := true, wickOn := true })) ∧
      (max s.dt t % 1000000 = 500000 → exec (.wickEdge t) s = .next ((s.at t).modFlt fun f => { f with wick := false }))) ∧
    exec (.lockstepMismatch t) s = .next (report (s.at t) 1 0x10)) ∧
  (∀ (s : State) (src : Nat), src = 0x10 ∨ src = 0x11 → (report s 1 src).flt.fatal = true ∧ (report s 1 src).flt.pin = true ∧
    (report s 1 src).flt.coresUp = false ∧ (report s 1 src).flt.wick = false ∧ (report s 1 src).wl.frozen = true ∧
    (report s 1 src).wl.almout = true) ∧
  (∀ (s : State) (t : Time) (fn : Fin 64), fn.val < 2 → s.reach fn = true → s.up 1 = true → ∃ v,
    exec (.fltDtHiRead t fn) s = .next (((s.at t).modFlt fun f => { f with idx := (f.idx + 1) % 64 }).emit (.readData fn v)) ∧
    ∀ e, s.flt.log[s.flt.idx]? = some e → v = e.stamp / 2 ^ 32 % 2 ^ 32) ∧
  (∀ (s : State) (t : Time), exec (.railsGood t) s = .next ((s.at t).modBoot fun b => { b with rails := true }) ∧
    (s.boot.rails = true → s.boot.porst = true → exec (.sramFillDone t) s = .next ((s.at t).modBoot fun b => { b with filled := true })) ∧
    (s.boot.rails = true → s.boot.porst = false → s.boot.lantern = false → (s.lan.life = 1 ∨ s.lan.life = 2) →
      exec (.sramFillDone t) s = .next (((s.at t).modBoot fun b => { b with filled := true, lantern := true, stage := 1 }).modIsl 0
        fun x => { x with live := true })) ∧
    (s.boot.porst = true → s.boot.filled = true → s.boot.lantern = false → (s.lan.lifeNext = 1 ∨ s.lan.lifeNext = 2) →
      ∀ (memcfg : Bool) (sel : Fin 4), ∃ s', exec (.porstDeassert t memcfg sel) s = .next s' ∧ s'.dt = 0 ∧
        s'.lan.life = s.lan.lifeNext ∧ s'.pwr.device = 2 ∧ s'.boot = { s.boot with porst := false, memcfg := memcfg, bootsel := sel.val, slot := if sel.val = 1 then 1 else 0, lantern := true, stage := 1 } ∧
        (s'.island 0).live = true ∧ (s'.island 1).live = true ∧ s'.out = s.out ∧ s'.pending = s.pending) ∧
    (∀ low, 1000 ≤ low → exec (.porstAssert t low) s = .next (porst (s.at t) s.boot.rails)) ∧
    (∀ low, low < 1000 → exec (.porstAssert t low) s = .next (s.at t)) ∧
    exec (.vddAoLow t) s = .next (porst (s.at t) false)) ∧
  (∀ (s : State) (r : Bool), (porst s r).dt = 0 ∧ (porst s r).boot = { rails := r } ∧ (porst s r).img = none ∧
    (porst s r).queues = [] ∧ (porst s r).fns = [] ∧ (porst s r).isl = State.reset.isl ∧ (porst s r).mem = State.reset.mem ∧
    (porst s r).flt = State.reset.flt ∧ (porst s r).lan.life = s.lan.life ∧ (porst s r).lan.lifeNext = s.lan.lifeNext ∧
    (porst s r).out = s.out ∧ (porst s r).pending = s.pending) ∧
  (∀ (s : State) (t : Time) (ages : Option (Vector AgeRec 16)) (err : Fin 16), s.boot.lantern = true → s.boot.stage ≠ 6 →
    (s.boot.comp = 0 → exec (.componentVerify t true err ages) s = .next ((s.at t).modBoot fun b => { b with comp := 1, stage := 2 })) ∧
    (s.boot.comp = 2 → exec (.componentVerify t true err ages) s = .next ((s.at t).modBoot fun b => { b with comp := 3 })) ∧
    (s.boot.comp = 1 → ∃ s', exec (.componentVerify t true err ages) s = .next s' ∧ s'.boot = { s.boot with comp := 2 } ∧
      s'.flt.coresUp = !s.wl.frozen) ∧
    (s.boot.comp = 3 → s.boot.loadAt = none → exec (.componentVerify t true err ages) s =
      .next ((s.at t).modBoot fun b => { b with comp := 4 })) ∧
    (s.boot.comp < 4 → (s.boot.failA = true ∨ s.boot.slot = 0) → (s.boot.failB = true ∨ s.boot.slot = 1) →
      ∃ s', exec (.componentVerify t false err ages) s = .next s' ∧ s'.boot.stage = 6 ∧ s'.flt.pin = true ∧
        s'.flt.coresUp = false ∧ s'.wl.almout = true) ∧
    (s.boot.comp < 4 → s.boot.slot < 2 → s.boot.failA = false → s.boot.failB = false →
      ∃ s', exec (.componentVerify t false err ages) s = .next s' ∧ s'.boot.slot = 1 - s.boot.slot ∧ s'.boot.comp = 0 ∧
        s'.boot.loadAt = none ∧ s'.flt.coresUp = false ∧ s'.dt = max s.dt t ∧ s'.lan = s.lan ∧ s'.isl = s.isl ∧ s'.wl = s.wl)) ∧
  (∀ (s : State) (t : Time) (img : Image), s.flt.coresUp = true → 3 ≤ s.boot.comp → s.boot.loadAt = none →
    (∀ i ∈ [10, 11, 13, 14, 15], s.railHolds i = true) →
    (Image.headsOk img = false → exec (.imageLoad t img) s = .next (rejectSlot (s.at t) 8)) ∧
    (Image.headsOk img = true → ∃ s', exec (.imageLoad t img) s = .next s' ∧ s'.img = some img ∧ s'.boot.loadAt = some (max s.dt t) ∧
      s'.pwr.throttle = img.throttleC)) ∧
  (∀ (s : State) (t : Time) (port : Fin 2) (t0 : Time), (s.port port).since = some t0 →
    (∀ (gen : Fin 6) (width : Fin 17), s.up 2 = true → exec (.pcieLinkUp t port gen width) s = .next ((s.at t).modPort port fun p =>
      { p with
        link := true, gen := gen.val, width := min width.val (if port = 0 then 8 else 4)
        sris := (s.img.map fun im => im.pcieSris.toList.getD port.val false).getD false })) ∧
    (t0 + 30000000 ≤ max s.dt t → s.boot.memRdy = true → (s.port port).link = true →
      exec (.pciePortReady t port) s = .next ((s.at t).modPort port fun p => { p with ready := true })) ∧
    (max s.dt t < t0 + 30000000 → exec (.pciePortReady t port) s = .next (s.at t))) ∧
  ∀ (s : State) (t : Time) (h : Fin 12), isDp h = true → (s.safeOf h).safety = true → s.boot.loadAt ≠ none →
    (s.safeOf h).fault = false →
    ((s.head h).link ≠ 3 → s.startAt + 400000000 ≤ max s.dt t → exec (.bootLinkCheck t h) s = .next (linkLost (s.at t) h)) ∧
    (((s.head h).link = 3 ∨ max s.dt t < s.startAt + 400000000) → exec (.bootLinkCheck t h) s = .next (s.at t))

/-- Power states and STANDBY, rails, temperature, ageing and the SMBus management port (R572, R574, R577, R580, R582,
R584, R586, R587, R628, R629, R630). Where a clause goes beyond the rules it is the model's choice: log 120, 121,
175. -/
def Obligations.PowerRailsHeatAgeingAndSmbusRun : Prop :=
  (∀ (s : State) (t : Time) (fn : Fin 64) (w : Word), s.watchOpen fn = true →
    let isl := w.toNat % 16
    let st := w.toNat / 16 % 4
    (2 ≤ isl → s.heldBack fn isl = true → exec (.pwrReq t fn w) s = .next (powerAnswer (countRefused (s.at t) fn) fn stHeld)) ∧
    ((isl < 2 ∨ s.heldBack fn isl = false) → s.powerDenied isl st = true → exec (.pwrReq t fn w) s = .next (powerAnswer (s.at t) fn stDenied)) ∧
    (s.heldBack fn isl = false → s.powerDenied isl st = false → (s.island isl).power = st → (s.island isl).retReq = none →
      exec (.pwrReq t fn w) s = .next (powerAnswer (s.at t) fn stOk)) ∧
    (s.heldBack fn isl = false → s.powerDenied isl st = false → (s.island isl).power ≠ st → (s.island isl).retReq = none →
      (st = 3 → exec (.pwrReq t fn w) s = .next (powerAnswer (powerOff (s.at t) isl) fn stOk)) ∧
      (st < 2 → (s.island isl).power = 3 → exec (.pwrReq t fn w) s = .next (powerAnswer ((s.at t).modIsl isl fun x =>
        { x with power := st, live := true, inReset := true, resetAt := max s.dt t }) fn stOk)) ∧
      (st = 2 → (s.island isl).power = 3 → exec (.pwrReq t fn w) s = .next (((s.at t).modIsl isl fun x =>
        { x with power := 0, live := true, inReset := true, resetAt := max s.dt t, retReq := some (fn.val, max s.dt t) }).modPwr fun p =>
          { p with pwrBusy := put p.pwrBusy fn true })) ∧
      (st = 2 → (s.island isl).power ≠ 3 → (∃ f ∈ s.flights, f.isl = isl) → exec (.pwrReq t fn w) s =
        .next (((s.at t).modIsl isl fun x => { x with retReq := some (fn.val, max s.dt t) }).modPwr fun p =>
          { p with pwrBusy := put p.pwrBusy fn true })) ∧
      (st < 2 → (s.island isl).power ≠ 3 → (∃ f ∈ s.flights, f.isl = isl) → exec (.pwrReq t fn w) s =
        .next (powerAnswer ((s.at t).modIsl isl fun x => { x with power := st, stopped := !s.railHolds isl }) fn stOk)) ∧
      (st ≠ 3 → (s.island isl).power ≠ 3 → (∀ f ∈ s.flights, f.isl ≠ isl) → (st = 2 → (s.island isl).inReset = false) → exec (.pwrReq t fn w) s =
        .next (powerAnswer ((s.at t).modIsl isl fun x => { x with power := st, stopped := decide (st ≠ 0) || !s.railHolds isl }) fn stOk)))) ∧
  (∀ (s : State) (fn st : Nat), powerAnswer s fn st =
    { s with pwr := { s.pwr with pwrRes := put s.pwr.pwrRes fn st, pwrBusy := put s.pwr.pwrBusy fn false } }) ∧
  (∀ (s : State) (t : Time) (isl : Fin 16) (r : Nat × Nat), (s.island isl).retReq = some r →
    ((∀ f ∈ s.flights, f.isl ≠ isl.val) → (s.island isl).inReset = false → exec (.retentionEnter t isl) s = .next (powerAnswer ((s.at t).modIsl isl fun x =>
      { x with power := 2, stopped := true, retReq := none }) r.1 stOk)) ∧
    (r.2 + 10000000 ≤ max s.dt t → exec (.retentionTimeout t isl) s =
      .next (powerAnswer ((s.at t).modIsl isl fun x => { x with retReq := none }) r.1 stNoResource)) ∧
    (max s.dt t < r.2 + 10000000 → exec (.retentionTimeout t isl) s = .next (s.at t))) ∧
  (∀ (s : State) (t : Time) (isl : Fin 16), (s.island isl).power = 1 →
    exec (.clockGatedWake t isl) s = .next ((s.at t).modIsl isl fun x => { x with stopped := false })) ∧
  (∀ (s : State) (t : Time), s.flt.coresUp = true → s.pwr.device = 1 →
    (∃ s', exec (.standbyCycle t) s = .next s' ∧ s'.flt.kicked = true ∧ 
      s'.flt.kickAt = (if s.flt.kicked && max s.dt t = (s.flt.kickAt + 2) * 1000000 then s.flt.kickAt + 1 else max s.dt t / 1000000) ∧
      s' = { s.at t with flt := s'.flt }) ∧
    (s.img ≠ none → s.pwr.wake = true → s.pwr.shut = false →
      (∀ i, 2 ≤ i → i < 16 → i ≠ 5 ∨ s.boot.memcfg = true → s.railHolds i = true) → ∃ s', exec (.standbyExit t) s = .next s' ∧
      s'.pwr.device = 2 ∧ s'.pwr.wake = false ∧ s'.pwr.wokenUp = true ∧ s'.wl.running = true)) ∧
  (∀ v goal : Nat, stepTo v goal ≤ v + 10 ∧ v ≤ stepTo v goal + 10 ∧ (goal ≤ v + 10 → v ≤ goal + 10 → stepTo v goal = goal)) ∧
  (∀ (s : State) (t : Time) (r : Fin 3), s.flt.coresUp = true →
    let set := stepTo (s.rail r).set (s.railGoal r)
    (∀ mv, let s1 := (s.at t).modRail r fun x => { x with set := set, read := mv % 1024 }
      ((set + 10 < mv ∨ mv + 10 < set) → exec (.railStep t r mv) s =
        .next (railReached (report (s1.modRail r fun x => { x with bad := true }) 1 0x0B (decide (r.val = 0))) r)) ∧
      (mv ≤ set + 10 → set ≤ mv + 10 → ((s.rail r).bad = false ∨ r.val ≠ 0) → exec (.railStep t r mv) s =
        .next (railReached (s1.modRail r fun x => { x with bad := false }) r)) ∧
      (mv ≤ set + 10 → set ≤ mv + 10 → (s.rail r).bad = true → r.val = 0 → exec (.railStep t r mv) s =
        .next (railReached (closeLoss (s1.modRail r fun x => { x with bad := false }) 0x010B) r))) ∧
    (∀ s1 : State, (railReached s1 r).pwr.rails = s1.pwr.rails ∧ ∀ i, i < 16 → railOf i = r.val → (s1.island i).power = 0 →
      s1.railHolds i = true → ((railReached s1 r).island i).stopped = false) ∧
    exec (.railReadyTimeout t r) s = .next (report (((s.at t).modRail r fun x => { x with set := set }).modRail r fun x =>
      { x with bad := true }) 1 0x0B (decide (r.val = 0))) ∧
    ∀ amps : Vector (Fin 4096) 3, ∃ s', exec (.railCurrentRead t amps) s = .next s' ∧
      (s'.rail r) = { s.rail r with amps := (amps.get r).val } ∧ s' = { s.at t with pwr := { s.pwr with rails := s'.pwr.rails } }) ∧
  (∀ (s : State) (t : Time) (temps : Vector Int 24),
    let s1 := (s.at t).modPwr fun p => { p with temps := (List.range 24).map fun i => (i, temps.toList.getD i 0) }
    (s.flt.coresUp = true → s.img ≠ none → ∃ s', exec (.thermalCheck t temps) s = .next s' ∧ s'.pwr.temps = s1.pwr.temps ∧
      ((∀ i, i < 24 → temps.toList.getD i 0 < 8 * (s.pwr.throttle : Int) ∧ temps.toList.getD i 0 < 1000) → (∀ i, (s.island i).throttling = false) →
        (∀ i, (s.island i).top ≤ (s.island i).limit) → s' = s1)) ∧
    ((∀ i, i < 24 → temps.toList.getD i 0 < 1000) → exec (.thermalShutdown t temps) s = .next s1) ∧
    ((∃ i, i < 24 ∧ 1000 ≤ temps.toList.getD i 0) → s.boot.porst = false → s.pwr.shut = false →
      ∃ s', exec (.thermalShutdown t temps) s = .next s' ∧ s'.pwr.shut = true ∧ s'.wl.almout = true ∧
        s'.fns = [] ∧ s'.queues = [] ∧ s'.flights = [])) ∧
  (∀ (s : State) (t : Time) (d : Vector Nat 64), s.flt.coresUp = true →
    (∀ i k, i < 16 → k < 4 → (d.toList.getD (4 * i + k) 0) * topBinKhz i (s.island i) ≤ 1000000000 - 30 * topBinKhz i (s.island i)) →
    (∀ i, i < 16 → topBinKhz i (s.island i) ≤ 30000000 ∧ (s.island i).vReq ≤ Config.vInit i) →
    exec (.ageingCheck t d) s = .next (s.at t)) ∧
  (∀ (s : State) (t : Time) (d : Vector Nat 64), s.flt.coresUp = true → ∃ s', exec (.ageingCheck t d) s = .next s' ∧
    ∀ i, i < 16 → s'.island i = (ageStep d.toList (s.at t) i).island i) ∧
  (∀ (s : State) (d : List Nat) (isl : Nat), isl < 16 → ((s.island isl).exhausted = true → ageStep d s isl = s) ∧
    ((s.island isl).exhausted = false → (s.island isl).power < 2 → (2 ≤ isl ∨ s.flt.fatal = false) →
    (∃ k, k < 4 ∧ 1000000000 < (d.getD (4 * isl + k) 0 + 30) * topBinKhz isl (s.island isl)) →
    ∃ m, ageStep d s isl =
      if (s.island isl).vReq + 5 ≤ vCeil isl then
        report (s.modIsl isl fun x => { x with vReq := x.vReq + 5, lastRaise := s.dt }) isl 0x08
      else if fFloor isl + 50 ≤ (s.island isl).top then
        writeRecord (sendManagers (report (s.modIsl isl fun x => { x with top := x.top - 50 }) isl 0x09) 1 0x0F86 isl
          ((s.island isl).top - 50) m)
      else report (s.modIsl isl fun x => { x with exhausted := true }) isl 0x0A)) ∧
  ∀ (s : State) (t : Time), s.smbOpen = true →
    (∀ e ∈ [(0x01, Instr.smbBootStat t false), (0x02, .smbFltStat t false), (0x03, .smbTempMax t false), (0x10, .smbStandby t false),
      (0x11, .smbRun t false)], exec e.2 s = .next ((s.at t).emit (.smbusNak e.1))) ∧
    exec (.smbBootStat t true) s = .next ((s.at t).emit (.smbus (leBytes 4 (bootStatWord s.boot)))) ∧
    exec (.smbFltStat t true) s = .next ((s.at t).emit (.smbus (leBytes 4 (if s.boot.comp < 2 then 1 else fltStatWord s.flt)))) ∧
    (∃ v : Int, (∀ i, i < 24 → s.temp i ≤ v) ∧ (∃ i, i < 24 ∧ s.temp i = v) ∧
      exec (.smbTempMax t true) s = .next ((s.at t).emit (.smbus (leBytes 2 (v % 2 ^ 12).toNat)))) ∧
    (∀ im, s.img = some im → im.standbySmbus = true →
      exec (.smbStandby t true) s = .next (enterStandby ((s.at t).emit (.smbus [])))) ∧
    ((∀ im, s.img = some im → im.standbySmbus = false) → exec (.smbStandby t true) s = .next ((s.at t).emit (.smbusNak 0x10))) ∧
    (s.pwr.device ≠ 1 → exec (.smbRun t true) s = .next (((s.at t).emit (.smbus [])).modPwr fun p => { p with wakeEvt := some (max s.dt t) })) ∧
    (s.pwr.device = 1 → ∃ s', exec (.smbRun t true) s = .next s' ∧ s'.pwr.wake = true) ∧
    (s.flt.pin = true → s.boot.loadAt ≠ none → exec (.smbAlertResponse t) s = .next ((s.at t).emit (.smbus [0x4A#8]))) ∧
    ((s.flt.pin = false ∨ s.boot.loadAt = none) → exec (.smbAlertResponse t) s = .next (s.at t))
end

