-- ==== Sys2Proof/Laws/State.lean ====
section
/-! SUPPORT. Tables (what an entry reads after a write), and for each update of Machine/Ops.lean one lemma per field and
per accessor that it leaves alone, true by rfl. -/

namespace Sys2Proof.Machine

/-! ### Tables -/

@[simp] theorem look_nil {α : Type} (k : Nat) (d : α) : look ([] : Tbl α) k d = d := rfl

@[simp] theorem look_put {α : Type} (t : Tbl α) (k : Nat) (v d : α) : look (put t k v) k d = v := by
  induction t with
  | nil => simp [put, look]
  | cons e r ih =>
    obtain ⟨j, w⟩ := e
    by_cases h : j = k <;> simp [put, look, h, ih]

theorem look_put_ne {α : Type} (t : Tbl α) {k j : Nat} (v d : α) (h : j ≠ k) : look (put t k v) j d = look t j d := by
  induction t with
  | nil => simp [put, look, Ne.symm h]
  | cons e r ih =>
    obtain ⟨i, w⟩ := e
    by_cases hk : i = k
    · subst hk; simp [put, look, Ne.symm h]
    · by_cases hj : i = j <;> simp_all [put, look]

theorem look_put_if {α : Type} (t : Tbl α) (k j : Nat) (v d : α) :
    look (put t k v) j d = if j = k then v else look t j d := by
  by_cases h : j = k
  · subst h; simp
  · simp [h, look_put_ne t v d h]

/-! ### modIsl -/

@[simp] theorem modIsl_dt (s : State) (i : Nat) (f : Island → Island) : (s.modIsl i f).dt = s.dt := rfl
@[simp] theorem modIsl_time (s : State) (i : Nat) (f : Island → Island) : (s.modIsl i f).time = s.time := rfl
@[simp] theorem modIsl_img (s : State) (i : Nat) (f : Island → Island) : (s.modIsl i f).img = s.img := rfl
@[simp] theorem modIsl_fns (s : State) (i : Nat) (f : Island → Island) : (s.modIsl i f).fns = s.fns := rfl
@[simp] theorem modIsl_queues (s : State) (i : Nat) (f : Island → Island) : (s.modIsl i f).queues = s.queues := rfl
@[simp] theorem modIsl_flights (s : State) (i : Nat) (f : Island → Island) : (s.modIsl i f).flights = s.flights := rfl
@[simp] theorem modIsl_nextId (s : State) (i : Nat) (f : Island → Island) : (s.modIsl i f).nextId = s.nextId := rfl
@[simp] theorem modIsl_ports (s : State) (i : Nat) (f : Island → Island) : (s.modIsl i f).ports = s.ports := rfl
@[simp] theorem modIsl_grpDrop (s : State) (i : Nat) (f : Island → Island) : (s.modIsl i f).grpDrop = s.grpDrop := rfl
@[simp] theorem modIsl_hdDrop (s : State) (i : Nat) (f : Island → Island) : (s.modIsl i f).hdDrop = s.hdDrop := rfl
@[simp] theorem modIsl_heads (s : State) (i : Nat) (f : Island → Island) : (s.modIsl i f).heads = s.heads := rfl
@[simp] theorem modIsl_slots (s : State) (i : Nat) (f : Island → Island) : (s.modIsl i f).slots = s.slots := rfl
@[simp] theorem modIsl_safe (s : State) (i : Nat) (f : Island → Island) : (s.modIsl i f).safe = s.safe := rfl
@[simp] theorem modIsl_pairs (s : State) (i : Nat) (f : Island → Island) : (s.modIsl i f).pairs = s.pairs := rfl
@[simp] theorem modIsl_store (s : State) (i : Nat) (f : Island → Island) : (s.modIsl i f).store = s.store := rfl
@[simp] theorem modIsl_wl (s : State) (i : Nat) (f : Island → Island) : (s.modIsl i f).wl = s.wl := rfl
@[simp] theorem modIsl_chand (s : State) (i : Nat) (f : Island → Island) : (s.modIsl i f).chand = s.chand := rfl
@[simp] theorem modIsl_mem (s : State) (i : Nat) (f : Island → Island) : (s.modIsl i f).mem = s.mem := rfl
@[simp] theorem modIsl_fab (s : State) (i : Nat) (f : Island → Island) : (s.modIsl i f).fab = s.fab := rfl
@[simp] theorem modIsl_media (s : State) (i : Nat) (f : Island → Island) : (s.modIsl i f).media = s.media := rfl
@[simp] theorem modIsl_net (s : State) (i : Nat) (f : Island → Island) : (s.modIsl i f).net = s.net := rfl
@[simp] theorem modIsl_audio (s : State) (i : Nat) (f : Island → Island) : (s.modIsl i f).audio = s.audio := rfl
@[simp] theorem modIsl_sense (s : State) (i : Nat) (f : Island → Island) : (s.modIsl i f).sense = s.sense := rfl
@[simp] theorem modIsl_lan (s : State) (i : Nat) (f : Island → Island) : (s.modIsl i f).lan = s.lan := rfl
@[simp] theorem modIsl_flt (s : State) (i : Nat) (f : Island → Island) : (s.modIsl i f).flt = s.flt := rfl
@[simp] theorem modIsl_pwr (s : State) (i : Nat) (f : Island → Island) : (s.modIsl i f).pwr = s.pwr := rfl
@[simp] theorem modIsl_boot (s : State) (i : Nat) (f : Island → Island) : (s.modIsl i f).boot = s.boot := rfl
@[simp] theorem modIsl_draws (s : State) (i : Nat) (f : Island → Island) : (s.modIsl i f).draws = s.draws := rfl
@[simp] theorem modIsl_out (s : State) (i : Nat) (f : Island → Island) : (s.modIsl i f).out = s.out := rfl
@[simp] theorem modIsl_pending (s : State) (i : Nat) (f : Island → Island) : (s.modIsl i f).pending = s.pending := rfl
@[simp] theorem modIsl_island (s : State) (i : Nat) (f : Island → Island) : (s.modIsl i f).island i = f (s.island i) := look_put _ _ _ _
theorem modIsl_island_ne (s : State) (i : Nat) (f : Island → Island) {j : Nat} (h' : j ≠ i) : (s.modIsl i f).island j = s.island j := look_put_ne _ _ _ h'
@[simp] theorem modIsl_fnc (s : State) (i : Nat) (f : Island → Island) (i' : Nat) : (s.modIsl i f).fnc i' = s.fnc i' := rfl
@[simp] theorem modIsl_que (s : State) (i : Nat) (f : Island → Island) (fn q : Nat) : (s.modIsl i f).que fn q = s.que fn q := rfl
@[simp] theorem modIsl_port (s : State) (i : Nat) (f : Island → Island) (p : Nat) : (s.modIsl i f).port p = s.port p := rfl
@[simp] theorem modIsl_head (s : State) (i : Nat) (f : Island → Island) (h : Nat) : (s.modIsl i f).head h = s.head h := rfl
@[simp] theorem modIsl_slotOf (s : State) (i : Nat) (f : Island → Island) (n : Nat) : (s.modIsl i f).slotOf n = s.slotOf n := rfl
@[simp] theorem modIsl_safeOf (s : State) (i : Nat) (f : Island → Island) (h : Nat) : (s.modIsl i f).safeOf h = s.safeOf h := rfl
@[simp] theorem modIsl_pair (s : State) (i : Nat) (f : Island → Island) (p : Nat) : (s.modIsl i f).pair p = s.pair p := rfl
@[simp] theorem modIsl_ruleSt (s : State) (i : Nat) (f : Island → Island) (r : Nat) : (s.modIsl i f).ruleSt r = s.ruleSt r := rfl
@[simp] theorem modIsl_sigOf (s : State) (i : Nat) (f : Island → Island) (n : Nat) : (s.modIsl i f).sigOf n = s.sigOf n := rfl
@[simp] theorem modIsl_ctx (s : State) (i : Nat) (f : Island → Island) (c : Nat) : (s.modIsl i f).ctx c = s.ctx c := rfl
@[simp] theorem modIsl_taper (s : State) (i : Nat) (f : Island → Island) (t : Nat) : (s.modIsl i f).taper t = s.taper t := rfl
@[simp] theorem modIsl_chan (s : State) (i : Nat) (f : Island → Island) (c : Nat) : (s.modIsl i f).chan c = s.chan c := rfl
@[simp] theorem modIsl_part (s : State) (i : Nat) (f : Island → Island) (p : Nat) : (s.modIsl i f).part p = s.part p := rfl
@[simp] theorem modIsl_target (s : State) (i : Nat) (f : Island → Island) (t : Nat) : (s.modIsl i f).target t = s.target t := rfl
@[simp] theorem modIsl_slotTab (s : State) (i : Nat) (f : Island → Island) (i' : Nat) : (s.modIsl i f).slotTab i' = s.slotTab i' := rfl
@[simp] theorem modIsl_lock (s : State) (i : Nat) (f : Island → Island) (n : Nat) : (s.modIsl i f).lock n = s.lock n := rfl
@[simp] theorem modIsl_csi (s : State) (i : Nat) (f : Island → Island) (p : Nat) : (s.modIsl i f).csi p = s.csi p := rfl
@[simp] theorem modIsl_ptp (s : State) (i : Nat) (f : Island → Island) (d : Nat) : (s.modIsl i f).ptp d = s.ptp d := rfl
@[simp] theorem modIsl_eport (s : State) (i : Nat) (f : Island → Island) (p : Nat) : (s.modIsl i f).eport p = s.eport p := rfl
@[simp] theorem modIsl_gcl (s : State) (i : Nat) (f : Island → Island) (p : Nat) : (s.modIsl i f).gcl p = s.gcl p := rfl
@[simp] theorem modIsl_can (s : State) (i : Nat) (f : Island → Island) (n : Nat) : (s.modIsl i f).can n = s.can n := rfl
@[simp] theorem modIsl_tdm (s : State) (i : Nat) (f : Island → Island) (p : Nat) : (s.modIsl i f).tdm p = s.tdm p := rfl
@[simp] theorem modIsl_safeLoad (s : State) (i : Nat) (f : Island → Island) (fn : Nat) : (s.modIsl i f).safeLoad fn = s.safeLoad fn := rfl
@[simp] theorem modIsl_panel (s : State) (i : Nat) (f : Island → Island) (p : Nat) : (s.modIsl i f).panel p = s.panel p := rfl
@[simp] theorem modIsl_obj (s : State) (i : Nat) (f : Island → Island) (o : Nat) : (s.modIsl i f).obj o = s.obj o := rfl
@[simp] theorem modIsl_hap (s : State) (i : Nat) (f : Island → Island) (n : Nat) : (s.modIsl i f).hap n = s.hap n := rfl
@[simp] theorem modIsl_mbox (s : State) (i : Nat) (f : Island → Island) (m : Nat) : (s.modIsl i f).mbox m = s.mbox m := rfl
@[simp] theorem modIsl_rail (s : State) (i : Nat) (f : Island → Island) (r : Nat) : (s.modIsl i f).rail r = s.rail r := rfl
@[simp] theorem modIsl_fence (s : State) (i : Nat) (f : Island → Island) (fn n : Nat) : (s.modIsl i f).fence fn n = s.fence fn n := rfl
@[simp] theorem modIsl_mayWrite (s : State) (i : Nat) (f : Island → Island) (fn' grp' : Nat) : (s.modIsl i f).mayWrite fn' grp' = s.mayWrite fn' grp' := rfl

/-! ### modFn -/

@[simp] theorem modFn_dt (s : State) (i : Nat) (f : Func → Func) : (s.modFn i f).dt = s.dt := rfl
@[simp] theorem modFn_time (s : State) (i : Nat) (f : Func → Func) : (s.modFn i f).time = s.time := rfl
@[simp] theorem modFn_isl (s : State) (i : Nat) (f : Func → Func) : (s.modFn i f).isl = s.isl := rfl
@[simp] theorem modFn_img (s : State) (i : Nat) (f : Func → Func) : (s.modFn i f).img = s.img := rfl
@[simp] theorem modFn_queues (s : State) (i : Nat) (f : Func → Func) : (s.modFn i f).queues = s.queues := rfl
@[simp] theorem modFn_flights (s : State) (i : Nat) (f : Func → Func) : (s.modFn i f).flights = s.flights := rfl
@[simp] theorem modFn_nextId (s : State) (i : Nat) (f : Func → Func) : (s.modFn i f).nextId = s.nextId := rfl
@[simp] theorem modFn_ports (s : State) (i : Nat) (f : Func → Func) : (s.modFn i f).ports = s.ports := rfl
@[simp] theorem modFn_grpDrop (s : State) (i : Nat) (f : Func → Func) : (s.modFn i f).grpDrop = s.grpDrop := rfl
@[simp] theorem modFn_hdDrop (s : State) (i : Nat) (f : Func → Func) : (s.modFn i f).hdDrop = s.hdDrop := rfl
@[simp] theorem modFn_heads (s : State) (i : Nat) (f : Func → Func) : (s.modFn i f).heads = s.heads := rfl
@[simp] theorem modFn_slots (s : State) (i : Nat) (f : Func → Func) : (s.modFn i f).slots = s.slots := rfl
@[simp] theorem modFn_safe (s : State) (i : Nat) (f : Func → Func) : (s.modFn i f).safe = s.safe := rfl
@[simp] theorem modFn_pairs (s : State) (i : Nat) (f : Func → Func) : (s.modFn i f).pairs = s.pairs := rfl
@[simp] theorem modFn_store (s : State) (i : Nat) (f : Func → Func) : (s.modFn i f).store = s.store := rfl
@[simp] theorem modFn_wl (s : State) (i : Nat) (f : Func → Func) : (s.modFn i f).wl = s.wl := rfl
@[simp] theorem modFn_chand (s : State) (i : Nat) (f : Func → Func) : (s.modFn i f).chand = s.chand := rfl
@[simp] theorem modFn_mem (s : State) (i : Nat) (f : Func → Func) : (s.modFn i f).mem = s.mem := rfl
@[simp] theorem modFn_fab (s : State) (i : Nat) (f : Func → Func) : (s.modFn i f).fab = s.fab := rfl
@[simp] theorem modFn_media (s : State) (i : Nat) (f : Func → Func) : (s.modFn i f).media = s.media := rfl
@[simp] theorem modFn_net (s : State) (i : Nat) (f : Func → Func) : (s.modFn i f).net = s.net := rfl
@[simp] theorem modFn_audio (s : State) (i : Nat) (f : Func → Func) : (s.modFn i f).audio = s.audio := rfl
@[simp] theorem modFn_sense (s : State) (i : Nat) (f : Func → Func) : (s.modFn i f).sense = s.sense := rfl
@[simp] theorem modFn_lan (s : State) (i : Nat) (f : Func → Func) : (s.modFn i f).lan = s.lan := rfl
@[simp] theorem modFn_flt (s : State) (i : Nat) (f : Func → Func) : (s.modFn i f).flt = s.flt := rfl
@[simp] theorem modFn_pwr (s : State) (i : Nat) (f : Func → Func) : (s.modFn i f).pwr = s.pwr := rfl
@[simp] theorem modFn_boot (s : State) (i : Nat) (f : Func → Func) : (s.modFn i f).boot = s.boot := rfl
@[simp] theorem modFn_draws (s : State) (i : Nat) (f : Func → Func) : (s.modFn i f).draws = s.draws := rfl
@[simp] theorem modFn_out (s : State) (i : Nat) (f : Func → Func) : (s.modFn i f).out = s.out := rfl
@[simp] theorem modFn_pending (s : State) (i : Nat) (f : Func → Func) : (s.modFn i f).pending = s.pending := rfl
@[simp] theorem modFn_island (s : State) (i : Nat) (f : Func → Func) (i' : Nat) : (s.modFn i f).island i' = s.island i' := rfl
@[simp] theorem modFn_fnc (s : State) (i : Nat) (f : Func → Func) : (s.modFn i f).fnc i = f (s.fnc i) := look_put _ _ _ _
theorem modFn_fnc_ne (s : State) (i : Nat) (f : Func → Func) {j : Nat} (h' : j ≠ i) : (s.modFn i f).fnc j = s.fnc j := look_put_ne _ _ _ h'
@[simp] theorem modFn_que (s : State) (i : Nat) (f : Func → Func) (fn q : Nat) : (s.modFn i f).que fn q = s.que fn q := rfl
@[simp] theorem modFn_port (s : State) (i : Nat) (f : Func → Func) (p : Nat) : (s.modFn i f).port p = s.port p := rfl
@[simp] theorem modFn_head (s : State) (i : Nat) (f : Func → Func) (h : Nat) : (s.modFn i f).head h = s.head h := rfl
@[simp] theorem modFn_slotOf (s : State) (i : Nat) (f : Func → Func) (n : Nat) : (s.modFn i f).slotOf n = s.slotOf n := rfl
@[simp] theorem modFn_safeOf (s : State) (i : Nat) (f : Func → Func) (h : Nat) : (s.modFn i f).safeOf h = s.safeOf h := rfl
@[simp] theorem modFn_pair (s : State) (i : Nat) (f : Func → Func) (p : Nat) : (s.modFn i f).pair p = s.pair p := rfl
@[simp] theorem modFn_ruleSt (s : State) (i : Nat) (f : Func → Func) (r : Nat) : (s.modFn i f).ruleSt r = s.ruleSt r := rfl
@[simp] theorem modFn_sigOf (s : State) (i : Nat) (f : Func → Func) (n : Nat) : (s.modFn i f).sigOf n = s.sigOf n := rfl
@[simp] theorem modFn_ctx (s : State) (i : Nat) (f : Func → Func) (c : Nat) : (s.modFn i f).ctx c = s.ctx c := rfl
@[simp] theorem modFn_taper (s : State) (i : Nat) (f : Func → Func) (t : Nat) : (s.modFn i f).taper t = s.taper t := rfl
@[simp] theorem modFn_chan (s : State) (i : Nat) (f : Func → Func) (c : Nat) : (s.modFn i f).chan c = s.chan c := rfl
@[simp] theorem modFn_part (s : State) (i : Nat) (f : Func → Func) (p : Nat) : (s.modFn i f).part p = s.part p := rfl
@[simp] theorem modFn_target (s : State) (i : Nat) (f : Func → Func) (t : Nat) : (s.modFn i f).target t = s.target t := rfl
@[simp] theorem modFn_slotTab (s : State) (i : Nat) (f : Func → Func) (i' : Nat) : (s.modFn i f).slotTab i' = s.slotTab i' := rfl
@[simp] theorem modFn_lock (s : State) (i : Nat) (f : Func → Func) (n : Nat) : (s.modFn i f).lock n = s.lock n := rfl
@[simp] theorem modFn_csi (s : State) (i : Nat) (f : Func → Func) (p : Nat) : (s.modFn i f).csi p = s.csi p := rfl
@[simp] theorem modFn_ptp (s : State) (i : Nat) (f : Func → Func) (d : Nat) : (s.modFn i f).ptp d = s.ptp d := rfl
@[simp] theorem modFn_eport (s : State) (i : Nat) (f : Func → Func) (p : Nat) : (s.modFn i f).eport p = s.eport p := rfl
@[simp] theorem modFn_gcl (s : State) (i : Nat) (f : Func → Func) (p : Nat) : (s.modFn i f).gcl p = s.gcl p := rfl
@[simp] theorem modFn_can (s : State) (i : Nat) (f : Func → Func) (n : Nat) : (s.modFn i f).can n = s.can n := rfl
@[simp] theorem modFn_tdm (s : State) (i : Nat) (f : Func → Func) (p : Nat) : (s.modFn i f).tdm p = s.tdm p := rfl
@[simp] theorem modFn_safeLoad (s : State) (i : Nat) (f : Func → Func) (fn : Nat) : (s.modFn i f).safeLoad fn = s.safeLoad fn := rfl
@[simp] theorem modFn_panel (s : State) (i : Nat) (f : Func → Func) (p : Nat) : (s.modFn i f).panel p = s.panel p := rfl
@[simp] theorem modFn_obj (s : State) (i : Nat) (f : Func → Func) (o : Nat) : (s.modFn i f).obj o = s.obj o := rfl
@[simp] theorem modFn_hap (s : State) (i : Nat) (f : Func → Func) (n : Nat) : (s.modFn i f).hap n = s.hap n := rfl
@[simp] theorem modFn_mbox (s : State) (i : Nat) (f : Func → Func) (m : Nat) : (s.modFn i f).mbox m = s.mbox m := rfl
@[simp] theorem modFn_rail (s : State) (i : Nat) (f : Func → Func) (r : Nat) : (s.modFn i f).rail r = s.rail r := rfl
@[simp] theorem modFn_fence (s : State) (i : Nat) (f : Func → Func) (fn n : Nat) : (s.modFn i f).fence fn n = s.fence fn n := rfl
@[simp] theorem modFn_up (s : State) (i : Nat) (f : Func → Func) (i' : Nat) : (s.modFn i f).up i' = s.up i' := rfl
@[simp] theorem modFn_stamp (s : State) (i : Nat) (f : Func → Func) (i' : Nat) : (s.modFn i f).stamp i' = s.stamp i' := rfl
@[simp] theorem modFn_mayWrite (s : State) (i : Nat) (f : Func → Func) (fn' grp' : Nat) : (s.modFn i f).mayWrite fn' grp' = s.mayWrite fn' grp' := rfl

/-! ### modQ -/

@[simp] theorem modQ_dt (s : State) (fn q : Nat) (f : Queue → Queue) : (s.modQ fn q f).dt = s.dt := rfl
@[simp] theorem modQ_time (s : State) (fn q : Nat) (f : Queue → Queue) : (s.modQ fn q f).time = s.time := rfl
@[simp] theorem modQ_isl (s : State) (fn q : Nat) (f : Queue → Queue) : (s.modQ fn q f).isl = s.isl := rfl
@[simp] theorem modQ_img (s : State) (fn q : Nat) (f : Queue → Queue) : (s.modQ fn q f).img = s.img := rfl
@[simp] theorem modQ_fns (s : State) (fn q : Nat) (f : Queue → Queue) : (s.modQ fn q f).fns = s.fns := rfl
@[simp] theorem modQ_flights (s : State) (fn q : Nat) (f : Queue → Queue) : (s.modQ fn q f).flights = s.flights := rfl
@[simp] theorem modQ_nextId (s : State) (fn q : Nat) (f : Queue → Queue) : (s.modQ fn q f).nextId = s.nextId := rfl
@[simp] theorem modQ_ports (s : State) (fn q : Nat) (f : Queue → Queue) : (s.modQ fn q f).ports = s.ports := rfl
@[simp] theorem modQ_grpDrop (s : State) (fn q : Nat) (f : Queue → Queue) : (s.modQ fn q f).grpDrop = s.grpDrop := rfl
@[simp] theorem modQ_hdDrop (s : State) (fn q : Nat) (f : Queue → Queue) : (s.modQ fn q f).hdDrop = s.hdDrop := rfl
@[simp] theorem modQ_heads (s : State) (fn q : Nat) (f : Queue → Queue) : (s.modQ fn q f).heads = s.heads := rfl
@[simp] theorem modQ_slots (s : State) (fn q : Nat) (f : Queue → Queue) : (s.modQ fn q f).slots = s.slots := rfl
@[simp] theorem modQ_safe (s : State) (fn q : Nat) (f : Queue → Queue) : (s.modQ fn q f).safe = s.safe := rfl
@[simp] theorem modQ_pairs (s : State) (fn q : Nat) (f : Queue → Queue) : (s.modQ fn q f).pairs = s.pairs := rfl
@[simp] theorem modQ_store (s : State) (fn q : Nat) (f : Queue → Queue) : (s.modQ fn q f).store = s.store := rfl
@[simp] theorem modQ_wl (s : State) (fn q : Nat) (f : Queue → Queue) : (s.modQ fn q f).wl = s.wl := rfl
@[simp] theorem modQ_chand (s : State) (fn q : Nat) (f : Queue → Queue) : (s.modQ fn q f).chand = s.chand := rfl
@[simp] theorem modQ_mem (s : State) (fn q : Nat) (f : Queue → Queue) : (s.modQ fn q f).mem = s.mem := rfl
@[simp] theorem modQ_fab (s : State) (fn q : Nat) (f : Queue → Queue) : (s.modQ fn q f).fab = s.fab := rfl
@[simp] theorem modQ_media (s : State) (fn q : Nat) (f : Queue → Queue) : (s.modQ fn q f).media = s.media := rfl
@[simp] theorem modQ_net (s : State) (fn q : Nat) (f : Queue → Queue) : (s.modQ fn q f).net = s.net := rfl
@[simp] theorem modQ_audio (s : State) (fn q : Nat) (f : Queue → Queue) : (s.modQ fn q f).audio = s.audio := rfl
@[simp] theorem modQ_sense (s : State) (fn q : Nat) (f : Queue → Queue) : (s.modQ fn q f).sense = s.sense := rfl
@[simp] theorem modQ_lan (s : State) (fn q : Nat) (f : Queue → Queue) : (s.modQ fn q f).lan = s.lan := rfl
@[simp] theorem modQ_flt (s : State) (fn q : Nat) (f : Queue → Queue) : (s.modQ fn q f).flt = s.flt := rfl
@[simp] theorem modQ_pwr (s : State) (fn q : Nat) (f : Queue → Queue) : (s.modQ fn q f).pwr = s.pwr := rfl
@[simp] theorem modQ_boot (s : State) (fn q : Nat) (f : Queue → Queue) : (s.modQ fn q f).boot = s.boot := rfl
@[simp] theorem modQ_draws (s : State) (fn q : Nat) (f : Queue → Queue) : (s.modQ fn q f).draws = s.draws := rfl
@[simp] theorem modQ_out (s : State) (fn q : Nat) (f : Queue → Queue) : (s.modQ fn q f).out = s.out := rfl
@[simp] theorem modQ_pending (s : State) (fn q : Nat) (f : Queue → Queue) : (s.modQ fn q f).pending = s.pending := rfl
@[simp] theorem modQ_island (s : State) (fn q : Nat) (f : Queue → Queue) (i : Nat) : (s.modQ fn q f).island i = s.island i := rfl
@[simp] theorem modQ_fnc (s : State) (fn q : Nat) (f : Queue → Queue) (i : Nat) : (s.modQ fn q f).fnc i = s.fnc i := rfl
@[simp] theorem modQ_que (s : State) (fn q : Nat) (f : Queue → Queue) : (s.modQ fn q f).que fn q = f (s.que fn q) := look_put _ _ _ _
@[simp] theorem modQ_port (s : State) (fn q : Nat) (f : Queue → Queue) (p : Nat) : (s.modQ fn q f).port p = s.port p := rfl
@[simp] theorem modQ_head (s : State) (fn q : Nat) (f : Queue → Queue) (h : Nat) : (s.modQ fn q f).head h = s.head h := rfl
@[simp] theorem modQ_slotOf (s : State) (fn q : Nat) (f : Queue → Queue) (n : Nat) : (s.modQ fn q f).slotOf n = s.slotOf n := rfl
@[simp] theorem modQ_safeOf (s : State) (fn q : Nat) (f : Queue → Queue) (h : Nat) : (s.modQ fn q f).safeOf h = s.safeOf h := rfl
@[simp] theorem modQ_pair (s : State) (fn q : Nat) (f : Queue → Queue) (p : Nat) : (s.modQ fn q f).pair p = s.pair p := rfl
@[simp] theorem modQ_ruleSt (s : State) (fn q : Nat) (f : Queue → Queue) (r : Nat) : (s.modQ fn q f).ruleSt r = s.ruleSt r := rfl
@[simp] theorem modQ_sigOf (s : State) (fn q : Nat) (f : Queue → Queue) (n : Nat) : (s.modQ fn q f).sigOf n = s.sigOf n := rfl
@[simp] theorem modQ_ctx (s : State) (fn q : Nat) (f : Queue → Queue) (c : Nat) : (s.modQ fn q f).ctx c = s.ctx c := rfl
@[simp] theorem modQ_taper (s : State) (fn q : Nat) (f : Queue → Queue) (t : Nat) : (s.modQ fn q f).taper t = s.taper t := rfl
@[simp] theorem modQ_chan (s : State) (fn q : Nat) (f : Queue → Queue) (c : Nat) : (s.modQ fn q f).chan c = s.chan c := rfl
@[simp] theorem modQ_part (s : State) (fn q : Nat) (f : Queue → Queue) (p : Nat) : (s.modQ fn q f).part p = s.part p := rfl
@[simp] theorem modQ_target (s : State) (fn q : Nat) (f : Queue → Queue) (t : Nat) : (s.modQ fn q f).target t = s.target t := rfl
@[simp] theorem modQ_slotTab (s : State) (fn q : Nat) (f : Queue → Queue) (i : Nat) : (s.modQ fn q f).slotTab i = s.slotTab i := rfl
@[simp] theorem modQ_lock (s : State) (fn q : Nat) (f : Queue → Queue) (n : Nat) : (s.modQ fn q f).lock n = s.lock n := rfl
@[simp] theorem modQ_csi (s : State) (fn q : Nat) (f : Queue → Queue) (p : Nat) : (s.modQ fn q f).csi p = s.csi p := rfl
@[simp] theorem modQ_ptp (s : State) (fn q : Nat) (f : Queue → Queue) (d : Nat) : (s.modQ fn q f).ptp d = s.ptp d := rfl
@[simp] theorem modQ_eport (s : State) (fn q : Nat) (f : Queue → Queue) (p : Nat) : (s.modQ fn q f).eport p = s.eport p := rfl
@[simp] theorem modQ_gcl (s : State) (fn q : Nat) (f : Queue → Queue) (p : Nat) : (s.modQ fn q f).gcl p = s.gcl p := rfl
@[simp] theorem modQ_can (s : State) (fn q : Nat) (f : Queue → Queue) (n : Nat) : (s.modQ fn q f).can n = s.can n := rfl
@[simp] theorem modQ_tdm (s : State) (fn q : Nat) (f : Queue → Queue) (p : Nat) : (s.modQ fn q f).tdm p = s.tdm p := rfl
@[simp] theorem modQ_safeLoad (s : State) (fn q : Nat) (f : Queue → Queue) (fn' : Nat) : (s.modQ fn q f).safeLoad fn' = s.safeLoad fn' := rfl
@[simp] theorem modQ_panel (s : State) (fn q : Nat) (f : Queue → Queue) (p : Nat) : (s.modQ fn q f).panel p = s.panel p := rfl
@[simp] theorem modQ_obj (s : State) (fn q : Nat) (f : Queue → Queue) (o : Nat) : (s.modQ fn q f).obj o = s.obj o := rfl
@[simp] theorem modQ_hap (s : State) (fn q : Nat) (f : Queue → Queue) (n : Nat) : (s.modQ fn q f).hap n = s.hap n := rfl
@[simp] theorem modQ_mbox (s : State) (fn q : Nat) (f : Queue → Queue) (m : Nat) : (s.modQ fn q f).mbox m = s.mbox m := rfl
@[simp] theorem modQ_rail (s : State) (fn q : Nat) (f : Queue → Queue) (r : Nat) : (s.modQ fn q f).rail r = s.rail r := rfl
@[simp] theorem modQ_fence (s : State) (fn q : Nat) (f : Queue → Queue) (fn' n : Nat) : (s.modQ fn q f).fence fn' n = s.fence fn' n := rfl
@[simp] theorem modQ_up (s : State) (fn q : Nat) (f : Queue → Queue) (i' : Nat) : (s.modQ fn q f).up i' = s.up i' := rfl
@[simp] theorem modQ_stamp (s : State) (fn q : Nat) (f : Queue → Queue) (i' : Nat) : (s.modQ fn q f).stamp i' = s.stamp i' := rfl
@[simp] theorem modQ_mayWrite (s : State) (fn q : Nat) (f : Queue → Queue) (fn' grp' : Nat) : (s.modQ fn q f).mayWrite fn' grp' = s.mayWrite fn' grp' := rfl

/-! ### modPort -/

@[simp] theorem modPort_dt (s : State) (p : Nat) (f : Port → Port) : (s.modPort p f).dt = s.dt := rfl
@[simp] theorem modPort_time (s : State) (p : Nat) (f : Port → Port) : (s.modPort p f).time = s.time := rfl
@[simp] theorem modPort_isl (s : State) (p : Nat) (f : Port → Port) : (s.modPort p f).isl = s.isl := rfl
@[simp] theorem modPort_img (s : State) (p : Nat) (f : Port → Port) : (s.modPort p f).img = s.img := rfl
@[simp] theorem modPort_fns (s : State) (p : Nat) (f : Port → Port) : (s.modPort p f).fns = s.fns := rfl
@[simp] theorem modPort_queues (s : State) (p : Nat) (f : Port → Port) : (s.modPort p f).queues = s.queues := rfl
@[simp] theorem modPort_flights (s : State) (p : Nat) (f : Port → Port) : (s.modPort p f).flights = s.flights := rfl
@[simp] theorem modPort_nextId (s : State) (p : Nat) (f : Port → Port) : (s.modPort p f).nextId = s.nextId := rfl
@[simp] theorem modPort_grpDrop (s : State) (p : Nat) (f : Port → Port) : (s.modPort p f).grpDrop = s.grpDrop := rfl
@[simp] theorem modPort_hdDrop (s : State) (p : Nat) (f : Port → Port) : (s.modPort p f).hdDrop = s.hdDrop := rfl
@[simp] theorem modPort_heads (s : State) (p : Nat) (f : Port → Port) : (s.modPort p f).heads = s.heads := rfl
@[simp] theorem modPort_slots (s : State) (p : Nat) (f : Port → Port) : (s.modPort p f).slots = s.slots := rfl
@[simp] theorem modPort_safe (s : State) (p : Nat) (f : Port → Port) : (s.modPort p f).safe = s.safe := rfl
@[simp] theorem modPort_pairs (s : State) (p : Nat) (f : Port → Port) : (s.modPort p f).pairs = s.pairs := rfl
@[simp] theorem modPort_store (s : State) (p : Nat) (f : Port → Port) : (s.modPort p f).store = s.store := rfl
@[simp] theorem modPort_wl (s : State) (p : Nat) (f : Port → Port) : (s.modPort p f).wl = s.wl := rfl
@[simp] theorem modPort_chand (s : State) (p : Nat) (f : Port → Port) : (s.modPort p f).chand = s.chand := rfl
@[simp] theorem modPort_mem (s : State) (p : Nat) (f : Port → Port) : (s.modPort p f).mem = s.mem := rfl
@[simp] theorem modPort_fab (s : State) (p : Nat) (f : Port → Port) : (s.modPort p f).fab = s.fab := rfl
@[simp] theorem modPort_media (s : State) (p : Nat) (f : Port → Port) : (s.modPort p f).media = s.media := rfl
@[simp] theorem modPort_net (s : State) (p : Nat) (f : Port → Port) : (s.modPort p f).net = s.net := rfl
@[simp] theorem modPort_audio (s : State) (p : Nat) (f : Port → Port) : (s.modPort p f).audio = s.audio := rfl
@[simp] theorem modPort_sense (s : State) (p : Nat) (f : Port → Port) : (s.modPort p f).sense = s.sense := rfl
@[simp] theorem modPort_lan (s : State) (p : Nat) (f : Port → Port) : (s.modPort p f).lan = s.lan := rfl
@[simp] theorem modPort_flt (s : State) (p : Nat) (f : Port → Port) : (s.modPort p f).flt = s.flt := rfl
@[simp] theorem modPort_pwr (s : State) (p : Nat) (f : Port → Port) : (s.modPort p f).pwr = s.pwr := rfl
@[simp] theorem modPort_boot (s : State) (p : Nat) (f : Port → Port) : (s.modPort p f).boot = s.boot := rfl
@[simp] theorem modPort_draws (s : State) (p : Nat) (f : Port → Port) : (s.modPort p f).draws = s.draws := rfl
@[simp] theorem modPort_out (s : State) (p : Nat) (f : Port → Port) : (s.modPort p f).out = s.out := rfl
@[simp] theorem modPort_pending (s : State) (p : Nat) (f : Port → Port) : (s.modPort p f).pending = s.pending := rfl
@[simp] theorem modPort_island (s : State) (p : Nat) (f : Port → Port) (i : Nat) : (s.modPort p f).island i = s.island i := rfl
@[simp] theorem modPort_fnc (s : State) (p : Nat) (f : Port → Port) (i : Nat) : (s.modPort p f).fnc i = s.fnc i := rfl
@[simp] theorem modPort_que (s : State) (p : Nat) (f : Port → Port) (fn q : Nat) : (s.modPort p f).que fn q = s.que fn q := rfl
@[simp] theorem modPort_port (s : State) (p : Nat) (f : Port → Port) : (s.modPort p f).port p = f (s.port p) := look_put _ _ _ _
theorem modPort_port_ne (s : State) (p : Nat) (f : Port → Port) {j : Nat} (h' : j ≠ p) : (s.modPort p f).port j = s.port j := look_put_ne _ _ _ h'
@[simp] theorem modPort_head (s : State) (p : Nat) (f : Port → Port) (h : Nat) : (s.modPort p f).head h = s.head h := rfl
@[simp] theorem modPort_slotOf (s : State) (p : Nat) (f : Port → Port) (n : Nat) : (s.modPort p f).slotOf n = s.slotOf n := rfl
@[simp] theorem modPort_safeOf (s : State) (p : Nat) (f : Port → Port) (h : Nat) : (s.modPort p f).safeOf h = s.safeOf h := rfl
@[simp] theorem modPort_pair (s : State) (p : Nat) (f : Port → Port) (p' : Nat) : (s.modPort p f).pair p' = s.pair p' := rfl
@[simp] theorem modPort_ruleSt (s : State) (p : Nat) (f : Port → Port) (r : Nat) : (s.modPort p f).ruleSt r = s.ruleSt r := rfl
@[simp] theorem modPort_sigOf (s : State) (p : Nat) (f : Port → Port) (n : Nat) : (s.modPort p f).sigOf n = s.sigOf n := rfl
@[simp] theorem modPort_ctx (s : State) (p : Nat) (f : Port → Port) (c : Nat) : (s.modPort p f).ctx c = s.ctx c := rfl
@[simp] theorem modPort_taper (s : State) (p : Nat) (f : Port → Port) (t : Nat) : (s.modPort p f).taper t = s.taper t := rfl
@[simp] theorem modPort_chan (s : State) (p : Nat) (f : Port → Port) (c : Nat) : (s.modPort p f).chan c = s.chan c := rfl
@[simp] theorem modPort_part (s : State) (p : Nat) (f : Port → Port) (p' : Nat) : (s.modPort p f).part p' = s.part p' := rfl
@[simp] theorem modPort_target (s : State) (p : Nat) (f : Port → Port) (t : Nat) : (s.modPort p f).target t = s.target t := rfl
@[simp] theorem modPort_slotTab (s : State) (p : Nat) (f : Port → Port) (i : Nat) : (s.modPort p f).slotTab i = s.slotTab i := rfl
@[simp] theorem modPort_lock (s : State) (p : Nat) (f : Port → Port) (n : Nat) : (s.modPort p f).lock n = s.lock n := rfl
@[simp] theorem modPort_csi (s : State) (p : Nat) (f : Port → Port) (p' : Nat) : (s.modPort p f).csi p' = s.csi p' := rfl
@[simp] theorem modPort_ptp (s : State) (p : Nat) (f : Port → Port) (d : Nat) : (s.modPort p f).ptp d = s.ptp d := rfl
@[simp] theorem modPort_eport (s : State) (p : Nat) (f : Port → Port) (p' : Nat) : (s.modPort p f).eport p' = s.eport p' := rfl
@[simp] theorem modPort_gcl (s : State) (p : Nat) (f : Port → Port) (p' : Nat) : (s.modPort p f).gcl p' = s.gcl p' := rfl
@[simp] theorem modPort_can (s : State) (p : Nat) (f : Port → Port) (n : Nat) : (s.modPort p f).can n = s.can n := rfl
@[simp] theorem modPort_tdm (s : State) (p : Nat) (f : Port → Port) (p' : Nat) : (s.modPort p f).tdm p' = s.tdm p' := rfl
@[simp] theorem modPort_safeLoad (s : State) (p : Nat) (f : Port → Port) (fn : Nat) : (s.modPort p f).safeLoad fn = s.safeLoad fn := rfl
@[simp] theorem modPort_panel (s : State) (p : Nat) (f : Port → Port) (p' : Nat) : (s.modPort p f).panel p' = s.panel p' := rfl
@[simp] theorem modPort_obj (s : State) (p : Nat) (f : Port → Port) (o : Nat) : (s.modPort p f).obj o = s.obj o := rfl
@[simp] theorem modPort_hap (s : State) (p : Nat) (f : Port → Port) (n : Nat) : (s.modPort p f).hap n = s.hap n := rfl
@[simp] theorem modPort_mbox (s : State) (p : Nat) (f : Port → Port) (m : Nat) : (s.modPort p f).mbox m = s.mbox m := rfl
@[simp] theorem modPort_rail (s : State) (p : Nat) (f : Port → Port) (r : Nat) : (s.modPort p f).rail r = s.rail r := rfl
@[simp] theorem modPort_fence (s : State) (p : Nat) (f : Port → Port) (fn n : Nat) : (s.modPort p f).fence fn n = s.fence fn n := rfl
@[simp] theorem modPort_up (s : State) (p : Nat) (f : Port → Port) (i' : Nat) : (s.modPort p f).up i' = s.up i' := rfl
@[simp] theorem modPort_stamp (s : State) (p : Nat) (f : Port → Port) (i' : Nat) : (s.modPort p f).stamp i' = s.stamp i' := rfl
@[simp] theorem modPort_mayWrite (s : State) (p : Nat) (f : Port → Port) (fn' grp' : Nat) : (s.modPort p f).mayWrite fn' grp' = s.mayWrite fn' grp' := rfl

/-! ### modHead -/

@[simp] theorem modHead_dt (s : State) (h : Nat) (f : Head → Head) : (s.modHead h f).dt = s.dt := rfl
@[simp] theorem modHead_time (s : State) (h : Nat) (f : Head → Head) : (s.modHead h f).time = s.time := rfl
@[simp] theorem modHead_isl (s : State) (h : Nat) (f : Head → Head) : (s.modHead h f).isl = s.isl := rfl
@[simp] theorem modHead_img (s : State) (h : Nat) (f : Head → Head) : (s.modHead h f).img = s.img := rfl
@[simp] theorem modHead_fns (s : State) (h : Nat) (f : Head → Head) : (s.modHead h f).fns = s.fns := rfl
@[simp] theorem modHead_queues (s : State) (h : Nat) (f : Head → Head) : (s.modHead h f).queues = s.queues := rfl
@[simp] theorem modHead_flights (s : State) (h : Nat) (f : Head → Head) : (s.modHead h f).flights = s.flights := rfl
@[simp] theorem modHead_nextId (s : State) (h : Nat) (f : Head → Head) : (s.modHead h f).nextId = s.nextId := rfl
@[simp] theorem modHead_ports (s : State) (h : Nat) (f : Head → Head) : (s.modHead h f).ports = s.ports := rfl
@[simp] theorem modHead_grpDrop (s : State) (h : Nat) (f : Head → Head) : (s.modHead h f).grpDrop = s.grpDrop := rfl
@[simp] theorem modHead_hdDrop (s : State) (h : Nat) (f : Head → Head) : (s.modHead h f).hdDrop = s.hdDrop := rfl
@[simp] theorem modHead_slots (s : State) (h : Nat) (f : Head → Head) : (s.modHead h f).slots = s.slots := rfl
@[simp] theorem modHead_safe (s : State) (h : Nat) (f : Head → Head) : (s.modHead h f).safe = s.safe := rfl
@[simp] theorem modHead_pairs (s : State) (h : Nat) (f : Head → Head) : (s.modHead h f).pairs = s.pairs := rfl
@[simp] theorem modHead_store (s : State) (h : Nat) (f : Head → Head) : (s.modHead h f).store = s.store := rfl
@[simp] theorem modHead_wl (s : State) (h : Nat) (f : Head → Head) : (s.modHead h f).wl = s.wl := rfl
@[simp] theorem modHead_chand (s : State) (h : Nat) (f : Head → Head) : (s.modHead h f).chand = s.chand := rfl
@[simp] theorem modHead_mem (s : State) (h : Nat) (f : Head → Head) : (s.modHead h f).mem = s.mem := rfl
@[simp] theorem modHead_fab (s : State) (h : Nat) (f : Head → Head) : (s.modHead h f).fab = s.fab := rfl
@[simp] theorem modHead_media (s : State) (h : Nat) (f : Head → Head) : (s.modHead h f).media = s.media := rfl
@[simp] theorem modHead_net (s : State) (h : Nat) (f : Head → Head) : (s.modHead h f).net = s.net := rfl
@[simp] theorem modHead_audio (s : State) (h : Nat) (f : Head → Head) : (s.modHead h f).audio = s.audio := rfl
@[simp] theorem modHead_sense (s : State) (h : Nat) (f : Head → Head) : (s.modHead h f).sense = s.sense := rfl
@[simp] theorem modHead_lan (s : State) (h : Nat) (f : Head → Head) : (s.modHead h f).lan = s.lan := rfl
@[simp] theorem modHead_flt (s : State) (h : Nat) (f : Head → Head) : (s.modHead h f).flt = s.flt := rfl
@[simp] theorem modHead_pwr (s : State) (h : Nat) (f : Head → Head) : (s.modHead h f).pwr = s.pwr := rfl
@[simp] theorem modHead_boot (s : State) (h : Nat) (f : Head → Head) : (s.modHead h f).boot = s.boot := rfl
@[simp] theorem modHead_draws (s : State) (h : Nat) (f : Head → Head) : (s.modHead h f).draws = s.draws := rfl
@[simp] theorem modHead_out (s : State) (h : Nat) (f : Head → Head) : (s.modHead h f).out = s.out := rfl
@[simp] theorem modHead_pending (s : State) (h : Nat) (f : Head → Head) : (s.modHead h f).pending = s.pending := rfl
@[simp] theorem modHead_island (s : State) (h : Nat) (f : Head → Head) (i : Nat) : (s.modHead h f).island i = s.island i := rfl
@[simp] theorem modHead_fnc (s : State) (h : Nat) (f : Head → Head) (i : Nat) : (s.modHead h f).fnc i = s.fnc i := rfl
@[simp] theorem modHead_que (s : State) (h : Nat) (f : Head → Head) (fn q : Nat) : (s.modHead h f).que fn q = s.que fn q := rfl
@[simp] theorem modHead_port (s : State) (h : Nat) (f : Head → Head) (p : Nat) : (s.modHead h f).port p = s.port p := rfl
@[simp] theorem modHead_head (s : State) (h : Nat) (f : Head → Head) : (s.modHead h f).head h = f (s.head h) := look_put _ _ _ _
theorem modHead_head_ne (s : State) (h : Nat) (f : Head → Head) {j : Nat} (h' : j ≠ h) : (s.modHead h f).head j = s.head j := look_put_ne _ _ _ h'
@[simp] theorem modHead_slotOf (s : State) (h : Nat) (f : Head → Head) (n : Nat) : (s.modHead h f).slotOf n = s.slotOf n := rfl
@[simp] theorem modHead_safeOf (s : State) (h : Nat) (f : Head → Head) (h' : Nat) : (s.modHead h f).safeOf h' = s.safeOf h' := rfl
@[simp] theorem modHead_pair (s : State) (h : Nat) (f : Head → Head) (p : Nat) : (s.modHead h f).pair p = s.pair p := rfl
@[simp] theorem modHead_ruleSt (s : State) (h : Nat) (f : Head → Head) (r : Nat) : (s.modHead h f).ruleSt r = s.ruleSt r := rfl
@[simp] theorem modHead_sigOf (s : State) (h : Nat) (f : Head → Head) (n : Nat) : (s.modHead h f).sigOf n = s.sigOf n := rfl
@[simp] theorem modHead_ctx (s : State) (h : Nat) (f : Head → Head) (c : Nat) : (s.modHead h f).ctx c = s.ctx c := rfl
@[simp] theorem modHead_taper (s : State) (h : Nat) (f : Head → Head) (t : Nat) : (s.modHead h f).taper t = s.taper t := rfl
@[simp] theorem modHead_chan (s : State) (h : Nat) (f : Head → Head) (c : Nat) : (s.modHead h f).chan c = s.chan c := rfl
@[simp] theorem modHead_part (s : State) (h : Nat) (f : Head → Head) (p : Nat) : (s.modHead h f).part p = s.part p := rfl
@[simp] theorem modHead_target (s : State) (h : Nat) (f : Head → Head) (t : Nat) : (s.modHead h f).target t = s.target t := rfl
@[simp] theorem modHead_slotTab (s : State) (h : Nat) (f : Head → Head) (i : Nat) : (s.modHead h f).slotTab i = s.slotTab i := rfl
@[simp] theorem modHead_lock (s : State) (h : Nat) (f : Head → Head) (n : Nat) : (s.modHead h f).lock n = s.lock n := rfl
@[simp] theorem modHead_csi (s : State) (h : Nat) (f : Head → Head) (p : Nat) : (s.modHead h f).csi p = s.csi p := rfl
@[simp] theorem modHead_ptp (s : State) (h : Nat) (f : Head → Head) (d : Nat) : (s.modHead h f).ptp d = s.ptp d := rfl
@[simp] theorem modHead_eport (s : State) (h : Nat) (f : Head → Head) (p : Nat) : (s.modHead h f).eport p = s.eport p := rfl
@[simp] theorem modHead_gcl (s : State) (h : Nat) (f : Head → Head) (p : Nat) : (s.modHead h f).gcl p = s.gcl p := rfl
@[simp] theorem modHead_can (s : State) (h : Nat) (f : Head → Head) (n : Nat) : (s.modHead h f).can n = s.can n := rfl
@[simp] theorem modHead_tdm (s : State) (h : Nat) (f : Head → Head) (p : Nat) : (s.modHead h f).tdm p = s.tdm p := rfl
@[simp] theorem modHead_safeLoad (s : State) (h : Nat) (f : Head → Head) (fn : Nat) : (s.modHead h f).safeLoad fn = s.safeLoad fn := rfl
@[simp] theorem modHead_panel (s : State) (h : Nat) (f : Head → Head) (p : Nat) : (s.modHead h f).panel p = s.panel p := rfl
@[simp] theorem modHead_obj (s : State) (h : Nat) (f : Head → Head) (o : Nat) : (s.modHead h f).obj o = s.obj o := rfl
@[simp] theorem modHead_hap (s : State) (h : Nat) (f : Head → Head) (n : Nat) : (s.modHead h f).hap n = s.hap n := rfl
@[simp] theorem modHead_mbox (s : State) (h : Nat) (f : Head → Head) (m : Nat) : (s.modHead h f).mbox m = s.mbox m := rfl
@[simp] theorem modHead_rail (s : State) (h : Nat) (f : Head → Head) (r : Nat) : (s.modHead h f).rail r = s.rail r := rfl
@[simp] theorem modHead_fence (s : State) (h : Nat) (f : Head → Head) (fn n : Nat) : (s.modHead h f).fence fn n = s.fence fn n := rfl
@[simp] theorem modHead_up (s : State) (h : Nat) (f : Head → Head) (i' : Nat) : (s.modHead h f).up i' = s.up i' := rfl
@[simp] theorem modHead_stamp (s : State) (h : Nat) (f : Head → Head) (i' : Nat) : (s.modHead h f).stamp i' = s.stamp i' := rfl
@[simp] theorem modHead_mayWrite (s : State) (h : Nat) (f : Head → Head) (fn' grp' : Nat) : (s.modHead h f).mayWrite fn' grp' = s.mayWrite fn' grp' := rfl

/-! ### modSlot -/

@[simp] theorem modSlot_dt (s : State) (n : Nat) (f : Slot → Slot) : (s.modSlot n f).dt = s.dt := rfl
@[simp] theorem modSlot_time (s : State) (n : Nat) (f : Slot → Slot) : (s.modSlot n f).time = s.time := rfl
@[simp] theorem modSlot_isl (s : State) (n : Nat) (f : Slot → Slot) : (s.modSlot n f).isl = s.isl := rfl
@[simp] theorem modSlot_img (s : State) (n : Nat) (f : Slot → Slot) : (s.modSlot n f).img = s.img := rfl
@[simp] theorem modSlot_fns (s : State) (n : Nat) (f : Slot → Slot) : (s.modSlot n f).fns = s.fns := rfl
@[simp] theorem modSlot_queues (s : State) (n : Nat) (f : Slot → Slot) : (s.modSlot n f).queues = s.queues := rfl
@[simp] theorem modSlot_flights (s : State) (n : Nat) (f : Slot → Slot) : (s.modSlot n f).flights = s.flights := rfl
@[simp] theorem modSlot_nextId (s : State) (n : Nat) (f : Slot → Slot) : (s.modSlot n f).nextId = s.nextId := rfl
@[simp] theorem modSlot_ports (s : State) (n : Nat) (f : Slot → Slot) : (s.modSlot n f).ports = s.ports := rfl
@[simp] theorem modSlot_grpDrop (s : State) (n : Nat) (f : Slot → Slot) : (s.modSlot n f).grpDrop = s.grpDrop := rfl
@[simp] theorem modSlot_hdDrop (s : State) (n : Nat) (f : Slot → Slot) : (s.modSlot n f).hdDrop = s.hdDrop := rfl
@[simp] theorem modSlot_heads (s : State) (n : Nat) (f : Slot → Slot) : (s.modSlot n f).heads = s.heads := rfl
@[simp] theorem modSlot_safe (s : State) (n : Nat) (f : Slot → Slot) : (s.modSlot n f).safe = s.safe := rfl
@[simp] theorem modSlot_pairs (s : State) (n : Nat) (f : Slot → Slot) : (s.modSlot n f).pairs = s.pairs := rfl
@[simp] theorem modSlot_store (s : State) (n : Nat) (f : Slot → Slot) : (s.modSlot n f).store = s.store := rfl
@[simp] theorem modSlot_wl (s : State) (n : Nat) (f : Slot → Slot) : (s.modSlot n f).wl = s.wl := rfl
@[simp] theorem modSlot_chand (s : State) (n : Nat) (f : Slot → Slot) : (s.modSlot n f).chand = s.chand := rfl
@[simp] theorem modSlot_mem (s : State) (n : Nat) (f : Slot → Slot) : (s.modSlot n f).mem = s.mem := rfl
@[simp] theorem modSlot_fab (s : State) (n : Nat) (f : Slot → Slot) : (s.modSlot n f).fab = s.fab := rfl
@[simp] theorem modSlot_media (s : State) (n : Nat) (f : Slot → Slot) : (s.modSlot n f).media = s.media := rfl
@[simp] theorem modSlot_net (s : State) (n : Nat) (f : Slot → Slot) : (s.modSlot n f).net = s.net := rfl
@[simp] theorem modSlot_audio (s : State) (n : Nat) (f : Slot → Slot) : (s.modSlot n f).audio = s.audio := rfl
@[simp] theorem modSlot_sense (s : State) (n : Nat) (f : Slot → Slot) : (s.modSlot n f).sense = s.sense := rfl
@[simp] theorem modSlot_lan (s : State) (n : Nat) (f : Slot → Slot) : (s.modSlot n f).lan = s.lan := rfl
@[simp] theorem modSlot_flt (s : State) (n : Nat) (f : Slot → Slot) : (s.modSlot n f).flt = s.flt := rfl
@[simp] theorem modSlot_pwr (s : State) (n : Nat) (f : Slot → Slot) : (s.modSlot n f).pwr = s.pwr := rfl
@[simp] theorem modSlot_boot (s : State) (n : Nat) (f : Slot → Slot) : (s.modSlot n f).boot = s.boot := rfl
@[simp] theorem modSlot_draws (s : State) (n : Nat) (f : Slot → Slot) : (s.modSlot n f).draws = s.draws := rfl
@[simp] theorem modSlot_out (s : State) (n : Nat) (f : Slot → Slot) : (s.modSlot n f).out = s.out := rfl
@[simp] theorem modSlot_pending (s : State) (n : Nat) (f : Slot → Slot) : (s.modSlot n f).pending = s.pending := rfl
@[simp] theorem modSlot_island (s : State) (n : Nat) (f : Slot → Slot) (i : Nat) : (s.modSlot n f).island i = s.island i := rfl
@[simp] theorem modSlot_fnc (s : State) (n : Nat) (f : Slot → Slot) (i : Nat) : (s.modSlot n f).fnc i = s.fnc i := rfl
@[simp] theorem modSlot_que (s : State) (n : Nat) (f : Slot → Slot) (fn q : Nat) : (s.modSlot n f).que fn q = s.que fn q := rfl
@[simp] theorem modSlot_port (s : State) (n : Nat) (f : Slot → Slot) (p : Nat) : (s.modSlot n f).port p = s.port p := rfl
@[simp] theorem modSlot_head (s : State) (n : Nat) (f : Slot → Slot) (h : Nat) : (s.modSlot n f).head h = s.head h := rfl
@[simp] theorem modSlot_slotOf (s : State) (n : Nat) (f : Slot → Slot) : (s.modSlot n f).slotOf n = f (s.slotOf n) := look_put _ _ _ _
theorem modSlot_slotOf_ne (s : State) (n : Nat) (f : Slot → Slot) {j : Nat} (h' : j ≠ n) : (s.modSlot n f).slotOf j = s.slotOf j := look_put_ne _ _ _ h'
@[simp] theorem modSlot_safeOf (s : State) (n : Nat) (f : Slot → Slot) (h : Nat) : (s.modSlot n f).safeOf h = s.safeOf h := rfl
@[simp] theorem modSlot_pair (s : State) (n : Nat) (f : Slot → Slot) (p : Nat) : (s.modSlot n f).pair p = s.pair p := rfl
@[simp] theorem modSlot_ruleSt (s : State) (n : Nat) (f : Slot → Slot) (r : Nat) : (s.modSlot n f).ruleSt r = s.ruleSt r := rfl
@[simp] theorem modSlot_sigOf (s : State) (n : Nat) (f : Slot → Slot) (n' : Nat) : (s.modSlot n f).sigOf n' = s.sigOf n' := rfl
@[simp] theorem modSlot_ctx (s : State) (n : Nat) (f : Slot → Slot) (c : Nat) : (s.modSlot n f).ctx c = s.ctx c := rfl
@[simp] theorem modSlot_taper (s : State) (n : Nat) (f : Slot → Slot) (t : Nat) : (s.modSlot n f).taper t = s.taper t := rfl
@[simp] theorem modSlot_chan (s : State) (n : Nat) (f : Slot → Slot) (c : Nat) : (s.modSlot n f).chan c = s.chan c := rfl
@[simp] theorem modSlot_part (s : State) (n : Nat) (f : Slot → Slot) (p : Nat) : (s.modSlot n f).part p = s.part p := rfl
@[simp] theorem modSlot_target (s : State) (n : Nat) (f : Slot → Slot) (t : Nat) : (s.modSlot n f).target t = s.target t := rfl
@[simp] theorem modSlot_slotTab (s : State) (n : Nat) (f : Slot → Slot) (i : Nat) : (s.modSlot n f).slotTab i = s.slotTab i := rfl
@[simp] theorem modSlot_lock (s : State) (n : Nat) (f : Slot → Slot) (n' : Nat) : (s.modSlot n f).lock n' = s.lock n' := rfl
@[simp] theorem modSlot_csi (s : State) (n : Nat) (f : Slot → Slot) (p : Nat) : (s.modSlot n f).csi p = s.csi p := rfl
@[simp] theorem modSlot_ptp (s : State) (n : Nat) (f : Slot → Slot) (d : Nat) : (s.modSlot n f).ptp d = s.ptp d := rfl
@[simp] theorem modSlot_eport (s : State) (n : Nat) (f : Slot → Slot) (p : Nat) : (s.modSlot n f).eport p = s.eport p := rfl
@[simp] theorem modSlot_gcl (s : State) (n : Nat) (f : Slot → Slot) (p : Nat) : (s.modSlot n f).gcl p = s.gcl p := rfl
@[simp] theorem modSlot_can (s : State) (n : Nat) (f : Slot → Slot) (n' : Nat) : (s.modSlot n f).can n' = s.can n' := rfl
@[simp] theorem modSlot_tdm (s : State) (n : Nat) (f : Slot → Slot) (p : Nat) : (s.modSlot n f).tdm p = s.tdm p := rfl
@[simp] theorem modSlot_safeLoad (s : State) (n : Nat) (f : Slot → Slot) (fn : Nat) : (s.modSlot n f).safeLoad fn = s.safeLoad fn := rfl
@[simp] theorem modSlot_panel (s : State) (n : Nat) (f : Slot → Slot) (p : Nat) : (s.modSlot n f).panel p = s.panel p := rfl
@[simp] theorem modSlot_obj (s : State) (n : Nat) (f : Slot → Slot) (o : Nat) : (s.modSlot n f).obj o = s.obj o := rfl
@[simp] theorem modSlot_hap (s : State) (n : Nat) (f : Slot → Slot) (n' : Nat) : (s.modSlot n f).hap n' = s.hap n' := rfl
@[simp] theorem modSlot_mbox (s : State) (n : Nat) (f : Slot → Slot) (m : Nat) : (s.modSlot n f).mbox m = s.mbox m := rfl
@[simp] theorem modSlot_rail (s : State) (n : Nat) (f : Slot → Slot) (r : Nat) : (s.modSlot n f).rail r = s.rail r := rfl
@[simp] theorem modSlot_fence (s : State) (n : Nat) (f : Slot → Slot) (fn n' : Nat) : (s.modSlot n f).fence fn n' = s.fence fn n' := rfl
@[simp] theorem modSlot_up (s : State) (n : Nat) (f : Slot → Slot) (i' : Nat) : (s.modSlot n f).up i' = s.up i' := rfl
@[simp] theorem modSlot_stamp (s : State) (n : Nat) (f : Slot → Slot) (i' : Nat) : (s.modSlot n f).stamp i' = s.stamp i' := rfl
@[simp] theorem modSlot_mayWrite (s : State) (n : Nat) (f : Slot → Slot) (fn' grp' : Nat) : (s.modSlot n f).mayWrite fn' grp' = s.mayWrite fn' grp' := rfl

/-! ### modSafe -/

@[simp] theorem modSafe_dt (s : State) (h : Nat) (f : SafeHead → SafeHead) : (s.modSafe h f).dt = s.dt := rfl
@[simp] theorem modSafe_time (s : State) (h : Nat) (f : SafeHead → SafeHead) : (s.modSafe h f).time = s.time := rfl
@[simp] theorem modSafe_isl (s : State) (h : Nat) (f : SafeHead → SafeHead) : (s.modSafe h f).isl = s.isl := rfl
@[simp] theorem modSafe_img (s : State) (h : Nat) (f : SafeHead → SafeHead) : (s.modSafe h f).img = s.img := rfl
@[simp] theorem modSafe_fns (s : State) (h : Nat) (f : SafeHead → SafeHead) : (s.modSafe h f).fns = s.fns := rfl
@[simp] theorem modSafe_queues (s : State) (h : Nat) (f : SafeHead → SafeHead) : (s.modSafe h f).queues = s.queues := rfl
@[simp] theorem modSafe_flights (s : State) (h : Nat) (f : SafeHead → SafeHead) : (s.modSafe h f).flights = s.flights := rfl
@[simp] theorem modSafe_nextId (s : State) (h : Nat) (f : SafeHead → SafeHead) : (s.modSafe h f).nextId = s.nextId := rfl
@[simp] theorem modSafe_ports (s : State) (h : Nat) (f : SafeHead → SafeHead) : (s.modSafe h f).ports = s.ports := rfl
@[simp] theorem modSafe_grpDrop (s : State) (h : Nat) (f : SafeHead → SafeHead) : (s.modSafe h f).grpDrop = s.grpDrop := rfl
@[simp] theorem modSafe_hdDrop (s : State) (h : Nat) (f : SafeHead → SafeHead) : (s.modSafe h f).hdDrop = s.hdDrop := rfl
@[simp] theorem modSafe_heads (s : State) (h : Nat) (f : SafeHead → SafeHead) : (s.modSafe h f).heads = s.heads := rfl
@[simp] theorem modSafe_slots (s : State) (h : Nat) (f : SafeHead → SafeHead) : (s.modSafe h f).slots = s.slots := rfl
@[simp] theorem modSafe_pairs (s : State) (h : Nat) (f : SafeHead → SafeHead) : (s.modSafe h f).pairs = s.pairs := rfl
@[simp] theorem modSafe_store (s : State) (h : Nat) (f : SafeHead → SafeHead) : (s.modSafe h f).store = s.store := rfl
@[simp] theorem modSafe_wl (s : State) (h : Nat) (f : SafeHead → SafeHead) : (s.modSafe h f).wl = s.wl := rfl
@[simp] theorem modSafe_chand (s : State) (h : Nat) (f : SafeHead → SafeHead) : (s.modSafe h f).chand = s.chand := rfl
@[simp] theorem modSafe_mem (s : State) (h : Nat) (f : SafeHead → SafeHead) : (s.modSafe h f).mem = s.mem := rfl
@[simp] theorem modSafe_fab (s : State) (h : Nat) (f : SafeHead → SafeHead) : (s.modSafe h f).fab = s.fab := rfl
@[simp] theorem modSafe_media (s : State) (h : Nat) (f : SafeHead → SafeHead) : (s.modSafe h f).media = s.media := rfl
@[simp] theorem modSafe_net (s : State) (h : Nat) (f : SafeHead → SafeHead) : (s.modSafe h f).net = s.net := rfl
@[simp] theorem modSafe_audio (s : State) (h : Nat) (f : SafeHead → SafeHead) : (s.modSafe h f).audio = s.audio := rfl
@[simp] theorem modSafe_sense (s : State) (h : Nat) (f : SafeHead → SafeHead) : (s.modSafe h f).sense = s.sense := rfl
@[simp] theorem modSafe_lan (s : State) (h : Nat) (f : SafeHead → SafeHead) : (s.modSafe h f).lan = s.lan := rfl
@[simp] theorem modSafe_flt (s : State) (h : Nat) (f : SafeHead → SafeHead) : (s.modSafe h f).flt = s.flt := rfl
@[simp] theorem modSafe_pwr (s : State) (h : Nat) (f : SafeHead → SafeHead) : (s.modSafe h f).pwr = s.pwr := rfl
@[simp] theorem modSafe_boot (s : State) (h : Nat) (f : SafeHead → SafeHead) : (s.modSafe h f).boot = s.boot := rfl
@[simp] theorem modSafe_draws (s : State) (h : Nat) (f : SafeHead → SafeHead) : (s.modSafe h f).draws = s.draws := rfl
@[simp] theorem modSafe_out (s : State) (h : Nat) (f : SafeHead → SafeHead) : (s.modSafe h f).out = s.out := rfl
@[simp] theorem modSafe_pending (s : State) (h : Nat) (f : SafeHead → SafeHead) : (s.modSafe h f).pending = s.pending := rfl
@[simp] theorem modSafe_island (s : State) (h : Nat) (f : SafeHead → SafeHead) (i : Nat) : (s.modSafe h f).island i = s.island i := rfl
@[simp] theorem modSafe_fnc (s : State) (h : Nat) (f : SafeHead → SafeHead) (i : Nat) : (s.modSafe h f).fnc i = s.fnc i := rfl
@[simp] theorem modSafe_que (s : State) (h : Nat) (f : SafeHead → SafeHead) (fn q : Nat) : (s.modSafe h f).que fn q = s.que fn q := rfl
@[simp] theorem modSafe_port (s : State) (h : Nat) (f : SafeHead → SafeHead) (p : Nat) : (s.modSafe h f).port p = s.port p := rfl
@[simp] theorem modSafe_head (s : State) (h : Nat) (f : SafeHead → SafeHead) (h' : Nat) : (s.modSafe h f).head h' = s.head h' := rfl
@[simp] theorem modSafe_slotOf (s : State) (h : Nat) (f : SafeHead → SafeHead) (n : Nat) : (s.modSafe h f).slotOf n = s.slotOf n := rfl
@[simp] theorem modSafe_safeOf (s : State) (h : Nat) (f : SafeHead → SafeHead) : (s.modSafe h f).safeOf h = f (s.safeOf h) := look_put _ _ _ _
theorem modSafe_safeOf_ne (s : State) (h : Nat) (f : SafeHead → SafeHead) {j : Nat} (h' : j ≠ h) : (s.modSafe h f).safeOf j = s.safeOf j := look_put_ne _ _ _ h'
@[simp] theorem modSafe_pair (s : State) (h : Nat) (f : SafeHead → SafeHead) (p : Nat) : (s.modSafe h f).pair p = s.pair p := rfl
@[simp] theorem modSafe_ruleSt (s : State) (h : Nat) (f : SafeHead → SafeHead) (r : Nat) : (s.modSafe h f).ruleSt r = s.ruleSt r := rfl
@[simp] theorem modSafe_sigOf (s : State) (h : Nat) (f : SafeHead → SafeHead) (n : Nat) : (s.modSafe h f).sigOf n = s.sigOf n := rfl
@[simp] theorem modSafe_ctx (s : State) (h : Nat) (f : SafeHead → SafeHead) (c : Nat) : (s.modSafe h f).ctx c = s.ctx c := rfl
@[simp] theorem modSafe_taper (s : State) (h : Nat) (f : SafeHead → SafeHead) (t : Nat) : (s.modSafe h f).taper t = s.taper t := rfl
@[simp] theorem modSafe_chan (s : State) (h : Nat) (f : SafeHead → SafeHead) (c : Nat) : (s.modSafe h f).chan c = s.chan c := rfl
@[simp] theorem modSafe_part (s : State) (h : Nat) (f : SafeHead → SafeHead) (p : Nat) : (s.modSafe h f).part p = s.part p := rfl
@[simp] theorem modSafe_target (s : State) (h : Nat) (f : SafeHead → SafeHead) (t : Nat) : (s.modSafe h f).target t = s.target t := rfl
@[simp] theorem modSafe_slotTab (s : State) (h : Nat) (f : SafeHead → SafeHead) (i : Nat) : (s.modSafe h f).slotTab i = s.slotTab i := rfl
@[simp] theorem modSafe_lock (s : State) (h : Nat) (f : SafeHead → SafeHead) (n : Nat) : (s.modSafe h f).lock n = s.lock n := rfl
@[simp] theorem modSafe_csi (s : State) (h : Nat) (f : SafeHead → SafeHead) (p : Nat) : (s.modSafe h f).csi p = s.csi p := rfl
@[simp] theorem modSafe_ptp (s : State) (h : Nat) (f : SafeHead → SafeHead) (d : Nat) : (s.modSafe h f).ptp d = s.ptp d := rfl
@[simp] theorem modSafe_eport (s : State) (h : Nat) (f : SafeHead → SafeHead) (p : Nat) : (s.modSafe h f).eport p = s.eport p := rfl
@[simp] theorem modSafe_gcl (s : State) (h : Nat) (f : SafeHead → SafeHead) (p : Nat) : (s.modSafe h f).gcl p = s.gcl p := rfl
@[simp] theorem modSafe_can (s : State) (h : Nat) (f : SafeHead → SafeHead) (n : Nat) : (s.modSafe h f).can n = s.can n := rfl
@[simp] theorem modSafe_tdm (s : State) (h : Nat) (f : SafeHead → SafeHead) (p : Nat) : (s.modSafe h f).tdm p = s.tdm p := rfl
@[simp] theorem modSafe_safeLoad (s : State) (h : Nat) (f : SafeHead → SafeHead) (fn : Nat) : (s.modSafe h f).safeLoad fn = s.safeLoad fn := rfl
@[simp] theorem modSafe_panel (s : State) (h : Nat) (f : SafeHead → SafeHead) (p : Nat) : (s.modSafe h f).panel p = s.panel p := rfl
@[simp] theorem modSafe_obj (s : State) (h : Nat) (f : SafeHead → SafeHead) (o : Nat) : (s.modSafe h f).obj o = s.obj o := rfl
@[simp] theorem modSafe_hap (s : State) (h : Nat) (f : SafeHead → SafeHead) (n : Nat) : (s.modSafe h f).hap n = s.hap n := rfl
@[simp] theorem modSafe_mbox (s : State) (h : Nat) (f : SafeHead → SafeHead) (m : Nat) : (s.modSafe h f).mbox m = s.mbox m := rfl
@[simp] theorem modSafe_rail (s : State) (h : Nat) (f : SafeHead → SafeHead) (r : Nat) : (s.modSafe h f).rail r = s.rail r := rfl
@[simp] theorem modSafe_fence (s : State) (h : Nat) (f : SafeHead → SafeHead) (fn n : Nat) : (s.modSafe h f).fence fn n = s.fence fn n := rfl
@[simp] theorem modSafe_up (s : State) (h : Nat) (f : SafeHead → SafeHead) (i' : Nat) : (s.modSafe h f).up i' = s.up i' := rfl
@[simp] theorem modSafe_stamp (s : State) (h : Nat) (f : SafeHead → SafeHead) (i' : Nat) : (s.modSafe h f).stamp i' = s.stamp i' := rfl
@[simp] theorem modSafe_mayWrite (s : State) (h : Nat) (f : SafeHead → SafeHead) (fn' grp' : Nat) : (s.modSafe h f).mayWrite fn' grp' = s.mayWrite fn' grp' := rfl

/-! ### modPair -/

@[simp] theorem modPair_dt (s : State) (p : Nat) (f : Pair → Pair) : (s.modPair p f).dt = s.dt := rfl
@[simp] theorem modPair_time (s : State) (p : Nat) (f : Pair → Pair) : (s.modPair p f).time = s.time := rfl
@[simp] theorem modPair_isl (s : State) (p : Nat) (f : Pair → Pair) : (s.modPair p f).isl = s.isl := rfl
@[simp] theorem modPair_img (s : State) (p : Nat) (f : Pair → Pair) : (s.modPair p f).img = s.img := rfl
@[simp] theorem modPair_fns (s : State) (p : Nat) (f : Pair → Pair) : (s.modPair p f).fns = s.fns := rfl
@[simp] theorem modPair_queues (s : State) (p : Nat) (f : Pair → Pair) : (s.modPair p f).queues = s.queues := rfl
@[simp] theorem modPair_flights (s : State) (p : Nat) (f : Pair → Pair) : (s.modPair p f).flights = s.flights := rfl
@[simp] theorem modPair_nextId (s : State) (p : Nat) (f : Pair → Pair) : (s.modPair p f).nextId = s.nextId := rfl
@[simp] theorem modPair_ports (s : State) (p : Nat) (f : Pair → Pair) : (s.modPair p f).ports = s.ports := rfl
@[simp] theorem modPair_grpDrop (s : State) (p : Nat) (f : Pair → Pair) : (s.modPair p f).grpDrop = s.grpDrop := rfl
@[simp] theorem modPair_hdDrop (s : State) (p : Nat) (f : Pair → Pair) : (s.modPair p f).hdDrop = s.hdDrop := rfl
@[simp] theorem modPair_heads (s : State) (p : Nat) (f : Pair → Pair) : (s.modPair p f).heads = s.heads := rfl
@[simp] theorem modPair_slots (s : State) (p : Nat) (f : Pair → Pair) : (s.modPair p f).slots = s.slots := rfl
@[simp] theorem modPair_safe (s : State) (p : Nat) (f : Pair → Pair) : (s.modPair p f).safe = s.safe := rfl
@[simp] theorem modPair_store (s : State) (p : Nat) (f : Pair → Pair) : (s.modPair p f).store = s.store := rfl
@[simp] theorem modPair_wl (s : State) (p : Nat) (f : Pair → Pair) : (s.modPair p f).wl = s.wl := rfl
@[simp] theorem modPair_chand (s : State) (p : Nat) (f : Pair → Pair) : (s.modPair p f).chand = s.chand := rfl
@[simp] theorem modPair_mem (s : State) (p : Nat) (f : Pair → Pair) : (s.modPair p f).mem = s.mem := rfl
@[simp] theorem modPair_fab (s : State) (p : Nat) (f : Pair → Pair) : (s.modPair p f).fab = s.fab := rfl
@[simp] theorem modPair_media (s : State) (p : Nat) (f : Pair → Pair) : (s.modPair p f).media = s.media := rfl
@[simp] theorem modPair_net (s : State) (p : Nat) (f : Pair → Pair) : (s.modPair p f).net = s.net := rfl
@[simp] theorem modPair_audio (s : State) (p : Nat) (f : Pair → Pair) : (s.modPair p f).audio = s.audio := rfl
@[simp] theorem modPair_sense (s : State) (p : Nat) (f : Pair → Pair) : (s.modPair p f).sense = s.sense := rfl
@[simp] theorem modPair_lan (s : State) (p : Nat) (f : Pair → Pair) : (s.modPair p f).lan = s.lan := rfl
@[simp] theorem modPair_flt (s : State) (p : Nat) (f : Pair → Pair) : (s.modPair p f).flt = s.flt := rfl
@[simp] theorem modPair_pwr (s : State) (p : Nat) (f : Pair → Pair) : (s.modPair p f).pwr = s.pwr := rfl
@[simp] theorem modPair_boot (s : State) (p : Nat) (f : Pair → Pair) : (s.modPair p f).boot = s.boot := rfl
@[simp] theorem modPair_draws (s : State) (p : Nat) (f : Pair → Pair) : (s.modPair p f).draws = s.draws := rfl
@[simp] theorem modPair_out (s : State) (p : Nat) (f : Pair → Pair) : (s.modPair p f).out = s.out := rfl
@[simp] theorem modPair_pending (s : State) (p : Nat) (f : Pair → Pair) : (s.modPair p f).pending = s.pending := rfl
@[simp] theorem modPair_island (s : State) (p : Nat) (f : Pair → Pair) (i : Nat) : (s.modPair p f).island i = s.island i := rfl
@[simp] theorem modPair_fnc (s : State) (p : Nat) (f : Pair → Pair) (i : Nat) : (s.modPair p f).fnc i = s.fnc i := rfl
@[simp] theorem modPair_que (s : State) (p : Nat) (f : Pair → Pair) (fn q : Nat) : (s.modPair p f).que fn q = s.que fn q := rfl
@[simp] theorem modPair_port (s : State) (p : Nat) (f : Pair → Pair) (p' : Nat) : (s.modPair p f).port p' = s.port p' := rfl
@[simp] theorem modPair_head (s : State) (p : Nat) (f : Pair → Pair) (h : Nat) : (s.modPair p f).head h = s.head h := rfl
@[simp] theorem modPair_slotOf (s : State) (p : Nat) (f : Pair → Pair) (n : Nat) : (s.modPair p f).slotOf n = s.slotOf n := rfl
@[simp] theorem modPair_safeOf (s : State) (p : Nat) (f : Pair → Pair) (h : Nat) : (s.modPair p f).safeOf h = s.safeOf h := rfl
@[simp] theorem modPair_pair (s : State) (p : Nat) (f : Pair → Pair) : (s.modPair p f).pair p = f (s.pair p) := look_put _ _ _ _
theorem modPair_pair_ne (s : State) (p : Nat) (f : Pair → Pair) {j : Nat} (h' : j ≠ p) : (s.modPair p f).pair j = s.pair j := look_put_ne _ _ _ h'
@[simp] theorem modPair_ruleSt (s : State) (p : Nat) (f : Pair → Pair) (r : Nat) : (s.modPair p f).ruleSt r = s.ruleSt r := rfl
@[simp] theorem modPair_sigOf (s : State) (p : Nat) (f : Pair → Pair) (n : Nat) : (s.modPair p f).sigOf n = s.sigOf n := rfl
@[simp] theorem modPair_ctx (s : State) (p : Nat) (f : Pair → Pair) (c : Nat) : (s.modPair p f).ctx c = s.ctx c := rfl
@[simp] theorem modPair_taper (s : State) (p : Nat) (f : Pair → Pair) (t : Nat) : (s.modPair p f).taper t = s.taper t := rfl
@[simp] theorem modPair_chan (s : State) (p : Nat) (f : Pair → Pair) (c : Nat) : (s.modPair p f).chan c = s.chan c := rfl
@[simp] theorem modPair_part (s : State) (p : Nat) (f : Pair → Pair) (p' : Nat) : (s.modPair p f).part p' = s.part p' := rfl
@[simp] theorem modPair_target (s : State) (p : Nat) (f : Pair → Pair) (t : Nat) : (s.modPair p f).target t = s.target t := rfl
@[simp] theorem modPair_slotTab (s : State) (p : Nat) (f : Pair → Pair) (i : Nat) : (s.modPair p f).slotTab i = s.slotTab i := rfl
@[simp] theorem modPair_lock (s : State) (p : Nat) (f : Pair → Pair) (n : Nat) : (s.modPair p f).lock n = s.lock n := rfl
@[simp] theorem modPair_csi (s : State) (p : Nat) (f : Pair → Pair) (p' : Nat) : (s.modPair p f).csi p' = s.csi p' := rfl
@[simp] theorem modPair_ptp (s : State) (p : Nat) (f : Pair → Pair) (d : Nat) : (s.modPair p f).ptp d = s.ptp d := rfl
@[simp] theorem modPair_eport (s : State) (p : Nat) (f : Pair → Pair) (p' : Nat) : (s.modPair p f).eport p' = s.eport p' := rfl
@[simp] theorem modPair_gcl (s : State) (p : Nat) (f : Pair → Pair) (p' : Nat) : (s.modPair p f).gcl p' = s.gcl p' := rfl
@[simp] theorem modPair_can (s : State) (p : Nat) (f : Pair → Pair) (n : Nat) : (s.modPair p f).can n = s.can n := rfl
@[simp] theorem modPair_tdm (s : State) (p : Nat) (f : Pair → Pair) (p' : Nat) : (s.modPair p f).tdm p' = s.tdm p' := rfl
@[simp] theorem modPair_safeLoad (s : State) (p : Nat) (f : Pair → Pair) (fn : Nat) : (s.modPair p f).safeLoad fn = s.safeLoad fn := rfl
@[simp] theorem modPair_panel (s : State) (p : Nat) (f : Pair → Pair) (p' : Nat) : (s.modPair p f).panel p' = s.panel p' := rfl
@[simp] theorem modPair_obj (s : State) (p : Nat) (f : Pair → Pair) (o : Nat) : (s.modPair p f).obj o = s.obj o := rfl
@[simp] theorem modPair_hap (s : State) (p : Nat) (f : Pair → Pair) (n : Nat) : (s.modPair p f).hap n = s.hap n := rfl
@[simp] theorem modPair_mbox (s : State) (p : Nat) (f : Pair → Pair) (m : Nat) : (s.modPair p f).mbox m = s.mbox m := rfl
@[simp] theorem modPair_rail (s : State) (p : Nat) (f : Pair → Pair) (r : Nat) : (s.modPair p f).rail r = s.rail r := rfl
@[simp] theorem modPair_fence (s : State) (p : Nat) (f : Pair → Pair) (fn n : Nat) : (s.modPair p f).fence fn n = s.fence fn n := rfl
@[simp] theorem modPair_up (s : State) (p : Nat) (f : Pair → Pair) (i' : Nat) : (s.modPair p f).up i' = s.up i' := rfl
@[simp] theorem modPair_stamp (s : State) (p : Nat) (f : Pair → Pair) (i' : Nat) : (s.modPair p f).stamp i' = s.stamp i' := rfl
@[simp] theorem modPair_mayWrite (s : State) (p : Nat) (f : Pair → Pair) (fn' grp' : Nat) : (s.modPair p f).mayWrite fn' grp' = s.mayWrite fn' grp' := rfl

/-! ### modWl -/

@[simp] theorem modWl_dt (s : State) (f : Watchlamp → Watchlamp) : (s.modWl f).dt = s.dt := rfl
@[simp] theorem modWl_time (s : State) (f : Watchlamp → Watchlamp) : (s.modWl f).time = s.time := rfl
@[simp] theorem modWl_isl (s : State) (f : Watchlamp → Watchlamp) : (s.modWl f).isl = s.isl := rfl
@[simp] theorem modWl_img (s : State) (f : Watchlamp → Watchlamp) : (s.modWl f).img = s.img := rfl
@[simp] theorem modWl_fns (s : State) (f : Watchlamp → Watchlamp) : (s.modWl f).fns = s.fns := rfl
@[simp] theorem modWl_queues (s : State) (f : Watchlamp → Watchlamp) : (s.modWl f).queues = s.queues := rfl
@[simp] theorem modWl_flights (s : State) (f : Watchlamp → Watchlamp) : (s.modWl f).flights = s.flights := rfl
@[simp] theorem modWl_nextId (s : State) (f : Watchlamp → Watchlamp) : (s.modWl f).nextId = s.nextId := rfl
@[simp] theorem modWl_ports (s : State) (f : Watchlamp → Watchlamp) : (s.modWl f).ports = s.ports := rfl
@[simp] theorem modWl_grpDrop (s : State) (f : Watchlamp → Watchlamp) : (s.modWl f).grpDrop = s.grpDrop := rfl
@[simp] theorem modWl_hdDrop (s : State) (f : Watchlamp → Watchlamp) : (s.modWl f).hdDrop = s.hdDrop := rfl
@[simp] theorem modWl_heads (s : State) (f : Watchlamp → Watchlamp) : (s.modWl f).heads = s.heads := rfl
@[simp] theorem modWl_slots (s : State) (f : Watchlamp → Watchlamp) : (s.modWl f).slots = s.slots := rfl
@[simp] theorem modWl_safe (s : State) (f : Watchlamp → Watchlamp) : (s.modWl f).safe = s.safe := rfl
@[simp] theorem modWl_pairs (s : State) (f : Watchlamp → Watchlamp) : (s.modWl f).pairs = s.pairs := rfl
@[simp] theorem modWl_store (s : State) (f : Watchlamp → Watchlamp) : (s.modWl f).store = s.store := rfl
@[simp] theorem modWl_chand (s : State) (f : Watchlamp → Watchlamp) : (s.modWl f).chand = s.chand := rfl
@[simp] theorem modWl_mem (s : State) (f : Watchlamp → Watchlamp) : (s.modWl f).mem = s.mem := rfl
@[simp] theorem modWl_fab (s : State) (f : Watchlamp → Watchlamp) : (s.modWl f).fab = s.fab := rfl
@[simp] theorem modWl_media (s : State) (f : Watchlamp → Watchlamp) : (s.modWl f).media = s.media := rfl
@[simp] theorem modWl_net (s : State) (f : Watchlamp → Watchlamp) : (s.modWl f).net = s.net := rfl
@[simp] theorem modWl_audio (s : State) (f : Watchlamp → Watchlamp) : (s.modWl f).audio = s.audio := rfl
@[simp] theorem modWl_sense (s : State) (f : Watchlamp → Watchlamp) : (s.modWl f).sense = s.sense := rfl
@[simp] theorem modWl_lan (s : State) (f : Watchlamp → Watchlamp) : (s.modWl f).lan = s.lan := rfl
@[simp] theorem modWl_flt (s : State) (f : Watchlamp → Watchlamp) : (s.modWl f).flt = s.flt := rfl
@[simp] theorem modWl_pwr (s : State) (f : Watchlamp → Watchlamp) : (s.modWl f).pwr = s.pwr := rfl
@[simp] theorem modWl_boot (s : State) (f : Watchlamp → Watchlamp) : (s.modWl f).boot = s.boot := rfl
@[simp] theorem modWl_draws (s : State) (f : Watchlamp → Watchlamp) : (s.modWl f).draws = s.draws := rfl
@[simp] theorem modWl_out (s : State) (f : Watchlamp → Watchlamp) : (s.modWl f).out = s.out := rfl
@[simp] theorem modWl_pending (s : State) (f : Watchlamp → Watchlamp) : (s.modWl f).pending = s.pending := rfl
@[simp] theorem modWl_island (s : State) (f : Watchlamp → Watchlamp) (i : Nat) : (s.modWl f).island i = s.island i := rfl
@[simp] theorem modWl_fnc (s : State) (f : Watchlamp → Watchlamp) (i : Nat) : (s.modWl f).fnc i = s.fnc i := rfl
@[simp] theorem modWl_que (s : State) (f : Watchlamp → Watchlamp) (fn q : Nat) : (s.modWl f).que fn q = s.que fn q := rfl
@[simp] theorem modWl_port (s : State) (f : Watchlamp → Watchlamp) (p : Nat) : (s.modWl f).port p = s.port p := rfl
@[simp] theorem modWl_head (s : State) (f : Watchlamp → Watchlamp) (h : Nat) : (s.modWl f).head h = s.head h := rfl
@[simp] theorem modWl_slotOf (s : State) (f : Watchlamp → Watchlamp) (n : Nat) : (s.modWl f).slotOf n = s.slotOf n := rfl
@[simp] theorem modWl_safeOf (s : State) (f : Watchlamp → Watchlamp) (h : Nat) : (s.modWl f).safeOf h = s.safeOf h := rfl
@[simp] theorem modWl_pair (s : State) (f : Watchlamp → Watchlamp) (p : Nat) : (s.modWl f).pair p = s.pair p := rfl
@[simp] theorem modWl_ctx (s : State) (f : Watchlamp → Watchlamp) (c : Nat) : (s.modWl f).ctx c = s.ctx c := rfl
@[simp] theorem modWl_taper (s : State) (f : Watchlamp → Watchlamp) (t : Nat) : (s.modWl f).taper t = s.taper t := rfl
@[simp] theorem modWl_chan (s : State) (f : Watchlamp → Watchlamp) (c : Nat) : (s.modWl f).chan c = s.chan c := rfl
@[simp] theorem modWl_part (s : State) (f : Watchlamp → Watchlamp) (p : Nat) : (s.modWl f).part p = s.part p := rfl
@[simp] theorem modWl_target (s : State) (f : Watchlamp → Watchlamp) (t : Nat) : (s.modWl f).target t = s.target t := rfl
@[simp] theorem modWl_slotTab (s : State) (f : Watchlamp → Watchlamp) (i : Nat) : (s.modWl f).slotTab i = s.slotTab i := rfl
@[simp] theorem modWl_lock (s : State) (f : Watchlamp → Watchlamp) (n : Nat) : (s.modWl f).lock n = s.lock n := rfl
@[simp] theorem modWl_csi (s : State) (f : Watchlamp → Watchlamp) (p : Nat) : (s.modWl f).csi p = s.csi p := rfl
@[simp] theorem modWl_ptp (s : State) (f : Watchlamp → Watchlamp) (d : Nat) : (s.modWl f).ptp d = s.ptp d := rfl
@[simp] theorem modWl_eport (s : State) (f : Watchlamp → Watchlamp) (p : Nat) : (s.modWl f).eport p = s.eport p := rfl
@[simp] theorem modWl_gcl (s : State) (f : Watchlamp → Watchlamp) (p : Nat) : (s.modWl f).gcl p = s.gcl p := rfl
@[simp] theorem modWl_can (s : State) (f : Watchlamp → Watchlamp) (n : Nat) : (s.modWl f).can n = s.can n := rfl
@[simp] theorem modWl_tdm (s : State) (f : Watchlamp → Watchlamp) (p : Nat) : (s.modWl f).tdm p = s.tdm p := rfl
@[simp] theorem modWl_safeLoad (s : State) (f : Watchlamp → Watchlamp) (fn : Nat) : (s.modWl f).safeLoad fn = s.safeLoad fn := rfl
@[simp] theorem modWl_panel (s : State) (f : Watchlamp → Watchlamp) (p : Nat) : (s.modWl f).panel p = s.panel p := rfl
@[simp] theorem modWl_obj (s : State) (f : Watchlamp → Watchlamp) (o : Nat) : (s.modWl f).obj o = s.obj o := rfl
@[simp] theorem modWl_hap (s : State) (f : Watchlamp → Watchlamp) (n : Nat) : (s.modWl f).hap n = s.hap n := rfl
@[simp] theorem modWl_mbox (s : State) (f : Watchlamp → Watchlamp) (m : Nat) : (s.modWl f).mbox m = s.mbox m := rfl
@[simp] theorem modWl_rail (s : State) (f : Watchlamp → Watchlamp) (r : Nat) : (s.modWl f).rail r = s.rail r := rfl
@[simp] theorem modWl_fence (s : State) (f : Watchlamp → Watchlamp) (fn n : Nat) : (s.modWl f).fence fn n = s.fence fn n := rfl
@[simp] theorem modWl_up (s : State) (f : Watchlamp → Watchlamp) (i' : Nat) : (s.modWl f).up i' = s.up i' := rfl
@[simp] theorem modWl_stamp (s : State) (f : Watchlamp → Watchlamp) (i' : Nat) : (s.modWl f).stamp i' = s.stamp i' := rfl
@[simp] theorem modWl_mayWrite (s : State) (f : Watchlamp → Watchlamp) (fn' grp' : Nat) : (s.modWl f).mayWrite fn' grp' = s.mayWrite fn' grp' := rfl

/-! ### modCtx -/

@[simp] theorem modCtx_dt (s : State) (c : Nat) (f : Ctx → Ctx) : (s.modCtx c f).dt = s.dt := rfl
@[simp] theorem modCtx_time (s : State) (c : Nat) (f : Ctx → Ctx) : (s.modCtx c f).time = s.time := rfl
@[simp] theorem modCtx_isl (s : State) (c : Nat) (f : Ctx → Ctx) : (s.modCtx c f).isl = s.isl := rfl
@[simp] theorem modCtx_img (s : State) (c : Nat) (f : Ctx → Ctx) : (s.modCtx c f).img = s.img := rfl
@[simp] theorem modCtx_fns (s : State) (c : Nat) (f : Ctx → Ctx) : (s.modCtx c f).fns = s.fns := rfl
@[simp] theorem modCtx_queues (s : State) (c : Nat) (f : Ctx → Ctx) : (s.modCtx c f).queues = s.queues := rfl
@[simp] theorem modCtx_flights (s : State) (c : Nat) (f : Ctx → Ctx) : (s.modCtx c f).flights = s.flights := rfl
@[simp] theorem modCtx_nextId (s : State) (c : Nat) (f : Ctx → Ctx) : (s.modCtx c f).nextId = s.nextId := rfl
@[simp] theorem modCtx_ports (s : State) (c : Nat) (f : Ctx → Ctx) : (s.modCtx c f).ports = s.ports := rfl
@[simp] theorem modCtx_grpDrop (s : State) (c : Nat) (f : Ctx → Ctx) : (s.modCtx c f).grpDrop = s.grpDrop := rfl
@[simp] theorem modCtx_hdDrop (s : State) (c : Nat) (f : Ctx → Ctx) : (s.modCtx c f).hdDrop = s.hdDrop := rfl
@[simp] theorem modCtx_heads (s : State) (c : Nat) (f : Ctx → Ctx) : (s.modCtx c f).heads = s.heads := rfl
@[simp] theorem modCtx_slots (s : State) (c : Nat) (f : Ctx → Ctx) : (s.modCtx c f).slots = s.slots := rfl
@[simp] theorem modCtx_safe (s : State) (c : Nat) (f : Ctx → Ctx) : (s.modCtx c f).safe = s.safe := rfl
@[simp] theorem modCtx_pairs (s : State) (c : Nat) (f : Ctx → Ctx) : (s.modCtx c f).pairs = s.pairs := rfl
@[simp] theorem modCtx_store (s : State) (c : Nat) (f : Ctx → Ctx) : (s.modCtx c f).store = s.store := rfl
@[simp] theorem modCtx_wl (s : State) (c : Nat) (f : Ctx → Ctx) : (s.modCtx c f).wl = s.wl := rfl
@[simp] theorem modCtx_mem (s : State) (c : Nat) (f : Ctx → Ctx) : (s.modCtx c f).mem = s.mem := rfl
@[simp] theorem modCtx_fab (s : State) (c : Nat) (f : Ctx → Ctx) : (s.modCtx c f).fab = s.fab := rfl
@[simp] theorem modCtx_media (s : State) (c : Nat) (f : Ctx → Ctx) : (s.modCtx c f).media = s.media := rfl
@[simp] theorem modCtx_net (s : State) (c : Nat) (f : Ctx → Ctx) : (s.modCtx c f).net = s.net := rfl
@[simp] theorem modCtx_audio (s : State) (c : Nat) (f : Ctx → Ctx) : (s.modCtx c f).audio = s.audio := rfl
@[simp] theorem modCtx_sense (s : State) (c : Nat) (f : Ctx → Ctx) : (s.modCtx c f).sense = s.sense := rfl
@[simp] theorem modCtx_lan (s : State) (c : Nat) (f : Ctx → Ctx) : (s.modCtx c f).lan = s.lan := rfl
@[simp] theorem modCtx_flt (s : State) (c : Nat) (f : Ctx → Ctx) : (s.modCtx c f).flt = s.flt := rfl
@[simp] theorem modCtx_pwr (s : State) (c : Nat) (f : Ctx → Ctx) : (s.modCtx c f).pwr = s.pwr := rfl
@[simp] theorem modCtx_boot (s : State) (c : Nat) (f : Ctx → Ctx) : (s.modCtx c f).boot = s.boot := rfl
@[simp] theorem modCtx_draws (s : State) (c : Nat) (f : Ctx → Ctx) : (s.modCtx c f).draws = s.draws := rfl
@[simp] theorem modCtx_out (s : State) (c : Nat) (f : Ctx → Ctx) : (s.modCtx c f).out = s.out := rfl
@[simp] theorem modCtx_pending (s : State) (c : Nat) (f : Ctx → Ctx) : (s.modCtx c f).pending = s.pending := rfl
@[simp] theorem modCtx_chand_tapers (s : State) (c : Nat) (f : Ctx → Ctx) : (s.modCtx c f).chand.tapers = s.chand.tapers := rfl
@[simp] theorem modCtx_island (s : State) (c : Nat) (f : Ctx → Ctx) (i : Nat) : (s.modCtx c f).island i = s.island i := rfl
@[simp] theorem modCtx_fnc (s : State) (c : Nat) (f : Ctx → Ctx) (i : Nat) : (s.modCtx c f).fnc i = s.fnc i := rfl
@[simp] theorem modCtx_que (s : State) (c : Nat) (f : Ctx → Ctx) (fn q : Nat) : (s.modCtx c f).que fn q = s.que fn q := rfl
@[simp] theorem modCtx_port (s : State) (c : Nat) (f : Ctx → Ctx) (p : Nat) : (s.modCtx c f).port p = s.port p := rfl
@[simp] theorem modCtx_head (s : State) (c : Nat) (f : Ctx → Ctx) (h : Nat) : (s.modCtx c f).head h = s.head h := rfl
@[simp] theorem modCtx_slotOf (s : State) (c : Nat) (f : Ctx → Ctx) (n : Nat) : (s.modCtx c f).slotOf n = s.slotOf n := rfl
@[simp] theorem modCtx_safeOf (s : State) (c : Nat) (f : Ctx → Ctx) (h : Nat) : (s.modCtx c f).safeOf h = s.safeOf h := rfl
@[simp] theorem modCtx_pair (s : State) (c : Nat) (f : Ctx → Ctx) (p : Nat) : (s.modCtx c f).pair p = s.pair p := rfl
@[simp] theorem modCtx_ruleSt (s : State) (c : Nat) (f : Ctx → Ctx) (r : Nat) : (s.modCtx c f).ruleSt r = s.ruleSt r := rfl
@[simp] theorem modCtx_sigOf (s : State) (c : Nat) (f : Ctx → Ctx) (n : Nat) : (s.modCtx c f).sigOf n = s.sigOf n := rfl
@[simp] theorem modCtx_ctx (s : State) (c : Nat) (f : Ctx → Ctx) : (s.modCtx c f).ctx c = f (s.ctx c) := look_put _ _ _ _
theorem modCtx_ctx_ne (s : State) (c : Nat) (f : Ctx → Ctx) {j : Nat} (h' : j ≠ c) : (s.modCtx c f).ctx j = s.ctx j := look_put_ne _ _ _ h'
@[simp] theorem modCtx_taper (s : State) (c : Nat) (f : Ctx → Ctx) (t : Nat) : (s.modCtx c f).taper t = s.taper t := rfl
@[simp] theorem modCtx_chan (s : State) (c : Nat) (f : Ctx → Ctx) (c' : Nat) : (s.modCtx c f).chan c' = s.chan c' := rfl
@[simp] theorem modCtx_part (s : State) (c : Nat) (f : Ctx → Ctx) (p : Nat) : (s.modCtx c f).part p = s.part p := rfl
@[simp] theorem modCtx_target (s : State) (c : Nat) (f : Ctx → Ctx) (t : Nat) : (s.modCtx c f).target t = s.target t := rfl
@[simp] theorem modCtx_slotTab (s : State) (c : Nat) (f : Ctx → Ctx) (i : Nat) : (s.modCtx c f).slotTab i = s.slotTab i := rfl
@[simp] theorem modCtx_lock (s : State) (c : Nat) (f : Ctx → Ctx) (n : Nat) : (s.modCtx c f).lock n = s.lock n := rfl
@[simp] theorem modCtx_csi (s : State) (c : Nat) (f : Ctx → Ctx) (p : Nat) : (s.modCtx c f).csi p = s.csi p := rfl
@[simp] theorem modCtx_ptp (s : State) (c : Nat) (f : Ctx → Ctx) (d : Nat) : (s.modCtx c f).ptp d = s.ptp d := rfl
@[simp] theorem modCtx_eport (s : State) (c : Nat) (f : Ctx → Ctx) (p : Nat) : (s.modCtx c f).eport p = s.eport p := rfl
@[simp] theorem modCtx_gcl (s : State) (c : Nat) (f : Ctx → Ctx) (p : Nat) : (s.modCtx c f).gcl p = s.gcl p := rfl
@[simp] theorem modCtx_can (s : State) (c : Nat) (f : Ctx → Ctx) (n : Nat) : (s.modCtx c f).can n = s.can n := rfl
@[simp] theorem modCtx_tdm (s : State) (c : Nat) (f : Ctx → Ctx) (p : Nat) : (s.modCtx c f).tdm p = s.tdm p := rfl
@[simp] theorem modCtx_safeLoad (s : State) (c : Nat) (f : Ctx → Ctx) (fn : Nat) : (s.modCtx c f).safeLoad fn = s.safeLoad fn := rfl
@[simp] theorem modCtx_panel (s : State) (c : Nat) (f : Ctx → Ctx) (p : Nat) : (s.modCtx c f).panel p = s.panel p := rfl
@[simp] theorem modCtx_obj (s : State) (c : Nat) (f : Ctx → Ctx) (o : Nat) : (s.modCtx c f).obj o = s.obj o := rfl
@[simp] theorem modCtx_hap (s : State) (c : Nat) (f : Ctx → Ctx) (n : Nat) : (s.modCtx c f).hap n = s.hap n := rfl
@[simp] theorem modCtx_mbox (s : State) (c : Nat) (f : Ctx → Ctx) (m : Nat) : (s.modCtx c f).mbox m = s.mbox m := rfl
@[simp] theorem modCtx_rail (s : State) (c : Nat) (f : Ctx → Ctx) (r : Nat) : (s.modCtx c f).rail r = s.rail r := rfl
@[simp] theorem modCtx_fence (s : State) (c : Nat) (f : Ctx → Ctx) (fn n : Nat) : (s.modCtx c f).fence fn n = s.fence fn n := rfl
@[simp] theorem modCtx_up (s : State) (c : Nat) (f : Ctx → Ctx) (i' : Nat) : (s.modCtx c f).up i' = s.up i' := rfl
@[simp] theorem modCtx_stamp (s : State) (c : Nat) (f : Ctx → Ctx) (i' : Nat) : (s.modCtx c f).stamp i' = s.stamp i' := rfl
@[simp] theorem modCtx_mayWrite (s : State) (c : Nat) (f : Ctx → Ctx) (fn' grp' : Nat) : (s.modCtx c f).mayWrite fn' grp' = s.mayWrite fn' grp' := rfl

/-! ### modChand -/

@[simp] theorem modChand_dt (s : State) (f : Chand → Chand) : (s.modChand f).dt = s.dt := rfl
@[simp] theorem modChand_time (s : State) (f : Chand → Chand) : (s.modChand f).time = s.time := rfl
@[simp] theorem modChand_isl (s : State) (f : Chand → Chand) : (s.modChand f).isl = s.isl := rfl
@[simp] theorem modChand_img (s : State) (f : Chand → Chand) : (s.modChand f).img = s.img := rfl
@[simp] theorem modChand_fns (s : State) (f : Chand → Chand) : (s.modChand f).fns = s.fns := rfl
@[simp] theorem modChand_queues (s : State) (f : Chand → Chand) : (s.modChand f).queues = s.queues := rfl
@[simp] theorem modChand_flights (s : State) (f : Chand → Chand) : (s.modChand f).flights = s.flights := rfl
@[simp] theorem modChand_nextId (s : State) (f : Chand → Chand) : (s.modChand f).nextId = s.nextId := rfl
@[simp] theorem modChand_ports (s : State) (f : Chand → Chand) : (s.modChand f).ports = s.ports := rfl
@[simp] theorem modChand_grpDrop (s : State) (f : Chand → Chand) : (s.modChand f).grpDrop = s.grpDrop := rfl
@[simp] theorem modChand_hdDrop (s : State) (f : Chand → Chand) : (s.modChand f).hdDrop = s.hdDrop := rfl
@[simp] theorem modChand_heads (s : State) (f : Chand → Chand) : (s.modChand f).heads = s.heads := rfl
@[simp] theorem modChand_slots (s : State) (f : Chand → Chand) : (s.modChand f).slots = s.slots := rfl
@[simp] theorem modChand_safe (s : State) (f : Chand → Chand) : (s.modChand f).safe = s.safe := rfl
@[simp] theorem modChand_pairs (s : State) (f : Chand → Chand) : (s.modChand f).pairs = s.pairs := rfl
@[simp] theorem modChand_store (s : State) (f : Chand → Chand) : (s.modChand f).store = s.store := rfl
@[simp] theorem modChand_wl (s : State) (f : Chand → Chand) : (s.modChand f).wl = s.wl := rfl
@[simp] theorem modChand_mem (s : State) (f : Chand → Chand) : (s.modChand f).mem = s.mem := rfl
@[simp] theorem modChand_fab (s : State) (f : Chand → Chand) : (s.modChand f).fab = s.fab := rfl
@[simp] theorem modChand_media (s : State) (f : Chand → Chand) : (s.modChand f).media = s.media := rfl
@[simp] theorem modChand_net (s : State) (f : Chand → Chand) : (s.modChand f).net = s.net := rfl
@[simp] theorem modChand_audio (s : State) (f : Chand → Chand) : (s.modChand f).audio = s.audio := rfl
@[simp] theorem modChand_sense (s : State) (f : Chand → Chand) : (s.modChand f).sense = s.sense := rfl
@[simp] theorem modChand_lan (s : State) (f : Chand → Chand) : (s.modChand f).lan = s.lan := rfl
@[simp] theorem modChand_flt (s : State) (f : Chand → Chand) : (s.modChand f).flt = s.flt := rfl
@[simp] theorem modChand_pwr (s : State) (f : Chand → Chand) : (s.modChand f).pwr = s.pwr := rfl
@[simp] theorem modChand_boot (s : State) (f : Chand → Chand) : (s.modChand f).boot = s.boot := rfl
@[simp] theorem modChand_draws (s : State) (f : Chand → Chand) : (s.modChand f).draws = s.draws := rfl
@[simp] theorem modChand_out (s : State) (f : Chand → Chand) : (s.modChand f).out = s.out := rfl
@[simp] theorem modChand_pending (s : State) (f : Chand → Chand) : (s.modChand f).pending = s.pending := rfl
@[simp] theorem modChand_island (s : State) (f : Chand → Chand) (i : Nat) : (s.modChand f).island i = s.island i := rfl
@[simp] theorem modChand_fnc (s : State) (f : Chand → Chand) (i : Nat) : (s.modChand f).fnc i = s.fnc i := rfl
@[simp] theorem modChand_que (s : State) (f : Chand → Chand) (fn q : Nat) : (s.modChand f).que fn q = s.que fn q := rfl
@[simp] theorem modChand_port (s : State) (f : Chand → Chand) (p : Nat) : (s.modChand f).port p = s.port p := rfl
@[simp] theorem modChand_head (s : State) (f : Chand → Chand) (h : Nat) : (s.modChand f).head h = s.head h := rfl
@[simp] theorem modChand_slotOf (s : State) (f : Chand → Chand) (n : Nat) : (s.modChand f).slotOf n = s.slotOf n := rfl
@[simp] theorem modChand_safeOf (s : State) (f : Chand → Chand) (h : Nat) : (s.modChand f).safeOf h = s.safeOf h := rfl
@[simp] theorem modChand_pair (s : State) (f : Chand → Chand) (p : Nat) : (s.modChand f).pair p = s.pair p := rfl
@[simp] theorem modChand_ruleSt (s : State) (f : Chand → Chand) (r : Nat) : (s.modChand f).ruleSt r = s.ruleSt r := rfl
@[simp] theorem modChand_sigOf (s : State) (f : Chand → Chand) (n : Nat) : (s.modChand f).sigOf n = s.sigOf n := rfl
@[simp] theorem modChand_chan (s : State) (f : Chand → Chand) (c : Nat) : (s.modChand f).chan c = s.chan c := rfl
@[simp] theorem modChand_part (s : State) (f : Chand → Chand) (p : Nat) : (s.modChand f).part p = s.part p := rfl
@[simp] theorem modChand_target (s : State) (f : Chand → Chand) (t : Nat) : (s.modChand f).target t = s.target t := rfl
@[simp] theorem modChand_slotTab (s : State) (f : Chand → Chand) (i : Nat) : (s.modChand f).slotTab i = s.slotTab i := rfl
@[simp] theorem modChand_lock (s : State) (f : Chand → Chand) (n : Nat) : (s.modChand f).lock n = s.lock n := rfl
@[simp] theorem modChand_csi (s : State) (f : Chand → Chand) (p : Nat) : (s.modChand f).csi p = s.csi p := rfl
@[simp] theorem modChand_ptp (s : State) (f : Chand → Chand) (d : Nat) : (s.modChand f).ptp d = s.ptp d := rfl
@[simp] theorem modChand_eport (s : State) (f : Chand → Chand) (p : Nat) : (s.modChand f).eport p = s.eport p := rfl
@[simp] theorem modChand_gcl (s : State) (f : Chand → Chand) (p : Nat) : (s.modChand f).gcl p = s.gcl p := rfl
@[simp] theorem modChand_can (s : State) (f : Chand → Chand) (n : Nat) : (s.modChand f).can n = s.can n := rfl
@[simp] theorem modChand_tdm (s : State) (f : Chand → Chand) (p : Nat) : (s.modChand f).tdm p = s.tdm p := rfl
@[simp] theorem modChand_safeLoad (s : State) (f : Chand → Chand) (fn : Nat) : (s.modChand f).safeLoad fn = s.safeLoad fn := rfl
@[simp] theorem modChand_panel (s : State) (f : Chand → Chand) (p : Nat) : (s.modChand f).panel p = s.panel p := rfl
@[simp] theorem modChand_obj (s : State) (f : Chand → Chand) (o : Nat) : (s.modChand f).obj o = s.obj o := rfl
@[simp] theorem modChand_hap (s : State) (f : Chand → Chand) (n : Nat) : (s.modChand f).hap n = s.hap n := rfl
@[simp] theorem modChand_mbox (s : State) (f : Chand → Chand) (m : Nat) : (s.modChand f).mbox m = s.mbox m := rfl
@[simp] theorem modChand_rail (s : State) (f : Chand → Chand) (r : Nat) : (s.modChand f).rail r = s.rail r := rfl
@[simp] theorem modChand_fence (s : State) (f : Chand → Chand) (fn n : Nat) : (s.modChand f).fence fn n = s.fence fn n := rfl
@[simp] theorem modChand_up (s : State) (f : Chand → Chand) (i' : Nat) : (s.modChand f).up i' = s.up i' := rfl
@[simp] theorem modChand_stamp (s : State) (f : Chand → Chand) (i' : Nat) : (s.modChand f).stamp i' = s.stamp i' := rfl
@[simp] theorem modChand_mayWrite (s : State) (f : Chand → Chand) (fn' grp' : Nat) : (s.modChand f).mayWrite fn' grp' = s.mayWrite fn' grp' := rfl

/-! ### modTaper -/

@[simp] theorem modTaper_dt (s : State) (t : Nat) (f : Taper → Taper) : (s.modTaper t f).dt = s.dt := rfl
@[simp] theorem modTaper_time (s : State) (t : Nat) (f : Taper → Taper) : (s.modTaper t f).time = s.time := rfl
@[simp] theorem modTaper_isl (s : State) (t : Nat) (f : Taper → Taper) : (s.modTaper t f).isl = s.isl := rfl
@[simp] theorem modTaper_img (s : State) (t : Nat) (f : Taper → Taper) : (s.modTaper t f).img = s.img := rfl
@[simp] theorem modTaper_fns (s : State) (t : Nat) (f : Taper → Taper) : (s.modTaper t f).fns = s.fns := rfl
@[simp] theorem modTaper_queues (s : State) (t : Nat) (f : Taper → Taper) : (s.modTaper t f).queues = s.queues := rfl
@[simp] theorem modTaper_flights (s : State) (t : Nat) (f : Taper → Taper) : (s.modTaper t f).flights = s.flights := rfl
@[simp] theorem modTaper_nextId (s : State) (t : Nat) (f : Taper → Taper) : (s.modTaper t f).nextId = s.nextId := rfl
@[simp] theorem modTaper_ports (s : State) (t : Nat) (f : Taper → Taper) : (s.modTaper t f).ports = s.ports := rfl
@[simp] theorem modTaper_grpDrop (s : State) (t : Nat) (f : Taper → Taper) : (s.modTaper t f).grpDrop = s.grpDrop := rfl
@[simp] theorem modTaper_hdDrop (s : State) (t : Nat) (f : Taper → Taper) : (s.modTaper t f).hdDrop = s.hdDrop := rfl
@[simp] theorem modTaper_heads (s : State) (t : Nat) (f : Taper → Taper) : (s.modTaper t f).heads = s.heads := rfl
@[simp] theorem modTaper_slots (s : State) (t : Nat) (f : Taper → Taper) : (s.modTaper t f).slots = s.slots := rfl
@[simp] theorem modTaper_safe (s : State) (t : Nat) (f : Taper → Taper) : (s.modTaper t f).safe = s.safe := rfl
@[simp] theorem modTaper_pairs (s : State) (t : Nat) (f : Taper → Taper) : (s.modTaper t f).pairs = s.pairs := rfl
@[simp] theorem modTaper_store (s : State) (t : Nat) (f : Taper → Taper) : (s.modTaper t f).store = s.store := rfl
@[simp] theorem modTaper_wl (s : State) (t : Nat) (f : Taper → Taper) : (s.modTaper t f).wl = s.wl := rfl
@[simp] theorem modTaper_mem (s : State) (t : Nat) (f : Taper → Taper) : (s.modTaper t f).mem = s.mem := rfl
@[simp] theorem modTaper_fab (s : State) (t : Nat) (f : Taper → Taper) : (s.modTaper t f).fab = s.fab := rfl
@[simp] theorem modTaper_media (s : State) (t : Nat) (f : Taper → Taper) : (s.modTaper t f).media = s.media := rfl
@[simp] theorem modTaper_net (s : State) (t : Nat) (f : Taper → Taper) : (s.modTaper t f).net = s.net := rfl
@[simp] theorem modTaper_audio (s : State) (t : Nat) (f : Taper → Taper) : (s.modTaper t f).audio = s.audio := rfl
@[simp] theorem modTaper_sense (s : State) (t : Nat) (f : Taper → Taper) : (s.modTaper t f).sense = s.sense := rfl
@[simp] theorem modTaper_lan (s : State) (t : Nat) (f : Taper → Taper) : (s.modTaper t f).lan = s.lan := rfl
@[simp] theorem modTaper_flt (s : State) (t : Nat) (f : Taper → Taper) : (s.modTaper t f).flt = s.flt := rfl
@[simp] theorem modTaper_pwr (s : State) (t : Nat) (f : Taper → Taper) : (s.modTaper t f).pwr = s.pwr := rfl
@[simp] theorem modTaper_boot (s : State) (t : Nat) (f : Taper → Taper) : (s.modTaper t f).boot = s.boot := rfl
@[simp] theorem modTaper_draws (s : State) (t : Nat) (f : Taper → Taper) : (s.modTaper t f).draws = s.draws := rfl
@[simp] theorem modTaper_out (s : State) (t : Nat) (f : Taper → Taper) : (s.modTaper t f).out = s.out := rfl
@[simp] theorem modTaper_pending (s : State) (t : Nat) (f : Taper → Taper) : (s.modTaper t f).pending = s.pending := rfl
@[simp] theorem modTaper_chand_ctxs (s : State) (t : Nat) (f : Taper → Taper) : (s.modTaper t f).chand.ctxs = s.chand.ctxs := rfl
@[simp] theorem modTaper_island (s : State) (t : Nat) (f : Taper → Taper) (i : Nat) : (s.modTaper t f).island i = s.island i := rfl
@[simp] theorem modTaper_fnc (s : State) (t : Nat) (f : Taper → Taper) (i : Nat) : (s.modTaper t f).fnc i = s.fnc i := rfl
@[simp] theorem modTaper_que (s : State) (t : Nat) (f : Taper → Taper) (fn q : Nat) : (s.modTaper t f).que fn q = s.que fn q := rfl
@[simp] theorem modTaper_port (s : State) (t : Nat) (f : Taper → Taper) (p : Nat) : (s.modTaper t f).port p = s.port p := rfl
@[simp] theorem modTaper_head (s : State) (t : Nat) (f : Taper → Taper) (h : Nat) : (s.modTaper t f).head h = s.head h := rfl
@[simp] theorem modTaper_slotOf (s : State) (t : Nat) (f : Taper → Taper) (n : Nat) : (s.modTaper t f).slotOf n = s.slotOf n := rfl
@[simp] theorem modTaper_safeOf (s : State) (t : Nat) (f : Taper → Taper) (h : Nat) : (s.modTaper t f).safeOf h = s.safeOf h := rfl
@[simp] theorem modTaper_pair (s : State) (t : Nat) (f : Taper → Taper) (p : Nat) : (s.modTaper t f).pair p = s.pair p := rfl
@[simp] theorem modTaper_ruleSt (s : State) (t : Nat) (f : Taper → Taper) (r : Nat) : (s.modTaper t f).ruleSt r = s.ruleSt r := rfl
@[simp] theorem modTaper_sigOf (s : State) (t : Nat) (f : Taper → Taper) (n : Nat) : (s.modTaper t f).sigOf n = s.sigOf n := rfl
@[simp] theorem modTaper_ctx (s : State) (t : Nat) (f : Taper → Taper) (c : Nat) : (s.modTaper t f).ctx c = s.ctx c := rfl
@[simp] theorem modTaper_taper (s : State) (t : Nat) (f : Taper → Taper) : (s.modTaper t f).taper t = f (s.taper t) := look_put _ _ _ _
theorem modTaper_taper_ne (s : State) (t : Nat) (f : Taper → Taper) {j : Nat} (h' : j ≠ t) : (s.modTaper t f).taper j = s.taper j := look_put_ne _ _ _ h'
@[simp] theorem modTaper_chan (s : State) (t : Nat) (f : Taper → Taper) (c : Nat) : (s.modTaper t f).chan c = s.chan c := rfl
@[simp] theorem modTaper_part (s : State) (t : Nat) (f : Taper → Taper) (p : Nat) : (s.modTaper t f).part p = s.part p := rfl
@[simp] theorem modTaper_target (s : State) (t : Nat) (f : Taper → Taper) (t' : Nat) : (s.modTaper t f).target t' = s.target t' := rfl
@[simp] theorem modTaper_slotTab (s : State) (t : Nat) (f : Taper → Taper) (i : Nat) : (s.modTaper t f).slotTab i = s.slotTab i := rfl
@[simp] theorem modTaper_lock (s : State) (t : Nat) (f : Taper → Taper) (n : Nat) : (s.modTaper t f).lock n = s.lock n := rfl
@[simp] theorem modTaper_csi (s : State) (t : Nat) (f : Taper → Taper) (p : Nat) : (s.modTaper t f).csi p = s.csi p := rfl
@[simp] theorem modTaper_ptp (s : State) (t : Nat) (f : Taper → Taper) (d : Nat) : (s.modTaper t f).ptp d = s.ptp d := rfl
@[simp] theorem modTaper_eport (s : State) (t : Nat) (f : Taper → Taper) (p : Nat) : (s.modTaper t f).eport p = s.eport p := rfl
@[simp] theorem modTaper_gcl (s : State) (t : Nat) (f : Taper → Taper) (p : Nat) : (s.modTaper t f).gcl p = s.gcl p := rfl
@[simp] theorem modTaper_can (s : State) (t : Nat) (f : Taper → Taper) (n : Nat) : (s.modTaper t f).can n = s.can n := rfl
@[simp] theorem modTaper_tdm (s : State) (t : Nat) (f : Taper → Taper) (p : Nat) : (s.modTaper t f).tdm p = s.tdm p := rfl
@[simp] theorem modTaper_safeLoad (s : State) (t : Nat) (f : Taper → Taper) (fn : Nat) : (s.modTaper t f).safeLoad fn = s.safeLoad fn := rfl
@[simp] theorem modTaper_panel (s : State) (t : Nat) (f : Taper → Taper) (p : Nat) : (s.modTaper t f).panel p = s.panel p := rfl
@[simp] theorem modTaper_obj (s : State) (t : Nat) (f : Taper → Taper) (o : Nat) : (s.modTaper t f).obj o = s.obj o := rfl
@[simp] theorem modTaper_hap (s : State) (t : Nat) (f : Taper → Taper) (n : Nat) : (s.modTaper t f).hap n = s.hap n := rfl
@[simp] theorem modTaper_mbox (s : State) (t : Nat) (f : Taper → Taper) (m : Nat) : (s.modTaper t f).mbox m = s.mbox m := rfl
@[simp] theorem modTaper_rail (s : State) (t : Nat) (f : Taper → Taper) (r : Nat) : (s.modTaper t f).rail r = s.rail r := rfl
@[simp] theorem modTaper_fence (s : State) (t : Nat) (f : Taper → Taper) (fn n : Nat) : (s.modTaper t f).fence fn n = s.fence fn n := rfl
@[simp] theorem modTaper_up (s : State) (t : Nat) (f : Taper → Taper) (i' : Nat) : (s.modTaper t f).up i' = s.up i' := rfl
@[simp] theorem modTaper_stamp (s : State) (t : Nat) (f : Taper → Taper) (i' : Nat) : (s.modTaper t f).stamp i' = s.stamp i' := rfl
@[simp] theorem modTaper_mayWrite (s : State) (t : Nat) (f : Taper → Taper) (fn' grp' : Nat) : (s.modTaper t f).mayWrite fn' grp' = s.mayWrite fn' grp' := rfl

/-! ### modChan -/

@[simp] theorem modChan_dt (s : State) (c : Nat) (f : Chan → Chan) : (s.modChan c f).dt = s.dt := rfl
@[simp] theorem modChan_time (s : State) (c : Nat) (f : Chan → Chan) : (s.modChan c f).time = s.time := rfl
@[simp] theorem modChan_isl (s : State) (c : Nat) (f : Chan → Chan) : (s.modChan c f).isl = s.isl := rfl
@[simp] theorem modChan_img (s : State) (c : Nat) (f : Chan → Chan) : (s.modChan c f).img = s.img := rfl
@[simp] theorem modChan_fns (s : State) (c : Nat) (f : Chan → Chan) : (s.modChan c f).fns = s.fns := rfl
@[simp] theorem modChan_queues (s : State) (c : Nat) (f : Chan → Chan) : (s.modChan c f).queues = s.queues := rfl
@[simp] theorem modChan_flights (s : State) (c : Nat) (f : Chan → Chan) : (s.modChan c f).flights = s.flights := rfl
@[simp] theorem modChan_nextId (s : State) (c : Nat) (f : Chan → Chan) : (s.modChan c f).nextId = s.nextId := rfl
@[simp] theorem modChan_ports (s : State) (c : Nat) (f : Chan → Chan) : (s.modChan c f).ports = s.ports := rfl
@[simp] theorem modChan_grpDrop (s : State) (c : Nat) (f : Chan → Chan) : (s.modChan c f).grpDrop = s.grpDrop := rfl
@[simp] theorem modChan_hdDrop (s : State) (c : Nat) (f : Chan → Chan) : (s.modChan c f).hdDrop = s.hdDrop := rfl
@[simp] theorem modChan_heads (s : State) (c : Nat) (f : Chan → Chan) : (s.modChan c f).heads = s.heads := rfl
@[simp] theorem modChan_slots (s : State) (c : Nat) (f : Chan → Chan) : (s.modChan c f).slots = s.slots := rfl
@[simp] theorem modChan_safe (s : State) (c : Nat) (f : Chan → Chan) : (s.modChan c f).safe = s.safe := rfl
@[simp] theorem modChan_pairs (s : State) (c : Nat) (f : Chan → Chan) : (s.modChan c f).pairs = s.pairs := rfl
@[simp] theorem modChan_store (s : State) (c : Nat) (f : Chan → Chan) : (s.modChan c f).store = s.store := rfl
@[simp] theorem modChan_wl (s : State) (c : Nat) (f : Chan → Chan) : (s.modChan c f).wl = s.wl := rfl
@[simp] theorem modChan_chand (s : State) (c : Nat) (f : Chan → Chan) : (s.modChan c f).chand = s.chand := rfl
@[simp] theorem modChan_fab (s : State) (c : Nat) (f : Chan → Chan) : (s.modChan c f).fab = s.fab := rfl
@[simp] theorem modChan_media (s : State) (c : Nat) (f : Chan → Chan) : (s.modChan c f).media = s.media := rfl
@[simp] theorem modChan_net (s : State) (c : Nat) (f : Chan → Chan) : (s.modChan c f).net = s.net := rfl
@[simp] theorem modChan_audio (s : State) (c : Nat) (f : Chan → Chan) : (s.modChan c f).audio = s.audio := rfl
@[simp] theorem modChan_sense (s : State) (c : Nat) (f : Chan → Chan) : (s.modChan c f).sense = s.sense := rfl
@[simp] theorem modChan_lan (s : State) (c : Nat) (f : Chan → Chan) : (s.modChan c f).lan = s.lan := rfl
@[simp] theorem modChan_flt (s : State) (c : Nat) (f : Chan → Chan) : (s.modChan c f).flt = s.flt := rfl
@[simp] theorem modChan_pwr (s : State) (c : Nat) (f : Chan → Chan) : (s.modChan c f).pwr = s.pwr := rfl
@[simp] theorem modChan_boot (s : State) (c : Nat) (f : Chan → Chan) : (s.modChan c f).boot = s.boot := rfl
@[simp] theorem modChan_draws (s : State) (c : Nat) (f : Chan → Chan) : (s.modChan c f).draws = s.draws := rfl
@[simp] theorem modChan_out (s : State) (c : Nat) (f : Chan → Chan) : (s.modChan c f).out = s.out := rfl
@[simp] theorem modChan_pending (s : State) (c : Nat) (f : Chan → Chan) : (s.modChan c f).pending = s.pending := rfl
@[simp] theorem modChan_mem_dram (s : State) (c : Nat) (f : Chan → Chan) : (s.modChan c f).mem.dram = s.mem.dram := rfl
@[simp] theorem modChan_mem_parts (s : State) (c : Nat) (f : Chan → Chan) : (s.modChan c f).mem.parts = s.mem.parts := rfl
@[simp] theorem modChan_mem_lines (s : State) (c : Nat) (f : Chan → Chan) : (s.modChan c f).mem.lines = s.mem.lines := rfl
@[simp] theorem modChan_mem_reqs (s : State) (c : Nat) (f : Chan → Chan) : (s.modChan c f).mem.reqs = s.mem.reqs := rfl
@[simp] theorem modChan_island (s : State) (c : Nat) (f : Chan → Chan) (i : Nat) : (s.modChan c f).island i = s.island i := rfl
@[simp] theorem modChan_fnc (s : State) (c : Nat) (f : Chan → Chan) (i : Nat) : (s.modChan c f).fnc i = s.fnc i := rfl
@[simp] theorem modChan_que (s : State) (c : Nat) (f : Chan → Chan) (fn q : Nat) : (s.modChan c f).que fn q = s.que fn q := rfl
@[simp] theorem modChan_port (s : State) (c : Nat) (f : Chan → Chan) (p : Nat) : (s.modChan c f).port p = s.port p := rfl
@[simp] theorem modChan_head (s : State) (c : Nat) (f : Chan → Chan) (h : Nat) : (s.modChan c f).head h = s.head h := rfl
@[simp] theorem modChan_slotOf (s : State) (c : Nat) (f : Chan → Chan) (n : Nat) : (s.modChan c f).slotOf n = s.slotOf n := rfl
@[simp] theorem modChan_safeOf (s : State) (c : Nat) (f : Chan → Chan) (h : Nat) : (s.modChan c f).safeOf h = s.safeOf h := rfl
@[simp] theorem modChan_pair (s : State) (c : Nat) (f : Chan → Chan) (p : Nat) : (s.modChan c f).pair p = s.pair p := rfl
@[simp] theorem modChan_ruleSt (s : State) (c : Nat) (f : Chan → Chan) (r : Nat) : (s.modChan c f).ruleSt r = s.ruleSt r := rfl
@[simp] theorem modChan_sigOf (s : State) (c : Nat) (f : Chan → Chan) (n : Nat) : (s.modChan c f).sigOf n = s.sigOf n := rfl
@[simp] theorem modChan_ctx (s : State) (c : Nat) (f : Chan → Chan) (c' : Nat) : (s.modChan c f).ctx c' = s.ctx c' := rfl
@[simp] theorem modChan_taper (s : State) (c : Nat) (f : Chan → Chan) (t : Nat) : (s.modChan c f).taper t = s.taper t := rfl
@[simp] theorem modChan_chan (s : State) (c : Nat) (f : Chan → Chan) : (s.modChan c f).chan c = f (s.chan c) := look_put _ _ _ _
theorem modChan_chan_ne (s : State) (c : Nat) (f : Chan → Chan) {j : Nat} (h' : j ≠ c) : (s.modChan c f).chan j = s.chan j := look_put_ne _ _ _ h'
@[simp] theorem modChan_part (s : State) (c : Nat) (f : Chan → Chan) (p : Nat) : (s.modChan c f).part p = s.part p := rfl
@[simp] theorem modChan_target (s : State) (c : Nat) (f : Chan → Chan) (t : Nat) : (s.modChan c f).target t = s.target t := rfl
@[simp] theorem modChan_slotTab (s : State) (c : Nat) (f : Chan → Chan) (i : Nat) : (s.modChan c f).slotTab i = s.slotTab i := rfl
@[simp] theorem modChan_lock (s : State) (c : Nat) (f : Chan → Chan) (n : Nat) : (s.modChan c f).lock n = s.lock n := rfl
@[simp] theorem modChan_csi (s : State) (c : Nat) (f : Chan → Chan) (p : Nat) : (s.modChan c f).csi p = s.csi p := rfl
@[simp] theorem modChan_ptp (s : State) (c : Nat) (f : Chan → Chan) (d : Nat) : (s.modChan c f).ptp d = s.ptp d := rfl
@[simp] theorem modChan_eport (s : State) (c : Nat) (f : Chan → Chan) (p : Nat) : (s.modChan c f).eport p = s.eport p := rfl
@[simp] theorem modChan_gcl (s : State) (c : Nat) (f : Chan → Chan) (p : Nat) : (s.modChan c f).gcl p = s.gcl p := rfl
@[simp] theorem modChan_can (s : State) (c : Nat) (f : Chan → Chan) (n : Nat) : (s.modChan c f).can n = s.can n := rfl
@[simp] theorem modChan_tdm (s : State) (c : Nat) (f : Chan → Chan) (p : Nat) : (s.modChan c f).tdm p = s.tdm p := rfl
@[simp] theorem modChan_safeLoad (s : State) (c : Nat) (f : Chan → Chan) (fn : Nat) : (s.modChan c f).safeLoad fn = s.safeLoad fn := rfl
@[simp] theorem modChan_panel (s : State) (c : Nat) (f : Chan → Chan) (p : Nat) : (s.modChan c f).panel p = s.panel p := rfl
@[simp] theorem modChan_obj (s : State) (c : Nat) (f : Chan → Chan) (o : Nat) : (s.modChan c f).obj o = s.obj o := rfl
@[simp] theorem modChan_hap (s : State) (c : Nat) (f : Chan → Chan) (n : Nat) : (s.modChan c f).hap n = s.hap n := rfl
@[simp] theorem modChan_mbox (s : State) (c : Nat) (f : Chan → Chan) (m : Nat) : (s.modChan c f).mbox m = s.mbox m := rfl
@[simp] theorem modChan_rail (s : State) (c : Nat) (f : Chan → Chan) (r : Nat) : (s.modChan c f).rail r = s.rail r := rfl
@[simp] theorem modChan_fence (s : State) (c : Nat) (f : Chan → Chan) (fn n : Nat) : (s.modChan c f).fence fn n = s.fence fn n := rfl
@[simp] theorem modChan_up (s : State) (c : Nat) (f : Chan → Chan) (i' : Nat) : (s.modChan c f).up i' = s.up i' := rfl
@[simp] theorem modChan_stamp (s : State) (c : Nat) (f : Chan → Chan) (i' : Nat) : (s.modChan c f).stamp i' = s.stamp i' := rfl
@[simp] theorem modChan_mayWrite (s : State) (c : Nat) (f : Chan → Chan) (fn' grp' : Nat) : (s.modChan c f).mayWrite fn' grp' = s.mayWrite fn' grp' := rfl

/-! ### modMem -/

@[simp] theorem modMem_dt (s : State) (f : Mem → Mem) : (s.modMem f).dt = s.dt := rfl
@[simp] theorem modMem_time (s : State) (f : Mem → Mem) : (s.modMem f).time = s.time := rfl
@[simp] theorem modMem_isl (s : State) (f : Mem → Mem) : (s.modMem f).isl = s.isl := rfl
@[simp] theorem modMem_img (s : State) (f : Mem → Mem) : (s.modMem f).img = s.img := rfl
@[simp] theorem modMem_fns (s : State) (f : Mem → Mem) : (s.modMem f).fns = s.fns := rfl
@[simp] theorem modMem_queues (s : State) (f : Mem → Mem) : (s.modMem f).queues = s.queues := rfl
@[simp] theorem modMem_flights (s : State) (f : Mem → Mem) : (s.modMem f).flights = s.flights := rfl
@[simp] theorem modMem_nextId (s : State) (f : Mem → Mem) : (s.modMem f).nextId = s.nextId := rfl
@[simp] theorem modMem_ports (s : State) (f : Mem → Mem) : (s.modMem f).ports = s.ports := rfl
@[simp] theorem modMem_grpDrop (s : State) (f : Mem → Mem) : (s.modMem f).grpDrop = s.grpDrop := rfl
@[simp] theorem modMem_hdDrop (s : State) (f : Mem → Mem) : (s.modMem f).hdDrop = s.hdDrop := rfl
@[simp] theorem modMem_heads (s : State) (f : Mem → Mem) : (s.modMem f).heads = s.heads := rfl
@[simp] theorem modMem_slots (s : State) (f : Mem → Mem) : (s.modMem f).slots = s.slots := rfl
@[simp] theorem modMem_safe (s : State) (f : Mem → Mem) : (s.modMem f).safe = s.safe := rfl
@[simp] theorem modMem_pairs (s : State) (f : Mem → Mem) : (s.modMem f).pairs = s.pairs := rfl
@[simp] theorem modMem_store (s : State) (f : Mem → Mem) : (s.modMem f).store = s.store := rfl
@[simp] theorem modMem_wl (s : State) (f : Mem → Mem) : (s.modMem f).wl = s.wl := rfl
@[simp] theorem modMem_chand (s : State) (f : Mem → Mem) : (s.modMem f).chand = s.chand := rfl
@[simp] theorem modMem_fab (s : State) (f : Mem → Mem) : (s.modMem f).fab = s.fab := rfl
@[simp] theorem modMem_media (s : State) (f : Mem → Mem) : (s.modMem f).media = s.media := rfl
@[simp] theorem modMem_net (s : State) (f : Mem → Mem) : (s.modMem f).net = s.net := rfl
@[simp] theorem modMem_audio (s : State) (f : Mem → Mem) : (s.modMem f).audio = s.audio := rfl
@[simp] theorem modMem_sense (s : State) (f : Mem → Mem) : (s.modMem f).sense = s.sense := rfl
@[simp] theorem modMem_lan (s : State) (f : Mem → Mem) : (s.modMem f).lan = s.lan := rfl
@[simp] theorem modMem_flt (s : State) (f : Mem → Mem) : (s.modMem f).flt = s.flt := rfl
@[simp] theorem modMem_pwr (s : State) (f : Mem → Mem) : (s.modMem f).pwr = s.pwr := rfl
@[simp] theorem modMem_boot (s : State) (f : Mem → Mem) : (s.modMem f).boot = s.boot := rfl
@[simp] theorem modMem_draws (s : State) (f : Mem → Mem) : (s.modMem f).draws = s.draws := rfl
@[simp] theorem modMem_out (s : State) (f : Mem → Mem) : (s.modMem f).out = s.out := rfl
@[simp] theorem modMem_pending (s : State) (f : Mem → Mem) : (s.modMem f).pending = s.pending := rfl
@[simp] theorem modMem_island (s : State) (f : Mem → Mem) (i : Nat) : (s.modMem f).island i = s.island i := rfl
@[simp] theorem modMem_fnc (s : State) (f : Mem → Mem) (i : Nat) : (s.modMem f).fnc i = s.fnc i := rfl
@[simp] theorem modMem_que (s : State) (f : Mem → Mem) (fn q : Nat) : (s.modMem f).que fn q = s.que fn q := rfl
@[simp] theorem modMem_port (s : State) (f : Mem → Mem) (p : Nat) : (s.modMem f).port p = s.port p := rfl
@[simp] theorem modMem_head (s : State) (f : Mem → Mem) (h : Nat) : (s.modMem f).head h = s.head h := rfl
@[simp] theorem modMem_slotOf (s : State) (f : Mem → Mem) (n : Nat) : (s.modMem f).slotOf n = s.slotOf n := rfl
@[simp] theorem modMem_safeOf (s : State) (f : Mem → Mem) (h : Nat) : (s.modMem f).safeOf h = s.safeOf h := rfl
@[simp] theorem modMem_pair (s : State) (f : Mem → Mem) (p : Nat) : (s.modMem f).pair p = s.pair p := rfl
@[simp] theorem modMem_ruleSt (s : State) (f : Mem → Mem) (r : Nat) : (s.modMem f).ruleSt r = s.ruleSt r := rfl
@[simp] theorem modMem_sigOf (s : State) (f : Mem → Mem) (n : Nat) : (s.modMem f).sigOf n = s.sigOf n := rfl
@[simp] theorem modMem_ctx (s : State) (f : Mem → Mem) (c : Nat) : (s.modMem f).ctx c = s.ctx c := rfl
@[simp] theorem modMem_taper (s : State) (f : Mem → Mem) (t : Nat) : (s.modMem f).taper t = s.taper t := rfl
@[simp] theorem modMem_target (s : State) (f : Mem → Mem) (t : Nat) : (s.modMem f).target t = s.target t := rfl
@[simp] theorem modMem_slotTab (s : State) (f : Mem → Mem) (i : Nat) : (s.modMem f).slotTab i = s.slotTab i := rfl
@[simp] theorem modMem_lock (s : State) (f : Mem → Mem) (n : Nat) : (s.modMem f).lock n = s.lock n := rfl
@[simp] theorem modMem_csi (s : State) (f : Mem → Mem) (p : Nat) : (s.modMem f).csi p = s.csi p := rfl
@[simp] theorem modMem_ptp (s : State) (f : Mem → Mem) (d : Nat) : (s.modMem f).ptp d = s.ptp d := rfl
@[simp] theorem modMem_eport (s : State) (f : Mem → Mem) (p : Nat) : (s.modMem f).eport p = s.eport p := rfl
@[simp] theorem modMem_gcl (s : State) (f : Mem → Mem) (p : Nat) : (s.modMem f).gcl p = s.gcl p := rfl
@[simp] theorem modMem_can (s : State) (f : Mem → Mem) (n : Nat) : (s.modMem f).can n = s.can n := rfl
@[simp] theorem modMem_tdm (s : State) (f : Mem → Mem) (p : Nat) : (s.modMem f).tdm p = s.tdm p := rfl
@[simp] theorem modMem_safeLoad (s : State) (f : Mem → Mem) (fn : Nat) : (s.modMem f).safeLoad fn = s.safeLoad fn := rfl
@[simp] theorem modMem_panel (s : State) (f : Mem → Mem) (p : Nat) : (s.modMem f).panel p = s.panel p := rfl
@[simp] theorem modMem_obj (s : State) (f : Mem → Mem) (o : Nat) : (s.modMem f).obj o = s.obj o := rfl
@[simp] theorem modMem_hap (s : State) (f : Mem → Mem) (n : Nat) : (s.modMem f).hap n = s.hap n := rfl
@[simp] theorem modMem_mbox (s : State) (f : Mem → Mem) (m : Nat) : (s.modMem f).mbox m = s.mbox m := rfl
@[simp] theorem modMem_rail (s : State) (f : Mem → Mem) (r : Nat) : (s.modMem f).rail r = s.rail r := rfl
@[simp] theorem modMem_fence (s : State) (f : Mem → Mem) (fn n : Nat) : (s.modMem f).fence fn n = s.fence fn n := rfl
@[simp] theorem modMem_up (s : State) (f : Mem → Mem) (i' : Nat) : (s.modMem f).up i' = s.up i' := rfl
@[simp] theorem modMem_stamp (s : State) (f : Mem → Mem) (i' : Nat) : (s.modMem f).stamp i' = s.stamp i' := rfl
@[simp] theorem modMem_mayWrite (s : State) (f : Mem → Mem) (fn' grp' : Nat) : (s.modMem f).mayWrite fn' grp' = s.mayWrite fn' grp' := rfl

/-! ### modPart -/

@[simp] theorem modPart_dt (s : State) (p : Nat) (f : Part → Part) : (s.modPart p f).dt = s.dt := rfl
@[simp] theorem modPart_time (s : State) (p : Nat) (f : Part → Part) : (s.modPart p f).time = s.time := rfl
@[simp] theorem modPart_isl (s : State) (p : Nat) (f : Part → Part) : (s.modPart p f).isl = s.isl := rfl
@[simp] theorem modPart_img (s : State) (p : Nat) (f : Part → Part) : (s.modPart p f).img = s.img := rfl
@[simp] theorem modPart_fns (s : State) (p : Nat) (f : Part → Part) : (s.modPart p f).fns = s.fns := rfl
@[simp] theorem modPart_queues (s : State) (p : Nat) (f : Part → Part) : (s.modPart p f).queues = s.queues := rfl
@[simp] theorem modPart_flights (s : State) (p : Nat) (f : Part → Part) : (s.modPart p f).flights = s.flights := rfl
@[simp] theorem modPart_nextId (s : State) (p : Nat) (f : Part → Part) : (s.modPart p f).nextId = s.nextId := rfl
@[simp] theorem modPart_ports (s : State) (p : Nat) (f : Part → Part) : (s.modPart p f).ports = s.ports := rfl
@[simp] theorem modPart_grpDrop (s : State) (p : Nat) (f : Part → Part) : (s.modPart p f).grpDrop = s.grpDrop := rfl
@[simp] theorem modPart_hdDrop (s : State) (p : Nat) (f : Part → Part) : (s.modPart p f).hdDrop = s.hdDrop := rfl
@[simp] theorem modPart_heads (s : State) (p : Nat) (f : Part → Part) : (s.modPart p f).heads = s.heads := rfl
@[simp] theorem modPart_slots (s : State) (p : Nat) (f : Part → Part) : (s.modPart p f).slots = s.slots := rfl
@[simp] theorem modPart_safe (s : State) (p : Nat) (f : Part → Part) : (s.modPart p f).safe = s.safe := rfl
@[simp] theorem modPart_pairs (s : State) (p : Nat) (f : Part → Part) : (s.modPart p f).pairs = s.pairs := rfl
@[simp] theorem modPart_store (s : State) (p : Nat) (f : Part → Part) : (s.modPart p f).store = s.store := rfl
@[simp] theorem modPart_wl (s : State) (p : Nat) (f : Part → Part) : (s.modPart p f).wl = s.wl := rfl
@[simp] theorem modPart_chand (s : State) (p : Nat) (f : Part → Part) : (s.modPart p f).chand = s.chand := rfl
@[simp] theorem modPart_fab (s : State) (p : Nat) (f : Part → Part) : (s.modPart p f).fab = s.fab := rfl
@[simp] theorem modPart_media (s : State) (p : Nat) (f : Part → Part) : (s.modPart p f).media = s.media := rfl
@[simp] theorem modPart_net (s : State) (p : Nat) (f : Part → Part) : (s.modPart p f).net = s.net := rfl
@[simp] theorem modPart_audio (s : State) (p : Nat) (f : Part → Part) : (s.modPart p f).audio = s.audio := rfl
@[simp] theorem modPart_sense (s : State) (p : Nat) (f : Part → Part) : (s.modPart p f).sense = s.sense := rfl
@[simp] theorem modPart_lan (s : State) (p : Nat) (f : Part → Part) : (s.modPart p f).lan = s.lan := rfl
@[simp] theorem modPart_flt (s : State) (p : Nat) (f : Part → Part) : (s.modPart p f).flt = s.flt := rfl
@[simp] theorem modPart_pwr (s : State) (p : Nat) (f : Part → Part) : (s.modPart p f).pwr = s.pwr := rfl
@[simp] theorem modPart_boot (s : State) (p : Nat) (f : Part → Part) : (s.modPart p f).boot = s.boot := rfl
@[simp] theorem modPart_draws (s : State) (p : Nat) (f : Part → Part) : (s.modPart p f).draws = s.draws := rfl
@[simp] theorem modPart_out (s : State) (p : Nat) (f : Part → Part) : (s.modPart p f).out = s.out := rfl
@[simp] theorem modPart_pending (s : State) (p : Nat) (f : Part → Part) : (s.modPart p f).pending = s.pending := rfl
@[simp] theorem modPart_mem_dram (s : State) (p : Nat) (f : Part → Part) : (s.modPart p f).mem.dram = s.mem.dram := rfl
@[simp] theorem modPart_mem_chans (s : State) (p : Nat) (f : Part → Part) : (s.modPart p f).mem.chans = s.mem.chans := rfl
@[simp] theorem modPart_mem_lines (s : State) (p : Nat) (f : Part → Part) : (s.modPart p f).mem.lines = s.mem.lines := rfl
@[simp] theorem modPart_mem_reqs (s : State) (p : Nat) (f : Part → Part) : (s.modPart p f).mem.reqs = s.mem.reqs := rfl
@[simp] theorem modPart_island (s : State) (p : Nat) (f : Part → Part) (i : Nat) : (s.modPart p f).island i = s.island i := rfl
@[simp] theorem modPart_fnc (s : State) (p : Nat) (f : Part → Part) (i : Nat) : (s.modPart p f).fnc i = s.fnc i := rfl
@[simp] theorem modPart_que (s : State) (p : Nat) (f : Part → Part) (fn q : Nat) : (s.modPart p f).que fn q = s.que fn q := rfl
@[simp] theorem modPart_port (s : State) (p : Nat) (f : Part → Part) (p' : Nat) : (s.modPart p f).port p' = s.port p' := rfl
@[simp] theorem modPart_head (s : State) (p : Nat) (f : Part → Part) (h : Nat) : (s.modPart p f).head h = s.head h := rfl
@[simp] theorem modPart_slotOf (s : State) (p : Nat) (f : Part → Part) (n : Nat) : (s.modPart p f).slotOf n = s.slotOf n := rfl
@[simp] theorem modPart_safeOf (s : State) (p : Nat) (f : Part → Part) (h : Nat) : (s.modPart p f).safeOf h = s.safeOf h := rfl
@[simp] theorem modPart_pair (s : State) (p : Nat) (f : Part → Part) (p' : Nat) : (s.modPart p f).pair p' = s.pair p' := rfl
@[simp] theorem modPart_ruleSt (s : State) (p : Nat) (f : Part → Part) (r : Nat) : (s.modPart p f).ruleSt r = s.ruleSt r := rfl
@[simp] theorem modPart_sigOf (s : State) (p : Nat) (f : Part → Part) (n : Nat) : (s.modPart p f).sigOf n = s.sigOf n := rfl
@[simp] theorem modPart_ctx (s : State) (p : Nat) (f : Part → Part) (c : Nat) : (s.modPart p f).ctx c = s.ctx c := rfl
@[simp] theorem modPart_taper (s : State) (p : Nat) (f : Part → Part) (t : Nat) : (s.modPart p f).taper t = s.taper t := rfl
@[simp] theorem modPart_chan (s : State) (p : Nat) (f : Part → Part) (c : Nat) : (s.modPart p f).chan c = s.chan c := rfl
@[simp] theorem modPart_part (s : State) (p : Nat) (f : Part → Part) : (s.modPart p f).part p = f (s.part p) := look_put _ _ _ _
theorem modPart_part_ne (s : State) (p : Nat) (f : Part → Part) {j : Nat} (h' : j ≠ p) : (s.modPart p f).part j = s.part j := look_put_ne _ _ _ h'
@[simp] theorem modPart_target (s : State) (p : Nat) (f : Part → Part) (t : Nat) : (s.modPart p f).target t = s.target t := rfl
@[simp] theorem modPart_slotTab (s : State) (p : Nat) (f : Part → Part) (i : Nat) : (s.modPart p f).slotTab i = s.slotTab i := rfl
@[simp] theorem modPart_lock (s : State) (p : Nat) (f : Part → Part) (n : Nat) : (s.modPart p f).lock n = s.lock n := rfl
@[simp] theorem modPart_csi (s : State) (p : Nat) (f : Part → Part) (p' : Nat) : (s.modPart p f).csi p' = s.csi p' := rfl
@[simp] theorem modPart_ptp (s : State) (p : Nat) (f : Part → Part) (d : Nat) : (s.modPart p f).ptp d = s.ptp d := rfl
@[simp] theorem modPart_eport (s : State) (p : Nat) (f : Part → Part) (p' : Nat) : (s.modPart p f).eport p' = s.eport p' := rfl
@[simp] theorem modPart_gcl (s : State) (p : Nat) (f : Part → Part) (p' : Nat) : (s.modPart p f).gcl p' = s.gcl p' := rfl
@[simp] theorem modPart_can (s : State) (p : Nat) (f : Part → Part) (n : Nat) : (s.modPart p f).can n = s.can n := rfl
@[simp] theorem modPart_tdm (s : State) (p : Nat) (f : Part → Part) (p' : Nat) : (s.modPart p f).tdm p' = s.tdm p' := rfl
@[simp] theorem modPart_safeLoad (s : State) (p : Nat) (f : Part → Part) (fn : Nat) : (s.modPart p f).safeLoad fn = s.safeLoad fn := rfl
@[simp] theorem modPart_panel (s : State) (p : Nat) (f : Part → Part) (p' : Nat) : (s.modPart p f).panel p' = s.panel p' := rfl
@[simp] theorem modPart_obj (s : State) (p : Nat) (f : Part → Part) (o : Nat) : (s.modPart p f).obj o = s.obj o := rfl
@[simp] theorem modPart_hap (s : State) (p : Nat) (f : Part → Part) (n : Nat) : (s.modPart p f).hap n = s.hap n := rfl
@[simp] theorem modPart_mbox (s : State) (p : Nat) (f : Part → Part) (m : Nat) : (s.modPart p f).mbox m = s.mbox m := rfl
@[simp] theorem modPart_rail (s : State) (p : Nat) (f : Part → Part) (r : Nat) : (s.modPart p f).rail r = s.rail r := rfl
@[simp] theorem modPart_fence (s : State) (p : Nat) (f : Part → Part) (fn n : Nat) : (s.modPart p f).fence fn n = s.fence fn n := rfl
@[simp] theorem modPart_up (s : State) (p : Nat) (f : Part → Part) (i' : Nat) : (s.modPart p f).up i' = s.up i' := rfl
@[simp] theorem modPart_stamp (s : State) (p : Nat) (f : Part → Part) (i' : Nat) : (s.modPart p f).stamp i' = s.stamp i' := rfl
@[simp] theorem modPart_mayWrite (s : State) (p : Nat) (f : Part → Part) (fn' grp' : Nat) : (s.modPart p f).mayWrite fn' grp' = s.mayWrite fn' grp' := rfl

/-! ### modFab -/

@[simp] theorem modFab_dt (s : State) (f : Fabric → Fabric) : (s.modFab f).dt = s.dt := rfl
@[simp] theorem modFab_time (s : State) (f : Fabric → Fabric) : (s.modFab f).time = s.time := rfl
@[simp] theorem modFab_isl (s : State) (f : Fabric → Fabric) : (s.modFab f).isl = s.isl := rfl
@[simp] theorem modFab_img (s : State) (f : Fabric → Fabric) : (s.modFab f).img = s.img := rfl
@[simp] theorem modFab_fns (s : State) (f : Fabric → Fabric) : (s.modFab f).fns = s.fns := rfl
@[simp] theorem modFab_queues (s : State) (f : Fabric → Fabric) : (s.modFab f).queues = s.queues := rfl
@[simp] theorem modFab_flights (s : State) (f : Fabric → Fabric) : (s.modFab f).flights = s.flights := rfl
@[simp] theorem modFab_nextId (s : State) (f : Fabric → Fabric) : (s.modFab f).nextId = s.nextId := rfl
@[simp] theorem modFab_ports (s : State) (f : Fabric → Fabric) : (s.modFab f).ports = s.ports := rfl
@[simp] theorem modFab_grpDrop (s : State) (f : Fabric → Fabric) : (s.modFab f).grpDrop = s.grpDrop := rfl
@[simp] theorem modFab_hdDrop (s : State) (f : Fabric → Fabric) : (s.modFab f).hdDrop = s.hdDrop := rfl
@[simp] theorem modFab_heads (s : State) (f : Fabric → Fabric) : (s.modFab f).heads = s.heads := rfl
@[simp] theorem modFab_slots (s : State) (f : Fabric → Fabric) : (s.modFab f).slots = s.slots := rfl
@[simp] theorem modFab_safe (s : State) (f : Fabric → Fabric) : (s.modFab f).safe = s.safe := rfl
@[simp] theorem modFab_pairs (s : State) (f : Fabric → Fabric) : (s.modFab f).pairs = s.pairs := rfl
@[simp] theorem modFab_store (s : State) (f : Fabric → Fabric) : (s.modFab f).store = s.store := rfl
@[simp] theorem modFab_wl (s : State) (f : Fabric → Fabric) : (s.modFab f).wl = s.wl := rfl
@[simp] theorem modFab_chand (s : State) (f : Fabric → Fabric) : (s.modFab f).chand = s.chand := rfl
@[simp] theorem modFab_mem (s : State) (f : Fabric → Fabric) : (s.modFab f).mem = s.mem := rfl
@[simp] theorem modFab_media (s : State) (f : Fabric → Fabric) : (s.modFab f).media = s.media := rfl
@[simp] theorem modFab_net (s : State) (f : Fabric → Fabric) : (s.modFab f).net = s.net := rfl
@[simp] theorem modFab_audio (s : State) (f : Fabric → Fabric) : (s.modFab f).audio = s.audio := rfl
@[simp] theorem modFab_sense (s : State) (f : Fabric → Fabric) : (s.modFab f).sense = s.sense := rfl
@[simp] theorem modFab_lan (s : State) (f : Fabric → Fabric) : (s.modFab f).lan = s.lan := rfl
@[simp] theorem modFab_flt (s : State) (f : Fabric → Fabric) : (s.modFab f).flt = s.flt := rfl
@[simp] theorem modFab_pwr (s : State) (f : Fabric → Fabric) : (s.modFab f).pwr = s.pwr := rfl
@[simp] theorem modFab_boot (s : State) (f : Fabric → Fabric) : (s.modFab f).boot = s.boot := rfl
@[simp] theorem modFab_draws (s : State) (f : Fabric → Fabric) : (s.modFab f).draws = s.draws := rfl
@[simp] theorem modFab_out (s : State) (f : Fabric → Fabric) : (s.modFab f).out = s.out := rfl
@[simp] theorem modFab_pending (s : State) (f : Fabric → Fabric) : (s.modFab f).pending = s.pending := rfl
@[simp] theorem modFab_island (s : State) (f : Fabric → Fabric) (i : Nat) : (s.modFab f).island i = s.island i := rfl
@[simp] theorem modFab_fnc (s : State) (f : Fabric → Fabric) (i : Nat) : (s.modFab f).fnc i = s.fnc i := rfl
@[simp] theorem modFab_que (s : State) (f : Fabric → Fabric) (fn q : Nat) : (s.modFab f).que fn q = s.que fn q := rfl
@[simp] theorem modFab_port (s : State) (f : Fabric → Fabric) (p : Nat) : (s.modFab f).port p = s.port p := rfl
@[simp] theorem modFab_head (s : State) (f : Fabric → Fabric) (h : Nat) : (s.modFab f).head h = s.head h := rfl
@[simp] theorem modFab_slotOf (s : State) (f : Fabric → Fabric) (n : Nat) : (s.modFab f).slotOf n = s.slotOf n := rfl
@[simp] theorem modFab_safeOf (s : State) (f : Fabric → Fabric) (h : Nat) : (s.modFab f).safeOf h = s.safeOf h := rfl
@[simp] theorem modFab_pair (s : State) (f : Fabric → Fabric) (p : Nat) : (s.modFab f).pair p = s.pair p := rfl
@[simp] theorem modFab_ruleSt (s : State) (f : Fabric → Fabric) (r : Nat) : (s.modFab f).ruleSt r = s.ruleSt r := rfl
@[simp] theorem modFab_sigOf (s : State) (f : Fabric → Fabric) (n : Nat) : (s.modFab f).sigOf n = s.sigOf n := rfl
@[simp] theorem modFab_ctx (s : State) (f : Fabric → Fabric) (c : Nat) : (s.modFab f).ctx c = s.ctx c := rfl
@[simp] theorem modFab_taper (s : State) (f : Fabric → Fabric) (t : Nat) : (s.modFab f).taper t = s.taper t := rfl
@[simp] theorem modFab_chan (s : State) (f : Fabric → Fabric) (c : Nat) : (s.modFab f).chan c = s.chan c := rfl
@[simp] theorem modFab_part (s : State) (f : Fabric → Fabric) (p : Nat) : (s.modFab f).part p = s.part p := rfl
@[simp] theorem modFab_csi (s : State) (f : Fabric → Fabric) (p : Nat) : (s.modFab f).csi p = s.csi p := rfl
@[simp] theorem modFab_ptp (s : State) (f : Fabric → Fabric) (d : Nat) : (s.modFab f).ptp d = s.ptp d := rfl
@[simp] theorem modFab_eport (s : State) (f : Fabric → Fabric) (p : Nat) : (s.modFab f).eport p = s.eport p := rfl
@[simp] theorem modFab_gcl (s : State) (f : Fabric → Fabric) (p : Nat) : (s.modFab f).gcl p = s.gcl p := rfl
@[simp] theorem modFab_can (s : State) (f : Fabric → Fabric) (n : Nat) : (s.modFab f).can n = s.can n := rfl
@[simp] theorem modFab_tdm (s : State) (f : Fabric → Fabric) (p : Nat) : (s.modFab f).tdm p = s.tdm p := rfl
@[simp] theorem modFab_safeLoad (s : State) (f : Fabric → Fabric) (fn : Nat) : (s.modFab f).safeLoad fn = s.safeLoad fn := rfl
@[simp] theorem modFab_panel (s : State) (f : Fabric → Fabric) (p : Nat) : (s.modFab f).panel p = s.panel p := rfl
@[simp] theorem modFab_obj (s : State) (f : Fabric → Fabric) (o : Nat) : (s.modFab f).obj o = s.obj o := rfl
@[simp] theorem modFab_hap (s : State) (f : Fabric → Fabric) (n : Nat) : (s.modFab f).hap n = s.hap n := rfl
@[simp] theorem modFab_mbox (s : State) (f : Fabric → Fabric) (m : Nat) : (s.modFab f).mbox m = s.mbox m := rfl
@[simp] theorem modFab_rail (s : State) (f : Fabric → Fabric) (r : Nat) : (s.modFab f).rail r = s.rail r := rfl
@[simp] theorem modFab_up (s : State) (f : Fabric → Fabric) (i' : Nat) : (s.modFab f).up i' = s.up i' := rfl
@[simp] theorem modFab_stamp (s : State) (f : Fabric → Fabric) (i' : Nat) : (s.modFab f).stamp i' = s.stamp i' := rfl
@[simp] theorem modFab_mayWrite (s : State) (f : Fabric → Fabric) (fn' grp' : Nat) : (s.modFab f).mayWrite fn' grp' = s.mayWrite fn' grp' := rfl

/-! ### modTarget -/

@[simp] theorem modTarget_dt (s : State) (t : Nat) (f : Target → Target) : (s.modTarget t f).dt = s.dt := rfl
@[simp] theorem modTarget_time (s : State) (t : Nat) (f : Target → Target) : (s.modTarget t f).time = s.time := rfl
@[simp] theorem modTarget_isl (s : State) (t : Nat) (f : Target → Target) : (s.modTarget t f).isl = s.isl := rfl
@[simp] theorem modTarget_img (s : State) (t : Nat) (f : Target → Target) : (s.modTarget t f).img = s.img := rfl
@[simp] theorem modTarget_fns (s : State) (t : Nat) (f : Target → Target) : (s.modTarget t f).fns = s.fns := rfl
@[simp] theorem modTarget_queues (s : State) (t : Nat) (f : Target → Target) : (s.modTarget t f).queues = s.queues := rfl
@[simp] theorem modTarget_flights (s : State) (t : Nat) (f : Target → Target) : (s.modTarget t f).flights = s.flights := rfl
@[simp] theorem modTarget_nextId (s : State) (t : Nat) (f : Target → Target) : (s.modTarget t f).nextId = s.nextId := rfl
@[simp] theorem modTarget_ports (s : State) (t : Nat) (f : Target → Target) : (s.modTarget t f).ports = s.ports := rfl
@[simp] theorem modTarget_grpDrop (s : State) (t : Nat) (f : Target → Target) : (s.modTarget t f).grpDrop = s.grpDrop := rfl
@[simp] theorem modTarget_hdDrop (s : State) (t : Nat) (f : Target → Target) : (s.modTarget t f).hdDrop = s.hdDrop := rfl
@[simp] theorem modTarget_heads (s : State) (t : Nat) (f : Target → Target) : (s.modTarget t f).heads = s.heads := rfl
@[simp] theorem modTarget_slots (s : State) (t : Nat) (f : Target → Target) : (s.modTarget t f).slots = s.slots := rfl
@[simp] theorem modTarget_safe (s : State) (t : Nat) (f : Target → Target) : (s.modTarget t f).safe = s.safe := rfl
@[simp] theorem modTarget_pairs (s : State) (t : Nat) (f : Target → Target) : (s.modTarget t f).pairs = s.pairs := rfl
@[simp] theorem modTarget_store (s : State) (t : Nat) (f : Target → Target) : (s.modTarget t f).store = s.store := rfl
@[simp] theorem modTarget_wl (s : State) (t : Nat) (f : Target → Target) : (s.modTarget t f).wl = s.wl := rfl
@[simp] theorem modTarget_chand (s : State) (t : Nat) (f : Target → Target) : (s.modTarget t f).chand = s.chand := rfl
@[simp] theorem modTarget_mem (s : State) (t : Nat) (f : Target → Target) : (s.modTarget t f).mem = s.mem := rfl
@[simp] theorem modTarget_media (s : State) (t : Nat) (f : Target → Target) : (s.modTarget t f).media = s.media := rfl
@[simp] theorem modTarget_net (s : State) (t : Nat) (f : Target → Target) : (s.modTarget t f).net = s.net := rfl
@[simp] theorem modTarget_audio (s : State) (t : Nat) (f : Target → Target) : (s.modTarget t f).audio = s.audio := rfl
@[simp] theorem modTarget_sense (s : State) (t : Nat) (f : Target → Target) : (s.modTarget t f).sense = s.sense := rfl
@[simp] theorem modTarget_lan (s : State) (t : Nat) (f : Target → Target) : (s.modTarget t f).lan = s.lan := rfl
@[simp] theorem modTarget_flt (s : State) (t : Nat) (f : Target → Target) : (s.modTarget t f).flt = s.flt := rfl
@[simp] theorem modTarget_pwr (s : State) (t : Nat) (f : Target → Target) : (s.modTarget t f).pwr = s.pwr := rfl
@[simp] theorem modTarget_boot (s : State) (t : Nat) (f : Target → Target) : (s.modTarget t f).boot = s.boot := rfl
@[simp] theorem modTarget_draws (s : State) (t : Nat) (f : Target → Target) : (s.modTarget t f).draws = s.draws := rfl
@[simp] theorem modTarget_out (s : State) (t : Nat) (f : Target → Target) : (s.modTarget t f).out = s.out := rfl
@[simp] theorem modTarget_pending (s : State) (t : Nat) (f : Target → Target) : (s.modTarget t f).pending = s.pending := rfl
@[simp] theorem modTarget_fab_fence (s : State) (t : Nat) (f : Target → Target) : (s.modTarget t f).fab.fence = s.fab.fence := rfl
@[simp] theorem modTarget_fab_slots (s : State) (t : Nat) (f : Target → Target) : (s.modTarget t f).fab.slots = s.fab.slots := rfl
@[simp] theorem modTarget_fab_locks (s : State) (t : Nat) (f : Target → Target) : (s.modTarget t f).fab.locks = s.fab.locks := rfl
@[simp] theorem modTarget_island (s : State) (t : Nat) (f : Target → Target) (i : Nat) : (s.modTarget t f).island i = s.island i := rfl
@[simp] theorem modTarget_fnc (s : State) (t : Nat) (f : Target → Target) (i : Nat) : (s.modTarget t f).fnc i = s.fnc i := rfl
@[simp] theorem modTarget_que (s : State) (t : Nat) (f : Target → Target) (fn q : Nat) : (s.modTarget t f).que fn q = s.que fn q := rfl
@[simp] theorem modTarget_port (s : State) (t : Nat) (f : Target → Target) (p : Nat) : (s.modTarget t f).port p = s.port p := rfl
@[simp] theorem modTarget_head (s : State) (t : Nat) (f : Target → Target) (h : Nat) : (s.modTarget t f).head h = s.head h := rfl
@[simp] theorem modTarget_slotOf (s : State) (t : Nat) (f : Target → Target) (n : Nat) : (s.modTarget t f).slotOf n = s.slotOf n := rfl
@[simp] theorem modTarget_safeOf (s : State) (t : Nat) (f : Target → Target) (h : Nat) : (s.modTarget t f).safeOf h = s.safeOf h := rfl
@[simp] theorem modTarget_pair (s : State) (t : Nat) (f : Target → Target) (p : Nat) : (s.modTarget t f).pair p = s.pair p := rfl
@[simp] theorem modTarget_ruleSt (s : State) (t : Nat) (f : Target → Target) (r : Nat) : (s.modTarget t f).ruleSt r = s.ruleSt r := rfl
@[simp] theorem modTarget_sigOf (s : State) (t : Nat) (f : Target → Target) (n : Nat) : (s.modTarget t f).sigOf n = s.sigOf n := rfl
@[simp] theorem modTarget_ctx (s : State) (t : Nat) (f : Target → Target) (c : Nat) : (s.modTarget t f).ctx c = s.ctx c := rfl
@[simp] theorem modTarget_taper (s : State) (t : Nat) (f : Target → Target) (t' : Nat) : (s.modTarget t f).taper t' = s.taper t' := rfl
@[simp] theorem modTarget_chan (s : State) (t : Nat) (f : Target → Target) (c : Nat) : (s.modTarget t f).chan c = s.chan c := rfl
@[simp] theorem modTarget_part (s : State) (t : Nat) (f : Target → Target) (p : Nat) : (s.modTarget t f).part p = s.part p := rfl
@[simp] theorem modTarget_target (s : State) (t : Nat) (f : Target → Target) : (s.modTarget t f).target t = f (s.target t) := look_put _ _ _ _
theorem modTarget_target_ne (s : State) (t : Nat) (f : Target → Target) {j : Nat} (h' : j ≠ t) : (s.modTarget t f).target j = s.target j := look_put_ne _ _ _ h'
@[simp] theorem modTarget_slotTab (s : State) (t : Nat) (f : Target → Target) (i : Nat) : (s.modTarget t f).slotTab i = s.slotTab i := rfl
@[simp] theorem modTarget_lock (s : State) (t : Nat) (f : Target → Target) (n : Nat) : (s.modTarget t f).lock n = s.lock n := rfl
@[simp] theorem modTarget_csi (s : State) (t : Nat) (f : Target → Target) (p : Nat) : (s.modTarget t f).csi p = s.csi p := rfl
@[simp] theorem modTarget_ptp (s : State) (t : Nat) (f : Target → Target) (d : Nat) : (s.modTarget t f).ptp d = s.ptp d := rfl
@[simp] theorem modTarget_eport (s : State) (t : Nat) (f : Target → Target) (p : Nat) : (s.modTarget t f).eport p = s.eport p := rfl
@[simp] theorem modTarget_gcl (s : State) (t : Nat) (f : Target → Target) (p : Nat) : (s.modTarget t f).gcl p = s.gcl p := rfl
@[simp] theorem modTarget_can (s : State) (t : Nat) (f : Target → Target) (n : Nat) : (s.modTarget t f).can n = s.can n := rfl
@[simp] theorem modTarget_tdm (s : State) (t : Nat) (f : Target → Target) (p : Nat) : (s.modTarget t f).tdm p = s.tdm p := rfl
@[simp] theorem modTarget_safeLoad (s : State) (t : Nat) (f : Target → Target) (fn : Nat) : (s.modTarget t f).safeLoad fn = s.safeLoad fn := rfl
@[simp] theorem modTarget_panel (s : State) (t : Nat) (f : Target → Target) (p : Nat) : (s.modTarget t f).panel p = s.panel p := rfl
@[simp] theorem modTarget_obj (s : State) (t : Nat) (f : Target → Target) (o : Nat) : (s.modTarget t f).obj o = s.obj o := rfl
@[simp] theorem modTarget_hap (s : State) (t : Nat) (f : Target → Target) (n : Nat) : (s.modTarget t f).hap n = s.hap n := rfl
@[simp] theorem modTarget_mbox (s : State) (t : Nat) (f : Target → Target) (m : Nat) : (s.modTarget t f).mbox m = s.mbox m := rfl
@[simp] theorem modTarget_rail (s : State) (t : Nat) (f : Target → Target) (r : Nat) : (s.modTarget t f).rail r = s.rail r := rfl
@[simp] theorem modTarget_fence (s : State) (t : Nat) (f : Target → Target) (fn n : Nat) : (s.modTarget t f).fence fn n = s.fence fn n := rfl
@[simp] theorem modTarget_up (s : State) (t : Nat) (f : Target → Target) (i' : Nat) : (s.modTarget t f).up i' = s.up i' := rfl
@[simp] theorem modTarget_stamp (s : State) (t : Nat) (f : Target → Target) (i' : Nat) : (s.modTarget t f).stamp i' = s.stamp i' := rfl
@[simp] theorem modTarget_mayWrite (s : State) (t : Nat) (f : Target → Target) (fn' grp' : Nat) : (s.modTarget t f).mayWrite fn' grp' = s.mayWrite fn' grp' := rfl

/-! ### modSlotTab -/

@[simp] theorem modSlotTab_dt (s : State) (i : Nat) (f : SlotTable → SlotTable) : (s.modSlotTab i f).dt = s.dt := rfl
@[simp] theorem modSlotTab_time (s : State) (i : Nat) (f : SlotTable → SlotTable) : (s.modSlotTab i f).time = s.time := rfl
@[simp] theorem modSlotTab_isl (s : State) (i : Nat) (f : SlotTable → SlotTable) : (s.modSlotTab i f).isl = s.isl := rfl
@[simp] theorem modSlotTab_img (s : State) (i : Nat) (f : SlotTable → SlotTable) : (s.modSlotTab i f).img = s.img := rfl
@[simp] theorem modSlotTab_fns (s : State) (i : Nat) (f : SlotTable → SlotTable) : (s.modSlotTab i f).fns = s.fns := rfl
@[simp] theorem modSlotTab_queues (s : State) (i : Nat) (f : SlotTable → SlotTable) : (s.modSlotTab i f).queues = s.queues := rfl
@[simp] theorem modSlotTab_flights (s : State) (i : Nat) (f : SlotTable → SlotTable) : (s.modSlotTab i f).flights = s.flights := rfl
@[simp] theorem modSlotTab_nextId (s : State) (i : Nat) (f : SlotTable → SlotTable) : (s.modSlotTab i f).nextId = s.nextId := rfl
@[simp] theorem modSlotTab_ports (s : State) (i : Nat) (f : SlotTable → SlotTable) : (s.modSlotTab i f).ports = s.ports := rfl
@[simp] theorem modSlotTab_grpDrop (s : State) (i : Nat) (f : SlotTable → SlotTable) : (s.modSlotTab i f).grpDrop = s.grpDrop := rfl
@[simp] theorem modSlotTab_hdDrop (s : State) (i : Nat) (f : SlotTable → SlotTable) : (s.modSlotTab i f).hdDrop = s.hdDrop := rfl
@[simp] theorem modSlotTab_heads (s : State) (i : Nat) (f : SlotTable → SlotTable) : (s.modSlotTab i f).heads = s.heads := rfl
@[simp] theorem modSlotTab_slots (s : State) (i : Nat) (f : SlotTable → SlotTable) : (s.modSlotTab i f).slots = s.slots := rfl
@[simp] theorem modSlotTab_safe (s : State) (i : Nat) (f : SlotTable → SlotTable) : (s.modSlotTab i f).safe = s.safe := rfl
@[simp] theorem modSlotTab_pairs (s : State) (i : Nat) (f : SlotTable → SlotTable) : (s.modSlotTab i f).pairs = s.pairs := rfl
@[simp] theorem modSlotTab_store (s : State) (i : Nat) (f : SlotTable → SlotTable) : (s.modSlotTab i f).store = s.store := rfl
@[simp] theorem modSlotTab_wl (s : State) (i : Nat) (f : SlotTable → SlotTable) : (s.modSlotTab i f).wl = s.wl := rfl
@[simp] theorem modSlotTab_chand (s : State) (i : Nat) (f : SlotTable → SlotTable) : (s.modSlotTab i f).chand = s.chand := rfl
@[simp] theorem modSlotTab_mem (s : State) (i : Nat) (f : SlotTable → SlotTable) : (s.modSlotTab i f).mem = s.mem := rfl
@[simp] theorem modSlotTab_media (s : State) (i : Nat) (f : SlotTable → SlotTable) : (s.modSlotTab i f).media = s.media := rfl
@[simp] theorem modSlotTab_net (s : State) (i : Nat) (f : SlotTable → SlotTable) : (s.modSlotTab i f).net = s.net := rfl
@[simp] theorem modSlotTab_audio (s : State) (i : Nat) (f : SlotTable → SlotTable) : (s.modSlotTab i f).audio = s.audio := rfl
@[simp] theorem modSlotTab_sense (s : State) (i : Nat) (f : SlotTable → SlotTable) : (s.modSlotTab i f).sense = s.sense := rfl
@[simp] theorem modSlotTab_lan (s : State) (i : Nat) (f : SlotTable → SlotTable) : (s.modSlotTab i f).lan = s.lan := rfl
@[simp] theorem modSlotTab_flt (s : State) (i : Nat) (f : SlotTable → SlotTable) : (s.modSlotTab i f).flt = s.flt := rfl
@[simp] theorem modSlotTab_pwr (s : State) (i : Nat) (f : SlotTable → SlotTable) : (s.modSlotTab i f).pwr = s.pwr := rfl
@[simp] theorem modSlotTab_boot (s : State) (i : Nat) (f : SlotTable → SlotTable) : (s.modSlotTab i f).boot = s.boot := rfl
@[simp] theorem modSlotTab_draws (s : State) (i : Nat) (f : SlotTable → SlotTable) : (s.modSlotTab i f).draws = s.draws := rfl
@[simp] theorem modSlotTab_out (s : State) (i : Nat) (f : SlotTable → SlotTable) : (s.modSlotTab i f).out = s.out := rfl
@[simp] theorem modSlotTab_pending (s : State) (i : Nat) (f : SlotTable → SlotTable) : (s.modSlotTab i f).pending = s.pending := rfl
@[simp] theorem modSlotTab_fab_fence (s : State) (i : Nat) (f : SlotTable → SlotTable) : (s.modSlotTab i f).fab.fence = s.fab.fence := rfl
@[simp] theorem modSlotTab_fab_targets (s : State) (i : Nat) (f : SlotTable → SlotTable) : (s.modSlotTab i f).fab.targets = s.fab.targets := rfl
@[simp] theorem modSlotTab_fab_locks (s : State) (i : Nat) (f : SlotTable → SlotTable) : (s.modSlotTab i f).fab.locks = s.fab.locks := rfl
@[simp] theorem modSlotTab_island (s : State) (i : Nat) (f : SlotTable → SlotTable) (i' : Nat) : (s.modSlotTab i f).island i' = s.island i' := rfl
@[simp] theorem modSlotTab_fnc (s : State) (i : Nat) (f : SlotTable → SlotTable) (i' : Nat) : (s.modSlotTab i f).fnc i' = s.fnc i' := rfl
@[simp] theorem modSlotTab_que (s : State) (i : Nat) (f : SlotTable → SlotTable) (fn q : Nat) : (s.modSlotTab i f).que fn q = s.que fn q := rfl
@[simp] theorem modSlotTab_port (s : State) (i : Nat) (f : SlotTable → SlotTable) (p : Nat) : (s.modSlotTab i f).port p = s.port p := rfl
@[simp] theorem modSlotTab_head (s : State) (i : Nat) (f : SlotTable → SlotTable) (h : Nat) : (s.modSlotTab i f).head h = s.head h := rfl
@[simp] theorem modSlotTab_slotOf (s : State) (i : Nat) (f : SlotTable → SlotTable) (n : Nat) : (s.modSlotTab i f).slotOf n = s.slotOf n := rfl
@[simp] theorem modSlotTab_safeOf (s : State) (i : Nat) (f : SlotTable → SlotTable) (h : Nat) : (s.modSlotTab i f).safeOf h = s.safeOf h := rfl
@[simp] theorem modSlotTab_pair (s : State) (i : Nat) (f : SlotTable → SlotTable) (p : Nat) : (s.modSlotTab i f).pair p = s.pair p := rfl
@[simp] theorem modSlotTab_ruleSt (s : State) (i : Nat) (f : SlotTable → SlotTable) (r : Nat) : (s.modSlotTab i f).ruleSt r = s.ruleSt r := rfl
@[simp] theorem modSlotTab_sigOf (s : State) (i : Nat) (f : SlotTable → SlotTable) (n : Nat) : (s.modSlotTab i f).sigOf n = s.sigOf n := rfl
@[simp] theorem modSlotTab_ctx (s : State) (i : Nat) (f : SlotTable → SlotTable) (c : Nat) : (s.modSlotTab i f).ctx c = s.ctx c := rfl
@[simp] theorem modSlotTab_taper (s : State) (i : Nat) (f : SlotTable → SlotTable) (t : Nat) : (s.modSlotTab i f).taper t = s.taper t := rfl
@[simp] theorem modSlotTab_chan (s : State) (i : Nat) (f : SlotTable → SlotTable) (c : Nat) : (s.modSlotTab i f).chan c = s.chan c := rfl
@[simp] theorem modSlotTab_part (s : State) (i : Nat) (f : SlotTable → SlotTable) (p : Nat) : (s.modSlotTab i f).part p = s.part p := rfl
@[simp] theorem modSlotTab_target (s : State) (i : Nat) (f : SlotTable → SlotTable) (t : Nat) : (s.modSlotTab i f).target t = s.target t := rfl
@[simp] theorem modSlotTab_slotTab (s : State) (i : Nat) (f : SlotTable → SlotTable) : (s.modSlotTab i f).slotTab i = f (s.slotTab i) := look_put _ _ _ _
theorem modSlotTab_slotTab_ne (s : State) (i : Nat) (f : SlotTable → SlotTable) {j : Nat} (h' : j ≠ i) : (s.modSlotTab i f).slotTab j = s.slotTab j := look_put_ne _ _ _ h'
@[simp] theorem modSlotTab_lock (s : State) (i : Nat) (f : SlotTable → SlotTable) (n : Nat) : (s.modSlotTab i f).lock n = s.lock n := rfl
@[simp] theorem modSlotTab_csi (s : State) (i : Nat) (f : SlotTable → SlotTable) (p : Nat) : (s.modSlotTab i f).csi p = s.csi p := rfl
@[simp] theorem modSlotTab_ptp (s : State) (i : Nat) (f : SlotTable → SlotTable) (d : Nat) : (s.modSlotTab i f).ptp d = s.ptp d := rfl
@[simp] theorem modSlotTab_eport (s : State) (i : Nat) (f : SlotTable → SlotTable) (p : Nat) : (s.modSlotTab i f).eport p = s.eport p := rfl
@[simp] theorem modSlotTab_gcl (s : State) (i : Nat) (f : SlotTable → SlotTable) (p : Nat) : (s.modSlotTab i f).gcl p = s.gcl p := rfl
@[simp] theorem modSlotTab_can (s : State) (i : Nat) (f : SlotTable → SlotTable) (n : Nat) : (s.modSlotTab i f).can n = s.can n := rfl
@[simp] theorem modSlotTab_tdm (s : State) (i : Nat) (f : SlotTable → SlotTable) (p : Nat) : (s.modSlotTab i f).tdm p = s.tdm p := rfl
@[simp] theorem modSlotTab_safeLoad (s : State) (i : Nat) (f : SlotTable → SlotTable) (fn : Nat) : (s.modSlotTab i f).safeLoad fn = s.safeLoad fn := rfl
@[simp] theorem modSlotTab_panel (s : State) (i : Nat) (f : SlotTable → SlotTable) (p : Nat) : (s.modSlotTab i f).panel p = s.panel p := rfl
@[simp] theorem modSlotTab_obj (s : State) (i : Nat) (f : SlotTable → SlotTable) (o : Nat) : (s.modSlotTab i f).obj o = s.obj o := rfl
@[simp] theorem modSlotTab_hap (s : State) (i : Nat) (f : SlotTable → SlotTable) (n : Nat) : (s.modSlotTab i f).hap n = s.hap n := rfl
@[simp] theorem modSlotTab_mbox (s : State) (i : Nat) (f : SlotTable → SlotTable) (m : Nat) : (s.modSlotTab i f).mbox m = s.mbox m := rfl
@[simp] theorem modSlotTab_rail (s : State) (i : Nat) (f : SlotTable → SlotTable) (r : Nat) : (s.modSlotTab i f).rail r = s.rail r := rfl
@[simp] theorem modSlotTab_fence (s : State) (i : Nat) (f : SlotTable → SlotTable) (fn n : Nat) : (s.modSlotTab i f).fence fn n = s.fence fn n := rfl
@[simp] theorem modSlotTab_up (s : State) (i : Nat) (f : SlotTable → SlotTable) (i' : Nat) : (s.modSlotTab i f).up i' = s.up i' := rfl
@[simp] theorem modSlotTab_stamp (s : State) (i : Nat) (f : SlotTable → SlotTable) (i' : Nat) : (s.modSlotTab i f).stamp i' = s.stamp i' := rfl
@[simp] theorem modSlotTab_mayWrite (s : State) (i : Nat) (f : SlotTable → SlotTable) (fn' grp' : Nat) : (s.modSlotTab i f).mayWrite fn' grp' = s.mayWrite fn' grp' := rfl

/-! ### modLock -/

@[simp] theorem modLock_dt (s : State) (n : Nat) (f : Lock → Lock) : (s.modLock n f).dt = s.dt := rfl
@[simp] theorem modLock_time (s : State) (n : Nat) (f : Lock → Lock) : (s.modLock n f).time = s.time := rfl
@[simp] theorem modLock_isl (s : State) (n : Nat) (f : Lock → Lock) : (s.modLock n f).isl = s.isl := rfl
@[simp] theorem modLock_img (s : State) (n : Nat) (f : Lock → Lock) : (s.modLock n f).img = s.img := rfl
@[simp] theorem modLock_fns (s : State) (n : Nat) (f : Lock → Lock) : (s.modLock n f).fns = s.fns := rfl
@[simp] theorem modLock_queues (s : State) (n : Nat) (f : Lock → Lock) : (s.modLock n f).queues = s.queues := rfl
@[simp] theorem modLock_flights (s : State) (n : Nat) (f : Lock → Lock) : (s.modLock n f).flights = s.flights := rfl
@[simp] theorem modLock_nextId (s : State) (n : Nat) (f : Lock → Lock) : (s.modLock n f).nextId = s.nextId := rfl
@[simp] theorem modLock_ports (s : State) (n : Nat) (f : Lock → Lock) : (s.modLock n f).ports = s.ports := rfl
@[simp] theorem modLock_grpDrop (s : State) (n : Nat) (f : Lock → Lock) : (s.modLock n f).grpDrop = s.grpDrop := rfl
@[simp] theorem modLock_hdDrop (s : State) (n : Nat) (f : Lock → Lock) : (s.modLock n f).hdDrop = s.hdDrop := rfl
@[simp] theorem modLock_heads (s : State) (n : Nat) (f : Lock → Lock) : (s.modLock n f).heads = s.heads := rfl
@[simp] theorem modLock_slots (s : State) (n : Nat) (f : Lock → Lock) : (s.modLock n f).slots = s.slots := rfl
@[simp] theorem modLock_safe (s : State) (n : Nat) (f : Lock → Lock) : (s.modLock n f).safe = s.safe := rfl
@[simp] theorem modLock_pairs (s : State) (n : Nat) (f : Lock → Lock) : (s.modLock n f).pairs = s.pairs := rfl
@[simp] theorem modLock_store (s : State) (n : Nat) (f : Lock → Lock) : (s.modLock n f).store = s.store := rfl
@[simp] theorem modLock_wl (s : State) (n : Nat) (f : Lock → Lock) : (s.modLock n f).wl = s.wl := rfl
@[simp] theorem modLock_chand (s : State) (n : Nat) (f : Lock → Lock) : (s.modLock n f).chand = s.chand := rfl
@[simp] theorem modLock_mem (s : State) (n : Nat) (f : Lock → Lock) : (s.modLock n f).mem = s.mem := rfl
@[simp] theorem modLock_media (s : State) (n : Nat) (f : Lock → Lock) : (s.modLock n f).media = s.media := rfl
@[simp] theorem modLock_net (s : State) (n : Nat) (f : Lock → Lock) : (s.modLock n f).net = s.net := rfl
@[simp] theorem modLock_audio (s : State) (n : Nat) (f : Lock → Lock) : (s.modLock n f).audio = s.audio := rfl
@[simp] theorem modLock_sense (s : State) (n : Nat) (f : Lock → Lock) : (s.modLock n f).sense = s.sense := rfl
@[simp] theorem modLock_lan (s : State) (n : Nat) (f : Lock → Lock) : (s.modLock n f).lan = s.lan := rfl
@[simp] theorem modLock_flt (s : State) (n : Nat) (f : Lock → Lock) : (s.modLock n f).flt = s.flt := rfl
@[simp] theorem modLock_pwr (s : State) (n : Nat) (f : Lock → Lock) : (s.modLock n f).pwr = s.pwr := rfl
@[simp] theorem modLock_boot (s : State) (n : Nat) (f : Lock → Lock) : (s.modLock n f).boot = s.boot := rfl
@[simp] theorem modLock_draws (s : State) (n : Nat) (f : Lock → Lock) : (s.modLock n f).draws = s.draws := rfl
@[simp] theorem modLock_out (s : State) (n : Nat) (f : Lock → Lock) : (s.modLock n f).out = s.out := rfl
@[simp] theorem modLock_pending (s : State) (n : Nat) (f : Lock → Lock) : (s.modLock n f).pending = s.pending := rfl
@[simp] theorem modLock_fab_fence (s : State) (n : Nat) (f : Lock → Lock) : (s.modLock n f).fab.fence = s.fab.fence := rfl
@[simp] theorem modLock_fab_targets (s : State) (n : Nat) (f : Lock → Lock) : (s.modLock n f).fab.targets = s.fab.targets := rfl
@[simp] theorem modLock_fab_slots (s : State) (n : Nat) (f : Lock → Lock) : (s.modLock n f).fab.slots = s.fab.slots := rfl
@[simp] theorem modLock_island (s : State) (n : Nat) (f : Lock → Lock) (i : Nat) : (s.modLock n f).island i = s.island i := rfl
@[simp] theorem modLock_fnc (s : State) (n : Nat) (f : Lock → Lock) (i : Nat) : (s.modLock n f).fnc i = s.fnc i := rfl
@[simp] theorem modLock_que (s : State) (n : Nat) (f : Lock → Lock) (fn q : Nat) : (s.modLock n f).que fn q = s.que fn q := rfl
@[simp] theorem modLock_port (s : State) (n : Nat) (f : Lock → Lock) (p : Nat) : (s.modLock n f).port p = s.port p := rfl
@[simp] theorem modLock_head (s : State) (n : Nat) (f : Lock → Lock) (h : Nat) : (s.modLock n f).head h = s.head h := rfl
@[simp] theorem modLock_slotOf (s : State) (n : Nat) (f : Lock → Lock) (n' : Nat) : (s.modLock n f).slotOf n' = s.slotOf n' := rfl
@[simp] theorem modLock_safeOf (s : State) (n : Nat) (f : Lock → Lock) (h : Nat) : (s.modLock n f).safeOf h = s.safeOf h := rfl
@[simp] theorem modLock_pair (s : State) (n : Nat) (f : Lock → Lock) (p : Nat) : (s.modLock n f).pair p = s.pair p := rfl
@[simp] theorem modLock_ruleSt (s : State) (n : Nat) (f : Lock → Lock) (r : Nat) : (s.modLock n f).ruleSt r = s.ruleSt r := rfl
@[simp] theorem modLock_sigOf (s : State) (n : Nat) (f : Lock → Lock) (n' : Nat) : (s.modLock n f).sigOf n' = s.sigOf n' := rfl
@[simp] theorem modLock_ctx (s : State) (n : Nat) (f : Lock → Lock) (c : Nat) : (s.modLock n f).ctx c = s.ctx c := rfl
@[simp] theorem modLock_taper (s : State) (n : Nat) (f : Lock → Lock) (t : Nat) : (s.modLock n f).taper t = s.taper t := rfl
@[simp] theorem modLock_chan (s : State) (n : Nat) (f : Lock → Lock) (c : Nat) : (s.modLock n f).chan c = s.chan c := rfl
@[simp] theorem modLock_part (s : State) (n : Nat) (f : Lock → Lock) (p : Nat) : (s.modLock n f).part p = s.part p := rfl
@[simp] theorem modLock_target (s : State) (n : Nat) (f : Lock → Lock) (t : Nat) : (s.modLock n f).target t = s.target t := rfl
@[simp] theorem modLock_slotTab (s : State) (n : Nat) (f : Lock → Lock) (i : Nat) : (s.modLock n f).slotTab i = s.slotTab i := rfl
@[simp] theorem modLock_lock (s : State) (n : Nat) (f : Lock → Lock) : (s.modLock n f).lock n = f (s.lock n) := look_put _ _ _ _
theorem modLock_lock_ne (s : State) (n : Nat) (f : Lock → Lock) {j : Nat} (h' : j ≠ n) : (s.modLock n f).lock j = s.lock j := look_put_ne _ _ _ h'
@[simp] theorem modLock_csi (s : State) (n : Nat) (f : Lock → Lock) (p : Nat) : (s.modLock n f).csi p = s.csi p := rfl
@[simp] theorem modLock_ptp (s : State) (n : Nat) (f : Lock → Lock) (d : Nat) : (s.modLock n f).ptp d = s.ptp d := rfl
@[simp] theorem modLock_eport (s : State) (n : Nat) (f : Lock → Lock) (p : Nat) : (s.modLock n f).eport p = s.eport p := rfl
@[simp] theorem modLock_gcl (s : State) (n : Nat) (f : Lock → Lock) (p : Nat) : (s.modLock n f).gcl p = s.gcl p := rfl
@[simp] theorem modLock_can (s : State) (n : Nat) (f : Lock → Lock) (n' : Nat) : (s.modLock n f).can n' = s.can n' := rfl
@[simp] theorem modLock_tdm (s : State) (n : Nat) (f : Lock → Lock) (p : Nat) : (s.modLock n f).tdm p = s.tdm p := rfl
@[simp] theorem modLock_safeLoad (s : State) (n : Nat) (f : Lock → Lock) (fn : Nat) : (s.modLock n f).safeLoad fn = s.safeLoad fn := rfl
@[simp] theorem modLock_panel (s : State) (n : Nat) (f : Lock → Lock) (p : Nat) : (s.modLock n f).panel p = s.panel p := rfl
@[simp] theorem modLock_obj (s : State) (n : Nat) (f : Lock → Lock) (o : Nat) : (s.modLock n f).obj o = s.obj o := rfl
@[simp] theorem modLock_hap (s : State) (n : Nat) (f : Lock → Lock) (n' : Nat) : (s.modLock n f).hap n' = s.hap n' := rfl
@[simp] theorem modLock_mbox (s : State) (n : Nat) (f : Lock → Lock) (m : Nat) : (s.modLock n f).mbox m = s.mbox m := rfl
@[simp] theorem modLock_rail (s : State) (n : Nat) (f : Lock → Lock) (r : Nat) : (s.modLock n f).rail r = s.rail r := rfl
@[simp] theorem modLock_fence (s : State) (n : Nat) (f : Lock → Lock) (fn n' : Nat) : (s.modLock n f).fence fn n' = s.fence fn n' := rfl
@[simp] theorem modLock_up (s : State) (n : Nat) (f : Lock → Lock) (i' : Nat) : (s.modLock n f).up i' = s.up i' := rfl
@[simp] theorem modLock_stamp (s : State) (n : Nat) (f : Lock → Lock) (i' : Nat) : (s.modLock n f).stamp i' = s.stamp i' := rfl
@[simp] theorem modLock_mayWrite (s : State) (n : Nat) (f : Lock → Lock) (fn' grp' : Nat) : (s.modLock n f).mayWrite fn' grp' = s.mayWrite fn' grp' := rfl

/-! ### modCsi -/

@[simp] theorem modCsi_dt (s : State) (p : Nat) (f : Csi → Csi) : (s.modCsi p f).dt = s.dt := rfl
@[simp] theorem modCsi_time (s : State) (p : Nat) (f : Csi → Csi) : (s.modCsi p f).time = s.time := rfl
@[simp] theorem modCsi_isl (s : State) (p : Nat) (f : Csi → Csi) : (s.modCsi p f).isl = s.isl := rfl
@[simp] theorem modCsi_img (s : State) (p : Nat) (f : Csi → Csi) : (s.modCsi p f).img = s.img := rfl
@[simp] theorem modCsi_fns (s : State) (p : Nat) (f : Csi → Csi) : (s.modCsi p f).fns = s.fns := rfl
@[simp] theorem modCsi_queues (s : State) (p : Nat) (f : Csi → Csi) : (s.modCsi p f).queues = s.queues := rfl
@[simp] theorem modCsi_flights (s : State) (p : Nat) (f : Csi → Csi) : (s.modCsi p f).flights = s.flights := rfl
@[simp] theorem modCsi_nextId (s : State) (p : Nat) (f : Csi → Csi) : (s.modCsi p f).nextId = s.nextId := rfl
@[simp] theorem modCsi_ports (s : State) (p : Nat) (f : Csi → Csi) : (s.modCsi p f).ports = s.ports := rfl
@[simp] theorem modCsi_grpDrop (s : State) (p : Nat) (f : Csi → Csi) : (s.modCsi p f).grpDrop = s.grpDrop := rfl
@[simp] theorem modCsi_hdDrop (s : State) (p : Nat) (f : Csi → Csi) : (s.modCsi p f).hdDrop = s.hdDrop := rfl
@[simp] theorem modCsi_heads (s : State) (p : Nat) (f : Csi → Csi) : (s.modCsi p f).heads = s.heads := rfl
@[simp] theorem modCsi_slots (s : State) (p : Nat) (f : Csi → Csi) : (s.modCsi p f).slots = s.slots := rfl
@[simp] theorem modCsi_safe (s : State) (p : Nat) (f : Csi → Csi) : (s.modCsi p f).safe = s.safe := rfl
@[simp] theorem modCsi_pairs (s : State) (p : Nat) (f : Csi → Csi) : (s.modCsi p f).pairs = s.pairs := rfl
@[simp] theorem modCsi_store (s : State) (p : Nat) (f : Csi → Csi) : (s.modCsi p f).store = s.store := rfl
@[simp] theorem modCsi_wl (s : State) (p : Nat) (f : Csi → Csi) : (s.modCsi p f).wl = s.wl := rfl
@[simp] theorem modCsi_chand (s : State) (p : Nat) (f : Csi → Csi) : (s.modCsi p f).chand = s.chand := rfl
@[simp] theorem modCsi_mem (s : State) (p : Nat) (f : Csi → Csi) : (s.modCsi p f).mem = s.mem := rfl
@[simp] theorem modCsi_fab (s : State) (p : Nat) (f : Csi → Csi) : (s.modCsi p f).fab = s.fab := rfl
@[simp] theorem modCsi_net (s : State) (p : Nat) (f : Csi → Csi) : (s.modCsi p f).net = s.net := rfl
@[simp] theorem modCsi_audio (s : State) (p : Nat) (f : Csi → Csi) : (s.modCsi p f).audio = s.audio := rfl
@[simp] theorem modCsi_sense (s : State) (p : Nat) (f : Csi → Csi) : (s.modCsi p f).sense = s.sense := rfl
@[simp] theorem modCsi_lan (s : State) (p : Nat) (f : Csi → Csi) : (s.modCsi p f).lan = s.lan := rfl
@[simp] theorem modCsi_flt (s : State) (p : Nat) (f : Csi → Csi) : (s.modCsi p f).flt = s.flt := rfl
@[simp] theorem modCsi_pwr (s : State) (p : Nat) (f : Csi → Csi) : (s.modCsi p f).pwr = s.pwr := rfl
@[simp] theorem modCsi_boot (s : State) (p : Nat) (f : Csi → Csi) : (s.modCsi p f).boot = s.boot := rfl
@[simp] theorem modCsi_draws (s : State) (p : Nat) (f : Csi → Csi) : (s.modCsi p f).draws = s.draws := rfl
@[simp] theorem modCsi_out (s : State) (p : Nat) (f : Csi → Csi) : (s.modCsi p f).out = s.out := rfl
@[simp] theorem modCsi_pending (s : State) (p : Nat) (f : Csi → Csi) : (s.modCsi p f).pending = s.pending := rfl
@[simp] theorem modCsi_island (s : State) (p : Nat) (f : Csi → Csi) (i : Nat) : (s.modCsi p f).island i = s.island i := rfl
@[simp] theorem modCsi_fnc (s : State) (p : Nat) (f : Csi → Csi) (i : Nat) : (s.modCsi p f).fnc i = s.fnc i := rfl
@[simp] theorem modCsi_que (s : State) (p : Nat) (f : Csi → Csi) (fn q : Nat) : (s.modCsi p f).que fn q = s.que fn q := rfl
@[simp] theorem modCsi_port (s : State) (p : Nat) (f : Csi → Csi) (p' : Nat) : (s.modCsi p f).port p' = s.port p' := rfl
@[simp] theorem modCsi_head (s : State) (p : Nat) (f : Csi → Csi) (h : Nat) : (s.modCsi p f).head h = s.head h := rfl
@[simp] theorem modCsi_slotOf (s : State) (p : Nat) (f : Csi → Csi) (n : Nat) : (s.modCsi p f).slotOf n = s.slotOf n := rfl
@[simp] theorem modCsi_safeOf (s : State) (p : Nat) (f : Csi → Csi) (h : Nat) : (s.modCsi p f).safeOf h = s.safeOf h := rfl
@[simp] theorem modCsi_pair (s : State) (p : Nat) (f : Csi → Csi) (p' : Nat) : (s.modCsi p f).pair p' = s.pair p' := rfl
@[simp] theorem modCsi_ruleSt (s : State) (p : Nat) (f : Csi → Csi) (r : Nat) : (s.modCsi p f).ruleSt r = s.ruleSt r := rfl
@[simp] theorem modCsi_sigOf (s : State) (p : Nat) (f : Csi → Csi) (n : Nat) : (s.modCsi p f).sigOf n = s.sigOf n := rfl
@[simp] theorem modCsi_ctx (s : State) (p : Nat) (f : Csi → Csi) (c : Nat) : (s.modCsi p f).ctx c = s.ctx c := rfl
@[simp] theorem modCsi_taper (s : State) (p : Nat) (f : Csi → Csi) (t : Nat) : (s.modCsi p f).taper t = s.taper t := rfl
@[simp] theorem modCsi_chan (s : State) (p : Nat) (f : Csi → Csi) (c : Nat) : (s.modCsi p f).chan c = s.chan c := rfl
@[simp] theorem modCsi_part (s : State) (p : Nat) (f : Csi → Csi) (p' : Nat) : (s.modCsi p f).part p' = s.part p' := rfl
@[simp] theorem modCsi_target (s : State) (p : Nat) (f : Csi → Csi) (t : Nat) : (s.modCsi p f).target t = s.target t := rfl
@[simp] theorem modCsi_slotTab (s : State) (p : Nat) (f : Csi → Csi) (i : Nat) : (s.modCsi p f).slotTab i = s.slotTab i := rfl
@[simp] theorem modCsi_lock (s : State) (p : Nat) (f : Csi → Csi) (n : Nat) : (s.modCsi p f).lock n = s.lock n := rfl
@[simp] theorem modCsi_csi (s : State) (p : Nat) (f : Csi → Csi) : (s.modCsi p f).csi p = f (s.csi p) := look_put _ _ _ _
theorem modCsi_csi_ne (s : State) (p : Nat) (f : Csi → Csi) {j : Nat} (h' : j ≠ p) : (s.modCsi p f).csi j = s.csi j := look_put_ne _ _ _ h'
@[simp] theorem modCsi_ptp (s : State) (p : Nat) (f : Csi → Csi) (d : Nat) : (s.modCsi p f).ptp d = s.ptp d := rfl
@[simp] theorem modCsi_eport (s : State) (p : Nat) (f : Csi → Csi) (p' : Nat) : (s.modCsi p f).eport p' = s.eport p' := rfl
@[simp] theorem modCsi_gcl (s : State) (p : Nat) (f : Csi → Csi) (p' : Nat) : (s.modCsi p f).gcl p' = s.gcl p' := rfl
@[simp] theorem modCsi_can (s : State) (p : Nat) (f : Csi → Csi) (n : Nat) : (s.modCsi p f).can n = s.can n := rfl
@[simp] theorem modCsi_tdm (s : State) (p : Nat) (f : Csi → Csi) (p' : Nat) : (s.modCsi p f).tdm p' = s.tdm p' := rfl
@[simp] theorem modCsi_safeLoad (s : State) (p : Nat) (f : Csi → Csi) (fn : Nat) : (s.modCsi p f).safeLoad fn = s.safeLoad fn := rfl
@[simp] theorem modCsi_panel (s : State) (p : Nat) (f : Csi → Csi) (p' : Nat) : (s.modCsi p f).panel p' = s.panel p' := rfl
@[simp] theorem modCsi_obj (s : State) (p : Nat) (f : Csi → Csi) (o : Nat) : (s.modCsi p f).obj o = s.obj o := rfl
@[simp] theorem modCsi_hap (s : State) (p : Nat) (f : Csi → Csi) (n : Nat) : (s.modCsi p f).hap n = s.hap n := rfl
@[simp] theorem modCsi_mbox (s : State) (p : Nat) (f : Csi → Csi) (m : Nat) : (s.modCsi p f).mbox m = s.mbox m := rfl
@[simp] theorem modCsi_rail (s : State) (p : Nat) (f : Csi → Csi) (r : Nat) : (s.modCsi p f).rail r = s.rail r := rfl
@[simp] theorem modCsi_fence (s : State) (p : Nat) (f : Csi → Csi) (fn n : Nat) : (s.modCsi p f).fence fn n = s.fence fn n := rfl
@[simp] theorem modCsi_up (s : State) (p : Nat) (f : Csi → Csi) (i' : Nat) : (s.modCsi p f).up i' = s.up i' := rfl
@[simp] theorem modCsi_stamp (s : State) (p : Nat) (f : Csi → Csi) (i' : Nat) : (s.modCsi p f).stamp i' = s.stamp i' := rfl
@[simp] theorem modCsi_mayWrite (s : State) (p : Nat) (f : Csi → Csi) (fn' grp' : Nat) : (s.modCsi p f).mayWrite fn' grp' = s.mayWrite fn' grp' := rfl

/-! ### modNet -/

@[simp] theorem modNet_dt (s : State) (f : Net → Net) : (s.modNet f).dt = s.dt := rfl
@[simp] theorem modNet_time (s : State) (f : Net → Net) : (s.modNet f).time = s.time := rfl
@[simp] theorem modNet_isl (s : State) (f : Net → Net) : (s.modNet f).isl = s.isl := rfl
@[simp] theorem modNet_img (s : State) (f : Net → Net) : (s.modNet f).img = s.img := rfl
@[simp] theorem modNet_fns (s : State) (f : Net → Net) : (s.modNet f).fns = s.fns := rfl
@[simp] theorem modNet_queues (s : State) (f : Net → Net) : (s.modNet f).queues = s.queues := rfl
@[simp] theorem modNet_flights (s : State) (f : Net → Net) : (s.modNet f).flights = s.flights := rfl
@[simp] theorem modNet_nextId (s : State) (f : Net → Net) : (s.modNet f).nextId = s.nextId := rfl
@[simp] theorem modNet_ports (s : State) (f : Net → Net) : (s.modNet f).ports = s.ports := rfl
@[simp] theorem modNet_grpDrop (s : State) (f : Net → Net) : (s.modNet f).grpDrop = s.grpDrop := rfl
@[simp] theorem modNet_hdDrop (s : State) (f : Net → Net) : (s.modNet f).hdDrop = s.hdDrop := rfl
@[simp] theorem modNet_heads (s : State) (f : Net → Net) : (s.modNet f).heads = s.heads := rfl
@[simp] theorem modNet_slots (s : State) (f : Net → Net) : (s.modNet f).slots = s.slots := rfl
@[simp] theorem modNet_safe (s : State) (f : Net → Net) : (s.modNet f).safe = s.safe := rfl
@[simp] theorem modNet_pairs (s : State) (f : Net → Net) : (s.modNet f).pairs = s.pairs := rfl
@[simp] theorem modNet_store (s : State) (f : Net → Net) : (s.modNet f).store = s.store := rfl
@[simp] theorem modNet_wl (s : State) (f : Net → Net) : (s.modNet f).wl = s.wl := rfl
@[simp] theorem modNet_chand (s : State) (f : Net → Net) : (s.modNet f).chand = s.chand := rfl
@[simp] theorem modNet_mem (s : State) (f : Net → Net) : (s.modNet f).mem = s.mem := rfl
@[simp] theorem modNet_fab (s : State) (f : Net → Net) : (s.modNet f).fab = s.fab := rfl
@[simp] theorem modNet_media (s : State) (f : Net → Net) : (s.modNet f).media = s.media := rfl
@[simp] theorem modNet_audio (s : State) (f : Net → Net) : (s.modNet f).audio = s.audio := rfl
@[simp] theorem modNet_sense (s : State) (f : Net → Net) : (s.modNet f).sense = s.sense := rfl
@[simp] theorem modNet_lan (s : State) (f : Net → Net) : (s.modNet f).lan = s.lan := rfl
@[simp] theorem modNet_flt (s : State) (f : Net → Net) : (s.modNet f).flt = s.flt := rfl
@[simp] theorem modNet_pwr (s : State) (f : Net → Net) : (s.modNet f).pwr = s.pwr := rfl
@[simp] theorem modNet_boot (s : State) (f : Net → Net) : (s.modNet f).boot = s.boot := rfl
@[simp] theorem modNet_draws (s : State) (f : Net → Net) : (s.modNet f).draws = s.draws := rfl
@[simp] theorem modNet_out (s : State) (f : Net → Net) : (s.modNet f).out = s.out := rfl
@[simp] theorem modNet_pending (s : State) (f : Net → Net) : (s.modNet f).pending = s.pending := rfl
@[simp] theorem modNet_island (s : State) (f : Net → Net) (i : Nat) : (s.modNet f).island i = s.island i := rfl
@[simp] theorem modNet_fnc (s : State) (f : Net → Net) (i : Nat) : (s.modNet f).fnc i = s.fnc i := rfl
@[simp] theorem modNet_que (s : State) (f : Net → Net) (fn q : Nat) : (s.modNet f).que fn q = s.que fn q := rfl
@[simp] theorem modNet_port (s : State) (f : Net → Net) (p : Nat) : (s.modNet f).port p = s.port p := rfl
@[simp] theorem modNet_head (s : State) (f : Net → Net) (h : Nat) : (s.modNet f).head h = s.head h := rfl
@[simp] theorem modNet_slotOf (s : State) (f : Net → Net) (n : Nat) : (s.modNet f).slotOf n = s.slotOf n := rfl
@[simp] theorem modNet_safeOf (s : State) (f : Net → Net) (h : Nat) : (s.modNet f).safeOf h = s.safeOf h := rfl
@[simp] theorem modNet_pair (s : State) (f : Net → Net) (p : Nat) : (s.modNet f).pair p = s.pair p := rfl
@[simp] theorem modNet_ruleSt (s : State) (f : Net → Net) (r : Nat) : (s.modNet f).ruleSt r = s.ruleSt r := rfl
@[simp] theorem modNet_sigOf (s : State) (f : Net → Net) (n : Nat) : (s.modNet f).sigOf n = s.sigOf n := rfl
@[simp] theorem modNet_ctx (s : State) (f : Net → Net) (c : Nat) : (s.modNet f).ctx c = s.ctx c := rfl
@[simp] theorem modNet_taper (s : State) (f : Net → Net) (t : Nat) : (s.modNet f).taper t = s.taper t := rfl
@[simp] theorem modNet_chan (s : State) (f : Net → Net) (c : Nat) : (s.modNet f).chan c = s.chan c := rfl
@[simp] theorem modNet_part (s : State) (f : Net → Net) (p : Nat) : (s.modNet f).part p = s.part p := rfl
@[simp] theorem modNet_target (s : State) (f : Net → Net) (t : Nat) : (s.modNet f).target t = s.target t := rfl
@[simp] theorem modNet_slotTab (s : State) (f : Net → Net) (i : Nat) : (s.modNet f).slotTab i = s.slotTab i := rfl
@[simp] theorem modNet_lock (s : State) (f : Net → Net) (n : Nat) : (s.modNet f).lock n = s.lock n := rfl
@[simp] theorem modNet_csi (s : State) (f : Net → Net) (p : Nat) : (s.modNet f).csi p = s.csi p := rfl
@[simp] theorem modNet_tdm (s : State) (f : Net → Net) (p : Nat) : (s.modNet f).tdm p = s.tdm p := rfl
@[simp] theorem modNet_safeLoad (s : State) (f : Net → Net) (fn : Nat) : (s.modNet f).safeLoad fn = s.safeLoad fn := rfl
@[simp] theorem modNet_panel (s : State) (f : Net → Net) (p : Nat) : (s.modNet f).panel p = s.panel p := rfl
@[simp] theorem modNet_obj (s : State) (f : Net → Net) (o : Nat) : (s.modNet f).obj o = s.obj o := rfl
@[simp] theorem modNet_hap (s : State) (f : Net → Net) (n : Nat) : (s.modNet f).hap n = s.hap n := rfl
@[simp] theorem modNet_mbox (s : State) (f : Net → Net) (m : Nat) : (s.modNet f).mbox m = s.mbox m := rfl
@[simp] theorem modNet_rail (s : State) (f : Net → Net) (r : Nat) : (s.modNet f).rail r = s.rail r := rfl
@[simp] theorem modNet_fence (s : State) (f : Net → Net) (fn n : Nat) : (s.modNet f).fence fn n = s.fence fn n := rfl
@[simp] theorem modNet_up (s : State) (f : Net → Net) (i' : Nat) : (s.modNet f).up i' = s.up i' := rfl
@[simp] theorem modNet_stamp (s : State) (f : Net → Net) (i' : Nat) : (s.modNet f).stamp i' = s.stamp i' := rfl
@[simp] theorem modNet_mayWrite (s : State) (f : Net → Net) (fn' grp' : Nat) : (s.modNet f).mayWrite fn' grp' = s.mayWrite fn' grp' := rfl

/-! ### modPtp -/

@[simp] theorem modPtp_dt (s : State) (d : Nat) (f : Ptp → Ptp) : (s.modPtp d f).dt = s.dt := rfl
@[simp] theorem modPtp_time (s : State) (d : Nat) (f : Ptp → Ptp) : (s.modPtp d f).time = s.time := rfl
@[simp] theorem modPtp_isl (s : State) (d : Nat) (f : Ptp → Ptp) : (s.modPtp d f).isl = s.isl := rfl
@[simp] theorem modPtp_img (s : State) (d : Nat) (f : Ptp → Ptp) : (s.modPtp d f).img = s.img := rfl
@[simp] theorem modPtp_fns (s : State) (d : Nat) (f : Ptp → Ptp) : (s.modPtp d f).fns = s.fns := rfl
@[simp] theorem modPtp_queues (s : State) (d : Nat) (f : Ptp → Ptp) : (s.modPtp d f).queues = s.queues := rfl
@[simp] theorem modPtp_flights (s : State) (d : Nat) (f : Ptp → Ptp) : (s.modPtp d f).flights = s.flights := rfl
@[simp] theorem modPtp_nextId (s : State) (d : Nat) (f : Ptp → Ptp) : (s.modPtp d f).nextId = s.nextId := rfl
@[simp] theorem modPtp_ports (s : State) (d : Nat) (f : Ptp → Ptp) : (s.modPtp d f).ports = s.ports := rfl
@[simp] theorem modPtp_grpDrop (s : State) (d : Nat) (f : Ptp → Ptp) : (s.modPtp d f).grpDrop = s.grpDrop := rfl
@[simp] theorem modPtp_hdDrop (s : State) (d : Nat) (f : Ptp → Ptp) : (s.modPtp d f).hdDrop = s.hdDrop := rfl
@[simp] theorem modPtp_heads (s : State) (d : Nat) (f : Ptp → Ptp) : (s.modPtp d f).heads = s.heads := rfl
@[simp] theorem modPtp_slots (s : State) (d : Nat) (f : Ptp → Ptp) : (s.modPtp d f).slots = s.slots := rfl
@[simp] theorem modPtp_safe (s : State) (d : Nat) (f : Ptp → Ptp) : (s.modPtp d f).safe = s.safe := rfl
@[simp] theorem modPtp_pairs (s : State) (d : Nat) (f : Ptp → Ptp) : (s.modPtp d f).pairs = s.pairs := rfl
@[simp] theorem modPtp_store (s : State) (d : Nat) (f : Ptp → Ptp) : (s.modPtp d f).store = s.store := rfl
@[simp] theorem modPtp_wl (s : State) (d : Nat) (f : Ptp → Ptp) : (s.modPtp d f).wl = s.wl := rfl
@[simp] theorem modPtp_chand (s : State) (d : Nat) (f : Ptp → Ptp) : (s.modPtp d f).chand = s.chand := rfl
@[simp] theorem modPtp_mem (s : State) (d : Nat) (f : Ptp → Ptp) : (s.modPtp d f).mem = s.mem := rfl
@[simp] theorem modPtp_fab (s : State) (d : Nat) (f : Ptp → Ptp) : (s.modPtp d f).fab = s.fab := rfl
@[simp] theorem modPtp_media (s : State) (d : Nat) (f : Ptp → Ptp) : (s.modPtp d f).media = s.media := rfl
@[simp] theorem modPtp_audio (s : State) (d : Nat) (f : Ptp → Ptp) : (s.modPtp d f).audio = s.audio := rfl
@[simp] theorem modPtp_sense (s : State) (d : Nat) (f : Ptp → Ptp) : (s.modPtp d f).sense = s.sense := rfl
@[simp] theorem modPtp_lan (s : State) (d : Nat) (f : Ptp → Ptp) : (s.modPtp d f).lan = s.lan := rfl
@[simp] theorem modPtp_flt (s : State) (d : Nat) (f : Ptp → Ptp) : (s.modPtp d f).flt = s.flt := rfl
@[simp] theorem modPtp_pwr (s : State) (d : Nat) (f : Ptp → Ptp) : (s.modPtp d f).pwr = s.pwr := rfl
@[simp] theorem modPtp_boot (s : State) (d : Nat) (f : Ptp → Ptp) : (s.modPtp d f).boot = s.boot := rfl
@[simp] theorem modPtp_draws (s : State) (d : Nat) (f : Ptp → Ptp) : (s.modPtp d f).draws = s.draws := rfl
@[simp] theorem modPtp_out (s : State) (d : Nat) (f : Ptp → Ptp) : (s.modPtp d f).out = s.out := rfl
@[simp] theorem modPtp_pending (s : State) (d : Nat) (f : Ptp → Ptp) : (s.modPtp d f).pending = s.pending := rfl
@[simp] theorem modPtp_island (s : State) (d : Nat) (f : Ptp → Ptp) (i : Nat) : (s.modPtp d f).island i = s.island i := rfl
@[simp] theorem modPtp_fnc (s : State) (d : Nat) (f : Ptp → Ptp) (i : Nat) : (s.modPtp d f).fnc i = s.fnc i := rfl
@[simp] theorem modPtp_que (s : State) (d : Nat) (f : Ptp → Ptp) (fn q : Nat) : (s.modPtp d f).que fn q = s.que fn q := rfl
@[simp] theorem modPtp_port (s : State) (d : Nat) (f : Ptp → Ptp) (p : Nat) : (s.modPtp d f).port p = s.port p := rfl
@[simp] theorem modPtp_head (s : State) (d : Nat) (f : Ptp → Ptp) (h : Nat) : (s.modPtp d f).head h = s.head h := rfl
@[simp] theorem modPtp_slotOf (s : State) (d : Nat) (f : Ptp → Ptp) (n : Nat) : (s.modPtp d f).slotOf n = s.slotOf n := rfl
@[simp] theorem modPtp_safeOf (s : State) (d : Nat) (f : Ptp → Ptp) (h : Nat) : (s.modPtp d f).safeOf h = s.safeOf h := rfl
@[simp] theorem modPtp_pair (s : State) (d : Nat) (f : Ptp → Ptp) (p : Nat) : (s.modPtp d f).pair p = s.pair p := rfl
@[simp] theorem modPtp_ruleSt (s : State) (d : Nat) (f : Ptp → Ptp) (r : Nat) : (s.modPtp d f).ruleSt r = s.ruleSt r := rfl
@[simp] theorem modPtp_sigOf (s : State) (d : Nat) (f : Ptp → Ptp) (n : Nat) : (s.modPtp d f).sigOf n = s.sigOf n := rfl
@[simp] theorem modPtp_ctx (s : State) (d : Nat) (f : Ptp → Ptp) (c : Nat) : (s.modPtp d f).ctx c = s.ctx c := rfl
@[simp] theorem modPtp_taper (s : State) (d : Nat) (f : Ptp → Ptp) (t : Nat) : (s.modPtp d f).taper t = s.taper t := rfl
@[simp] theorem modPtp_chan (s : State) (d : Nat) (f : Ptp → Ptp) (c : Nat) : (s.modPtp d f).chan c = s.chan c := rfl
@[simp] theorem modPtp_part (s : State) (d : Nat) (f : Ptp → Ptp) (p : Nat) : (s.modPtp d f).part p = s.part p := rfl
@[simp] theorem modPtp_target (s : State) (d : Nat) (f : Ptp → Ptp) (t : Nat) : (s.modPtp d f).target t = s.target t := rfl
@[simp] theorem modPtp_slotTab (s : State) (d : Nat) (f : Ptp → Ptp) (i : Nat) : (s.modPtp d f).slotTab i = s.slotTab i := rfl
@[simp] theorem modPtp_lock (s : State) (d : Nat) (f : Ptp → Ptp) (n : Nat) : (s.modPtp d f).lock n = s.lock n := rfl
@[simp] theorem modPtp_csi (s : State) (d : Nat) (f : Ptp → Ptp) (p : Nat) : (s.modPtp d f).csi p = s.csi p := rfl
@[simp] theorem modPtp_ptp (s : State) (d : Nat) (f : Ptp → Ptp) : (s.modPtp d f).ptp d = f (s.ptp d) := look_put _ _ _ _
theorem modPtp_ptp_ne (s : State) (d : Nat) (f : Ptp → Ptp) {j : Nat} (h' : j ≠ d) : (s.modPtp d f).ptp j = s.ptp j := look_put_ne _ _ _ h'
@[simp] theorem modPtp_eport (s : State) (d : Nat) (f : Ptp → Ptp) (p : Nat) : (s.modPtp d f).eport p = s.eport p := rfl
@[simp] theorem modPtp_gcl (s : State) (d : Nat) (f : Ptp → Ptp) (p : Nat) : (s.modPtp d f).gcl p = s.gcl p := rfl
@[simp] theorem modPtp_can (s : State) (d : Nat) (f : Ptp → Ptp) (n : Nat) : (s.modPtp d f).can n = s.can n := rfl
@[simp] theorem modPtp_tdm (s : State) (d : Nat) (f : Ptp → Ptp) (p : Nat) : (s.modPtp d f).tdm p = s.tdm p := rfl
@[simp] theorem modPtp_safeLoad (s : State) (d : Nat) (f : Ptp → Ptp) (fn : Nat) : (s.modPtp d f).safeLoad fn = s.safeLoad fn := rfl
@[simp] theorem modPtp_panel (s : State) (d : Nat) (f : Ptp → Ptp) (p : Nat) : (s.modPtp d f).panel p = s.panel p := rfl
@[simp] theorem modPtp_obj (s : State) (d : Nat) (f : Ptp → Ptp) (o : Nat) : (s.modPtp d f).obj o = s.obj o := rfl
@[simp] theorem modPtp_hap (s : State) (d : Nat) (f : Ptp → Ptp) (n : Nat) : (s.modPtp d f).hap n = s.hap n := rfl
@[simp] theorem modPtp_mbox (s : State) (d : Nat) (f : Ptp → Ptp) (m : Nat) : (s.modPtp d f).mbox m = s.mbox m := rfl
@[simp] theorem modPtp_rail (s : State) (d : Nat) (f : Ptp → Ptp) (r : Nat) : (s.modPtp d f).rail r = s.rail r := rfl
@[simp] theorem modPtp_fence (s : State) (d : Nat) (f : Ptp → Ptp) (fn n : Nat) : (s.modPtp d f).fence fn n = s.fence fn n := rfl
@[simp] theorem modPtp_up (s : State) (d : Nat) (f : Ptp → Ptp) (i' : Nat) : (s.modPtp d f).up i' = s.up i' := rfl
@[simp] theorem modPtp_stamp (s : State) (d : Nat) (f : Ptp → Ptp) (i' : Nat) : (s.modPtp d f).stamp i' = s.stamp i' := rfl
@[simp] theorem modPtp_mayWrite (s : State) (d : Nat) (f : Ptp → Ptp) (fn' grp' : Nat) : (s.modPtp d f).mayWrite fn' grp' = s.mayWrite fn' grp' := rfl

/-! ### modEport -/

@[simp] theorem modEport_dt (s : State) (p : Nat) (f : EPort → EPort) : (s.modEport p f).dt = s.dt := rfl
@[simp] theorem modEport_time (s : State) (p : Nat) (f : EPort → EPort) : (s.modEport p f).time = s.time := rfl
@[simp] theorem modEport_isl (s : State) (p : Nat) (f : EPort → EPort) : (s.modEport p f).isl = s.isl := rfl
@[simp] theorem modEport_img (s : State) (p : Nat) (f : EPort → EPort) : (s.modEport p f).img = s.img := rfl
@[simp] theorem modEport_fns (s : State) (p : Nat) (f : EPort → EPort) : (s.modEport p f).fns = s.fns := rfl
@[simp] theorem modEport_queues (s : State) (p : Nat) (f : EPort → EPort) : (s.modEport p f).queues = s.queues := rfl
@[simp] theorem modEport_flights (s : State) (p : Nat) (f : EPort → EPort) : (s.modEport p f).flights = s.flights := rfl
@[simp] theorem modEport_nextId (s : State) (p : Nat) (f : EPort → EPort) : (s.modEport p f).nextId = s.nextId := rfl
@[simp] theorem modEport_ports (s : State) (p : Nat) (f : EPort → EPort) : (s.modEport p f).ports = s.ports := rfl
@[simp] theorem modEport_grpDrop (s : State) (p : Nat) (f : EPort → EPort) : (s.modEport p f).grpDrop = s.grpDrop := rfl
@[simp] theorem modEport_hdDrop (s : State) (p : Nat) (f : EPort → EPort) : (s.modEport p f).hdDrop = s.hdDrop := rfl
@[simp] theorem modEport_heads (s : State) (p : Nat) (f : EPort → EPort) : (s.modEport p f).heads = s.heads := rfl
@[simp] theorem modEport_slots (s : State) (p : Nat) (f : EPort → EPort) : (s.modEport p f).slots = s.slots := rfl
@[simp] theorem modEport_safe (s : State) (p : Nat) (f : EPort → EPort) : (s.modEport p f).safe = s.safe := rfl
@[simp] theorem modEport_pairs (s : State) (p : Nat) (f : EPort → EPort) : (s.modEport p f).pairs = s.pairs := rfl
@[simp] theorem modEport_store (s : State) (p : Nat) (f : EPort → EPort) : (s.modEport p f).store = s.store := rfl
@[simp] theorem modEport_wl (s : State) (p : Nat) (f : EPort → EPort) : (s.modEport p f).wl = s.wl := rfl
@[simp] theorem modEport_chand (s : State) (p : Nat) (f : EPort → EPort) : (s.modEport p f).chand = s.chand := rfl
@[simp] theorem modEport_mem (s : State) (p : Nat) (f : EPort → EPort) : (s.modEport p f).mem = s.mem := rfl
@[simp] theorem modEport_fab (s : State) (p : Nat) (f : EPort → EPort) : (s.modEport p f).fab = s.fab := rfl
@[simp] theorem modEport_media (s : State) (p : Nat) (f : EPort → EPort) : (s.modEport p f).media = s.media := rfl
@[simp] theorem modEport_audio (s : State) (p : Nat) (f : EPort → EPort) : (s.modEport p f).audio = s.audio := rfl
@[simp] theorem modEport_sense (s : State) (p : Nat) (f : EPort → EPort) : (s.modEport p f).sense = s.sense := rfl
@[simp] theorem modEport_lan (s : State) (p : Nat) (f : EPort → EPort) : (s.modEport p f).lan = s.lan := rfl
@[simp] theorem modEport_flt (s : State) (p : Nat) (f : EPort → EPort) : (s.modEport p f).flt = s.flt := rfl
@[simp] theorem modEport_pwr (s : State) (p : Nat) (f : EPort → EPort) : (s.modEport p f).pwr = s.pwr := rfl
@[simp] theorem modEport_boot (s : State) (p : Nat) (f : EPort → EPort) : (s.modEport p f).boot = s.boot := rfl
@[simp] theorem modEport_draws (s : State) (p : Nat) (f : EPort → EPort) : (s.modEport p f).draws = s.draws := rfl
@[simp] theorem modEport_out (s : State) (p : Nat) (f : EPort → EPort) : (s.modEport p f).out = s.out := rfl
@[simp] theorem modEport_pending (s : State) (p : Nat) (f : EPort → EPort) : (s.modEport p f).pending = s.pending := rfl
@[simp] theorem modEport_island (s : State) (p : Nat) (f : EPort → EPort) (i : Nat) : (s.modEport p f).island i = s.island i := rfl
@[simp] theorem modEport_fnc (s : State) (p : Nat) (f : EPort → EPort) (i : Nat) : (s.modEport p f).fnc i = s.fnc i := rfl
@[simp] theorem modEport_que (s : State) (p : Nat) (f : EPort → EPort) (fn q : Nat) : (s.modEport p f).que fn q = s.que fn q := rfl
@[simp] theorem modEport_port (s : State) (p : Nat) (f : EPort → EPort) (p' : Nat) : (s.modEport p f).port p' = s.port p' := rfl
@[simp] theorem modEport_head (s : State) (p : Nat) (f : EPort → EPort) (h : Nat) : (s.modEport p f).head h = s.head h := rfl
@[simp] theorem modEport_slotOf (s : State) (p : Nat) (f : EPort → EPort) (n : Nat) : (s.modEport p f).slotOf n = s.slotOf n := rfl
@[simp] theorem modEport_safeOf (s : State) (p : Nat) (f : EPort → EPort) (h : Nat) : (s.modEport p f).safeOf h = s.safeOf h := rfl
@[simp] theorem modEport_pair (s : State) (p : Nat) (f : EPort → EPort) (p' : Nat) : (s.modEport p f).pair p' = s.pair p' := rfl
@[simp] theorem modEport_ruleSt (s : State) (p : Nat) (f : EPort → EPort) (r : Nat) : (s.modEport p f).ruleSt r = s.ruleSt r := rfl
@[simp] theorem modEport_sigOf (s : State) (p : Nat) (f : EPort → EPort) (n : Nat) : (s.modEport p f).sigOf n = s.sigOf n := rfl
@[simp] theorem modEport_ctx (s : State) (p : Nat) (f : EPort → EPort) (c : Nat) : (s.modEport p f).ctx c = s.ctx c := rfl
@[simp] theorem modEport_taper (s : State) (p : Nat) (f : EPort → EPort) (t : Nat) : (s.modEport p f).taper t = s.taper t := rfl
@[simp] theorem modEport_chan (s : State) (p : Nat) (f : EPort → EPort) (c : Nat) : (s.modEport p f).chan c = s.chan c := rfl
@[simp] theorem modEport_part (s : State) (p : Nat) (f : EPort → EPort) (p' : Nat) : (s.modEport p f).part p' = s.part p' := rfl
@[simp] theorem modEport_target (s : State) (p : Nat) (f : EPort → EPort) (t : Nat) : (s.modEport p f).target t = s.target t := rfl
@[simp] theorem modEport_slotTab (s : State) (p : Nat) (f : EPort → EPort) (i : Nat) : (s.modEport p f).slotTab i = s.slotTab i := rfl
@[simp] theorem modEport_lock (s : State) (p : Nat) (f : EPort → EPort) (n : Nat) : (s.modEport p f).lock n = s.lock n := rfl
@[simp] theorem modEport_csi (s : State) (p : Nat) (f : EPort → EPort) (p' : Nat) : (s.modEport p f).csi p' = s.csi p' := rfl
@[simp] theorem modEport_ptp (s : State) (p : Nat) (f : EPort → EPort) (d : Nat) : (s.modEport p f).ptp d = s.ptp d := rfl
@[simp] theorem modEport_eport (s : State) (p : Nat) (f : EPort → EPort) : (s.modEport p f).eport p = f (s.eport p) := look_put _ _ _ _
theorem modEport_eport_ne (s : State) (p : Nat) (f : EPort → EPort) {j : Nat} (h' : j ≠ p) : (s.modEport p f).eport j = s.eport j := look_put_ne _ _ _ h'
@[simp] theorem modEport_gcl (s : State) (p : Nat) (f : EPort → EPort) (p' : Nat) : (s.modEport p f).gcl p' = s.gcl p' := rfl
@[simp] theorem modEport_can (s : State) (p : Nat) (f : EPort → EPort) (n : Nat) : (s.modEport p f).can n = s.can n := rfl
@[simp] theorem modEport_tdm (s : State) (p : Nat) (f : EPort → EPort) (p' : Nat) : (s.modEport p f).tdm p' = s.tdm p' := rfl
@[simp] theorem modEport_safeLoad (s : State) (p : Nat) (f : EPort → EPort) (fn : Nat) : (s.modEport p f).safeLoad fn = s.safeLoad fn := rfl
@[simp] theorem modEport_panel (s : State) (p : Nat) (f : EPort → EPort) (p' : Nat) : (s.modEport p f).panel p' = s.panel p' := rfl
@[simp] theorem modEport_obj (s : State) (p : Nat) (f : EPort → EPort) (o : Nat) : (s.modEport p f).obj o = s.obj o := rfl
@[simp] theorem modEport_hap (s : State) (p : Nat) (f : EPort → EPort) (n : Nat) : (s.modEport p f).hap n = s.hap n := rfl
@[simp] theorem modEport_mbox (s : State) (p : Nat) (f : EPort → EPort) (m : Nat) : (s.modEport p f).mbox m = s.mbox m := rfl
@[simp] theorem modEport_rail (s : State) (p : Nat) (f : EPort → EPort) (r : Nat) : (s.modEport p f).rail r = s.rail r := rfl
@[simp] theorem modEport_fence (s : State) (p : Nat) (f : EPort → EPort) (fn n : Nat) : (s.modEport p f).fence fn n = s.fence fn n := rfl
@[simp] theorem modEport_up (s : State) (p : Nat) (f : EPort → EPort) (i' : Nat) : (s.modEport p f).up i' = s.up i' := rfl
@[simp] theorem modEport_stamp (s : State) (p : Nat) (f : EPort → EPort) (i' : Nat) : (s.modEport p f).stamp i' = s.stamp i' := rfl
@[simp] theorem modEport_mayWrite (s : State) (p : Nat) (f : EPort → EPort) (fn' grp' : Nat) : (s.modEport p f).mayWrite fn' grp' = s.mayWrite fn' grp' := rfl

/-! ### modGcl -/

@[simp] theorem modGcl_dt (s : State) (p : Nat) (f : Gcl → Gcl) : (s.modGcl p f).dt = s.dt := rfl
@[simp] theorem modGcl_time (s : State) (p : Nat) (f : Gcl → Gcl) : (s.modGcl p f).time = s.time := rfl
@[simp] theorem modGcl_isl (s : State) (p : Nat) (f : Gcl → Gcl) : (s.modGcl p f).isl = s.isl := rfl
@[simp] theorem modGcl_img (s : State) (p : Nat) (f : Gcl → Gcl) : (s.modGcl p f).img = s.img := rfl
@[simp] theorem modGcl_fns (s : State) (p : Nat) (f : Gcl → Gcl) : (s.modGcl p f).fns = s.fns := rfl
@[simp] theorem modGcl_queues (s : State) (p : Nat) (f : Gcl → Gcl) : (s.modGcl p f).queues = s.queues := rfl
@[simp] theorem modGcl_flights (s : State) (p : Nat) (f : Gcl → Gcl) : (s.modGcl p f).flights = s.flights := rfl
@[simp] theorem modGcl_nextId (s : State) (p : Nat) (f : Gcl → Gcl) : (s.modGcl p f).nextId = s.nextId := rfl
@[simp] theorem modGcl_ports (s : State) (p : Nat) (f : Gcl → Gcl) : (s.modGcl p f).ports = s.ports := rfl
@[simp] theorem modGcl_grpDrop (s : State) (p : Nat) (f : Gcl → Gcl) : (s.modGcl p f).grpDrop = s.grpDrop := rfl
@[simp] theorem modGcl_hdDrop (s : State) (p : Nat) (f : Gcl → Gcl) : (s.modGcl p f).hdDrop = s.hdDrop := rfl
@[simp] theorem modGcl_heads (s : State) (p : Nat) (f : Gcl → Gcl) : (s.modGcl p f).heads = s.heads := rfl
@[simp] theorem modGcl_slots (s : State) (p : Nat) (f : Gcl → Gcl) : (s.modGcl p f).slots = s.slots := rfl
@[simp] theorem modGcl_safe (s : State) (p : Nat) (f : Gcl → Gcl) : (s.modGcl p f).safe = s.safe := rfl
@[simp] theorem modGcl_pairs (s : State) (p : Nat) (f : Gcl → Gcl) : (s.modGcl p f).pairs = s.pairs := rfl
@[simp] theorem modGcl_store (s : State) (p : Nat) (f : Gcl → Gcl) : (s.modGcl p f).store = s.store := rfl
@[simp] theorem modGcl_wl (s : State) (p : Nat) (f : Gcl → Gcl) : (s.modGcl p f).wl = s.wl := rfl
@[simp] theorem modGcl_chand (s : State) (p : Nat) (f : Gcl → Gcl) : (s.modGcl p f).chand = s.chand := rfl
@[simp] theorem modGcl_mem (s : State) (p : Nat) (f : Gcl → Gcl) : (s.modGcl p f).mem = s.mem := rfl
@[simp] theorem modGcl_fab (s : State) (p : Nat) (f : Gcl → Gcl) : (s.modGcl p f).fab = s.fab := rfl
@[simp] theorem modGcl_media (s : State) (p : Nat) (f : Gcl → Gcl) : (s.modGcl p f).media = s.media := rfl
@[simp] theorem modGcl_audio (s : State) (p : Nat) (f : Gcl → Gcl) : (s.modGcl p f).audio = s.audio := rfl
@[simp] theorem modGcl_sense (s : State) (p : Nat) (f : Gcl → Gcl) : (s.modGcl p f).sense = s.sense := rfl
@[simp] theorem modGcl_lan (s : State) (p : Nat) (f : Gcl → Gcl) : (s.modGcl p f).lan = s.lan := rfl
@[simp] theorem modGcl_flt (s : State) (p : Nat) (f : Gcl → Gcl) : (s.modGcl p f).flt = s.flt := rfl
@[simp] theorem modGcl_pwr (s : State) (p : Nat) (f : Gcl → Gcl) : (s.modGcl p f).pwr = s.pwr := rfl
@[simp] theorem modGcl_boot (s : State) (p : Nat) (f : Gcl → Gcl) : (s.modGcl p f).boot = s.boot := rfl
@[simp] theorem modGcl_draws (s : State) (p : Nat) (f : Gcl → Gcl) : (s.modGcl p f).draws = s.draws := rfl
@[simp] theorem modGcl_out (s : State) (p : Nat) (f : Gcl → Gcl) : (s.modGcl p f).out = s.out := rfl
@[simp] theorem modGcl_pending (s : State) (p : Nat) (f : Gcl → Gcl) : (s.modGcl p f).pending = s.pending := rfl
@[simp] theorem modGcl_island (s : State) (p : Nat) (f : Gcl → Gcl) (i : Nat) : (s.modGcl p f).island i = s.island i := rfl
@[simp] theorem modGcl_fnc (s : State) (p : Nat) (f : Gcl → Gcl) (i : Nat) : (s.modGcl p f).fnc i = s.fnc i := rfl
@[simp] theorem modGcl_que (s : State) (p : Nat) (f : Gcl → Gcl) (fn q : Nat) : (s.modGcl p f).que fn q = s.que fn q := rfl
@[simp] theorem modGcl_port (s : State) (p : Nat) (f : Gcl → Gcl) (p' : Nat) : (s.modGcl p f).port p' = s.port p' := rfl
@[simp] theorem modGcl_head (s : State) (p : Nat) (f : Gcl → Gcl) (h : Nat) : (s.modGcl p f).head h = s.head h := rfl
@[simp] theorem modGcl_slotOf (s : State) (p : Nat) (f : Gcl → Gcl) (n : Nat) : (s.modGcl p f).slotOf n = s.slotOf n := rfl
@[simp] theorem modGcl_safeOf (s : State) (p : Nat) (f : Gcl → Gcl) (h : Nat) : (s.modGcl p f).safeOf h = s.safeOf h := rfl
@[simp] theorem modGcl_pair (s : State) (p : Nat) (f : Gcl → Gcl) (p' : Nat) : (s.modGcl p f).pair p' = s.pair p' := rfl
@[simp] theorem modGcl_ruleSt (s : State) (p : Nat) (f : Gcl → Gcl) (r : Nat) : (s.modGcl p f).ruleSt r = s.ruleSt r := rfl
@[simp] theorem modGcl_sigOf (s : State) (p : Nat) (f : Gcl → Gcl) (n : Nat) : (s.modGcl p f).sigOf n = s.sigOf n := rfl
@[simp] theorem modGcl_ctx (s : State) (p : Nat) (f : Gcl → Gcl) (c : Nat) : (s.modGcl p f).ctx c = s.ctx c := rfl
@[simp] theorem modGcl_taper (s : State) (p : Nat) (f : Gcl → Gcl) (t : Nat) : (s.modGcl p f).taper t = s.taper t := rfl
@[simp] theorem modGcl_chan (s : State) (p : Nat) (f : Gcl → Gcl) (c : Nat) : (s.modGcl p f).chan c = s.chan c := rfl
@[simp] theorem modGcl_part (s : State) (p : Nat) (f : Gcl → Gcl) (p' : Nat) : (s.modGcl p f).part p' = s.part p' := rfl
@[simp] theorem modGcl_target (s : State) (p : Nat) (f : Gcl → Gcl) (t : Nat) : (s.modGcl p f).target t = s.target t := rfl
@[simp] theorem modGcl_slotTab (s : State) (p : Nat) (f : Gcl → Gcl) (i : Nat) : (s.modGcl p f).slotTab i = s.slotTab i := rfl
@[simp] theorem modGcl_lock (s : State) (p : Nat) (f : Gcl → Gcl) (n : Nat) : (s.modGcl p f).lock n = s.lock n := rfl
@[simp] theorem modGcl_csi (s : State) (p : Nat) (f : Gcl → Gcl) (p' : Nat) : (s.modGcl p f).csi p' = s.csi p' := rfl
@[simp] theorem modGcl_ptp (s : State) (p : Nat) (f : Gcl → Gcl) (d : Nat) : (s.modGcl p f).ptp d = s.ptp d := rfl
@[simp] theorem modGcl_eport (s : State) (p : Nat) (f : Gcl → Gcl) (p' : Nat) : (s.modGcl p f).eport p' = s.eport p' := rfl
@[simp] theorem modGcl_gcl (s : State) (p : Nat) (f : Gcl → Gcl) : (s.modGcl p f).gcl p = f (s.gcl p) := look_put _ _ _ _
theorem modGcl_gcl_ne (s : State) (p : Nat) (f : Gcl → Gcl) {j : Nat} (h' : j ≠ p) : (s.modGcl p f).gcl j = s.gcl j := look_put_ne _ _ _ h'
@[simp] theorem modGcl_can (s : State) (p : Nat) (f : Gcl → Gcl) (n : Nat) : (s.modGcl p f).can n = s.can n := rfl
@[simp] theorem modGcl_tdm (s : State) (p : Nat) (f : Gcl → Gcl) (p' : Nat) : (s.modGcl p f).tdm p' = s.tdm p' := rfl
@[simp] theorem modGcl_safeLoad (s : State) (p : Nat) (f : Gcl → Gcl) (fn : Nat) : (s.modGcl p f).safeLoad fn = s.safeLoad fn := rfl
@[simp] theorem modGcl_panel (s : State) (p : Nat) (f : Gcl → Gcl) (p' : Nat) : (s.modGcl p f).panel p' = s.panel p' := rfl
@[simp] theorem modGcl_obj (s : State) (p : Nat) (f : Gcl → Gcl) (o : Nat) : (s.modGcl p f).obj o = s.obj o := rfl
@[simp] theorem modGcl_hap (s : State) (p : Nat) (f : Gcl → Gcl) (n : Nat) : (s.modGcl p f).hap n = s.hap n := rfl
@[simp] theorem modGcl_mbox (s : State) (p : Nat) (f : Gcl → Gcl) (m : Nat) : (s.modGcl p f).mbox m = s.mbox m := rfl
@[simp] theorem modGcl_rail (s : State) (p : Nat) (f : Gcl → Gcl) (r : Nat) : (s.modGcl p f).rail r = s.rail r := rfl
@[simp] theorem modGcl_fence (s : State) (p : Nat) (f : Gcl → Gcl) (fn n : Nat) : (s.modGcl p f).fence fn n = s.fence fn n := rfl
@[simp] theorem modGcl_up (s : State) (p : Nat) (f : Gcl → Gcl) (i' : Nat) : (s.modGcl p f).up i' = s.up i' := rfl
@[simp] theorem modGcl_stamp (s : State) (p : Nat) (f : Gcl → Gcl) (i' : Nat) : (s.modGcl p f).stamp i' = s.stamp i' := rfl
@[simp] theorem modGcl_mayWrite (s : State) (p : Nat) (f : Gcl → Gcl) (fn' grp' : Nat) : (s.modGcl p f).mayWrite fn' grp' = s.mayWrite fn' grp' := rfl

/-! ### modCan -/

@[simp] theorem modCan_dt (s : State) (n : Nat) (f : Can → Can) : (s.modCan n f).dt = s.dt := rfl
@[simp] theorem modCan_time (s : State) (n : Nat) (f : Can → Can) : (s.modCan n f).time = s.time := rfl
@[simp] theorem modCan_isl (s : State) (n : Nat) (f : Can → Can) : (s.modCan n f).isl = s.isl := rfl
@[simp] theorem modCan_img (s : State) (n : Nat) (f : Can → Can) : (s.modCan n f).img = s.img := rfl
@[simp] theorem modCan_fns (s : State) (n : Nat) (f : Can → Can) : (s.modCan n f).fns = s.fns := rfl
@[simp] theorem modCan_queues (s : State) (n : Nat) (f : Can → Can) : (s.modCan n f).queues = s.queues := rfl
@[simp] theorem modCan_flights (s : State) (n : Nat) (f : Can → Can) : (s.modCan n f).flights = s.flights := rfl
@[simp] theorem modCan_nextId (s : State) (n : Nat) (f : Can → Can) : (s.modCan n f).nextId = s.nextId := rfl
@[simp] theorem modCan_ports (s : State) (n : Nat) (f : Can → Can) : (s.modCan n f).ports = s.ports := rfl
@[simp] theorem modCan_grpDrop (s : State) (n : Nat) (f : Can → Can) : (s.modCan n f).grpDrop = s.grpDrop := rfl
@[simp] theorem modCan_hdDrop (s : State) (n : Nat) (f : Can → Can) : (s.modCan n f).hdDrop = s.hdDrop := rfl
@[simp] theorem modCan_heads (s : State) (n : Nat) (f : Can → Can) : (s.modCan n f).heads = s.heads := rfl
@[simp] theorem modCan_slots (s : State) (n : Nat) (f : Can → Can) : (s.modCan n f).slots = s.slots := rfl
@[simp] theorem modCan_safe (s : State) (n : Nat) (f : Can → Can) : (s.modCan n f).safe = s.safe := rfl
@[simp] theorem modCan_pairs (s : State) (n : Nat) (f : Can → Can) : (s.modCan n f).pairs = s.pairs := rfl
@[simp] theorem modCan_store (s : State) (n : Nat) (f : Can → Can) : (s.modCan n f).store = s.store := rfl
@[simp] theorem modCan_wl (s : State) (n : Nat) (f : Can → Can) : (s.modCan n f).wl = s.wl := rfl
@[simp] theorem modCan_chand (s : State) (n : Nat) (f : Can → Can) : (s.modCan n f).chand = s.chand := rfl
@[simp] theorem modCan_mem (s : State) (n : Nat) (f : Can → Can) : (s.modCan n f).mem = s.mem := rfl
@[simp] theorem modCan_fab (s : State) (n : Nat) (f : Can → Can) : (s.modCan n f).fab = s.fab := rfl
@[simp] theorem modCan_media (s : State) (n : Nat) (f : Can → Can) : (s.modCan n f).media = s.media := rfl
@[simp] theorem modCan_audio (s : State) (n : Nat) (f : Can → Can) : (s.modCan n f).audio = s.audio := rfl
@[simp] theorem modCan_sense (s : State) (n : Nat) (f : Can → Can) : (s.modCan n f).sense = s.sense := rfl
@[simp] theorem modCan_lan (s : State) (n : Nat) (f : Can → Can) : (s.modCan n f).lan = s.lan := rfl
@[simp] theorem modCan_flt (s : State) (n : Nat) (f : Can → Can) : (s.modCan n f).flt = s.flt := rfl
@[simp] theorem modCan_pwr (s : State) (n : Nat) (f : Can → Can) : (s.modCan n f).pwr = s.pwr := rfl
@[simp] theorem modCan_boot (s : State) (n : Nat) (f : Can → Can) : (s.modCan n f).boot = s.boot := rfl
@[simp] theorem modCan_draws (s : State) (n : Nat) (f : Can → Can) : (s.modCan n f).draws = s.draws := rfl
@[simp] theorem modCan_out (s : State) (n : Nat) (f : Can → Can) : (s.modCan n f).out = s.out := rfl
@[simp] theorem modCan_pending (s : State) (n : Nat) (f : Can → Can) : (s.modCan n f).pending = s.pending := rfl
@[simp] theorem modCan_island (s : State) (n : Nat) (f : Can → Can) (i : Nat) : (s.modCan n f).island i = s.island i := rfl
@[simp] theorem modCan_fnc (s : State) (n : Nat) (f : Can → Can) (i : Nat) : (s.modCan n f).fnc i = s.fnc i := rfl
@[simp] theorem modCan_que (s : State) (n : Nat) (f : Can → Can) (fn q : Nat) : (s.modCan n f).que fn q = s.que fn q := rfl
@[simp] theorem modCan_port (s : State) (n : Nat) (f : Can → Can) (p : Nat) : (s.modCan n f).port p = s.port p := rfl
@[simp] theorem modCan_head (s : State) (n : Nat) (f : Can → Can) (h : Nat) : (s.modCan n f).head h = s.head h := rfl
@[simp] theorem modCan_slotOf (s : State) (n : Nat) (f : Can → Can) (n' : Nat) : (s.modCan n f).slotOf n' = s.slotOf n' := rfl
@[simp] theorem modCan_safeOf (s : State) (n : Nat) (f : Can → Can) (h : Nat) : (s.modCan n f).safeOf h = s.safeOf h := rfl
@[simp] theorem modCan_pair (s : State) (n : Nat) (f : Can → Can) (p : Nat) : (s.modCan n f).pair p = s.pair p := rfl
@[simp] theorem modCan_ruleSt (s : State) (n : Nat) (f : Can → Can) (r : Nat) : (s.modCan n f).ruleSt r = s.ruleSt r := rfl
@[simp] theorem modCan_sigOf (s : State) (n : Nat) (f : Can → Can) (n' : Nat) : (s.modCan n f).sigOf n' = s.sigOf n' := rfl
@[simp] theorem modCan_ctx (s : State) (n : Nat) (f : Can → Can) (c : Nat) : (s.modCan n f).ctx c = s.ctx c := rfl
@[simp] theorem modCan_taper (s : State) (n : Nat) (f : Can → Can) (t : Nat) : (s.modCan n f).taper t = s.taper t := rfl
@[simp] theorem modCan_chan (s : State) (n : Nat) (f : Can → Can) (c : Nat) : (s.modCan n f).chan c = s.chan c := rfl
@[simp] theorem modCan_part (s : State) (n : Nat) (f : Can → Can) (p : Nat) : (s.modCan n f).part p = s.part p := rfl
@[simp] theorem modCan_target (s : State) (n : Nat) (f : Can → Can) (t : Nat) : (s.modCan n f).target t = s.target t := rfl
@[simp] theorem modCan_slotTab (s : State) (n : Nat) (f : Can → Can) (i : Nat) : (s.modCan n f).slotTab i = s.slotTab i := rfl
@[simp] theorem modCan_lock (s : State) (n : Nat) (f : Can → Can) (n' : Nat) : (s.modCan n f).lock n' = s.lock n' := rfl
@[simp] theorem modCan_csi (s : State) (n : Nat) (f : Can → Can) (p : Nat) : (s.modCan n f).csi p = s.csi p := rfl
@[simp] theorem modCan_ptp (s : State) (n : Nat) (f : Can → Can) (d : Nat) : (s.modCan n f).ptp d = s.ptp d := rfl
@[simp] theorem modCan_eport (s : State) (n : Nat) (f : Can → Can) (p : Nat) : (s.modCan n f).eport p = s.eport p := rfl
@[simp] theorem modCan_gcl (s : State) (n : Nat) (f : Can → Can) (p : Nat) : (s.modCan n f).gcl p = s.gcl p := rfl
@[simp] theorem modCan_can (s : State) (n : Nat) (f : Can → Can) : (s.modCan n f).can n = f (s.can n) := look_put _ _ _ _
theorem modCan_can_ne (s : State) (n : Nat) (f : Can → Can) {j : Nat} (h' : j ≠ n) : (s.modCan n f).can j = s.can j := look_put_ne _ _ _ h'
@[simp] theorem modCan_tdm (s : State) (n : Nat) (f : Can → Can) (p : Nat) : (s.modCan n f).tdm p = s.tdm p := rfl
@[simp] theorem modCan_safeLoad (s : State) (n : Nat) (f : Can → Can) (fn : Nat) : (s.modCan n f).safeLoad fn = s.safeLoad fn := rfl
@[simp] theorem modCan_panel (s : State) (n : Nat) (f : Can → Can) (p : Nat) : (s.modCan n f).panel p = s.panel p := rfl
@[simp] theorem modCan_obj (s : State) (n : Nat) (f : Can → Can) (o : Nat) : (s.modCan n f).obj o = s.obj o := rfl
@[simp] theorem modCan_hap (s : State) (n : Nat) (f : Can → Can) (n' : Nat) : (s.modCan n f).hap n' = s.hap n' := rfl
@[simp] theorem modCan_mbox (s : State) (n : Nat) (f : Can → Can) (m : Nat) : (s.modCan n f).mbox m = s.mbox m := rfl
@[simp] theorem modCan_rail (s : State) (n : Nat) (f : Can → Can) (r : Nat) : (s.modCan n f).rail r = s.rail r := rfl
@[simp] theorem modCan_fence (s : State) (n : Nat) (f : Can → Can) (fn n' : Nat) : (s.modCan n f).fence fn n' = s.fence fn n' := rfl
@[simp] theorem modCan_up (s : State) (n : Nat) (f : Can → Can) (i' : Nat) : (s.modCan n f).up i' = s.up i' := rfl
@[simp] theorem modCan_stamp (s : State) (n : Nat) (f : Can → Can) (i' : Nat) : (s.modCan n f).stamp i' = s.stamp i' := rfl
@[simp] theorem modCan_mayWrite (s : State) (n : Nat) (f : Can → Can) (fn' grp' : Nat) : (s.modCan n f).mayWrite fn' grp' = s.mayWrite fn' grp' := rfl

/-! ### modAudio -/

@[simp] theorem modAudio_dt (s : State) (f : Audio → Audio) : (s.modAudio f).dt = s.dt := rfl
@[simp] theorem modAudio_time (s : State) (f : Audio → Audio) : (s.modAudio f).time = s.time := rfl
@[simp] theorem modAudio_isl (s : State) (f : Audio → Audio) : (s.modAudio f).isl = s.isl := rfl
@[simp] theorem modAudio_img (s : State) (f : Audio → Audio) : (s.modAudio f).img = s.img := rfl
@[simp] theorem modAudio_fns (s : State) (f : Audio → Audio) : (s.modAudio f).fns = s.fns := rfl
@[simp] theorem modAudio_queues (s : State) (f : Audio → Audio) : (s.modAudio f).queues = s.queues := rfl
@[simp] theorem modAudio_flights (s : State) (f : Audio → Audio) : (s.modAudio f).flights = s.flights := rfl
@[simp] theorem modAudio_nextId (s : State) (f : Audio → Audio) : (s.modAudio f).nextId = s.nextId := rfl
@[simp] theorem modAudio_ports (s : State) (f : Audio → Audio) : (s.modAudio f).ports = s.ports := rfl
@[simp] theorem modAudio_grpDrop (s : State) (f : Audio → Audio) : (s.modAudio f).grpDrop = s.grpDrop := rfl
@[simp] theorem modAudio_hdDrop (s : State) (f : Audio → Audio) : (s.modAudio f).hdDrop = s.hdDrop := rfl
@[simp] theorem modAudio_heads (s : State) (f : Audio → Audio) : (s.modAudio f).heads = s.heads := rfl
@[simp] theorem modAudio_slots (s : State) (f : Audio → Audio) : (s.modAudio f).slots = s.slots := rfl
@[simp] theorem modAudio_safe (s : State) (f : Audio → Audio) : (s.modAudio f).safe = s.safe := rfl
@[simp] theorem modAudio_pairs (s : State) (f : Audio → Audio) : (s.modAudio f).pairs = s.pairs := rfl
@[simp] theorem modAudio_store (s : State) (f : Audio → Audio) : (s.modAudio f).store = s.store := rfl
@[simp] theorem modAudio_wl (s : State) (f : Audio → Audio) : (s.modAudio f).wl = s.wl := rfl
@[simp] theorem modAudio_chand (s : State) (f : Audio → Audio) : (s.modAudio f).chand = s.chand := rfl
@[simp] theorem modAudio_mem (s : State) (f : Audio → Audio) : (s.modAudio f).mem = s.mem := rfl
@[simp] theorem modAudio_fab (s : State) (f : Audio → Audio) : (s.modAudio f).fab = s.fab := rfl
@[simp] theorem modAudio_media (s : State) (f : Audio → Audio) : (s.modAudio f).media = s.media := rfl
@[simp] theorem modAudio_net (s : State) (f : Audio → Audio) : (s.modAudio f).net = s.net := rfl
@[simp] theorem modAudio_sense (s : State) (f : Audio → Audio) : (s.modAudio f).sense = s.sense := rfl
@[simp] theorem modAudio_lan (s : State) (f : Audio → Audio) : (s.modAudio f).lan = s.lan := rfl
@[simp] theorem modAudio_flt (s : State) (f : Audio → Audio) : (s.modAudio f).flt = s.flt := rfl
@[simp] theorem modAudio_pwr (s : State) (f : Audio → Audio) : (s.modAudio f).pwr = s.pwr := rfl
@[simp] theorem modAudio_boot (s : State) (f : Audio → Audio) : (s.modAudio f).boot = s.boot := rfl
@[simp] theorem modAudio_draws (s : State) (f : Audio → Audio) : (s.modAudio f).draws = s.draws := rfl
@[simp] theorem modAudio_out (s : State) (f : Audio → Audio) : (s.modAudio f).out = s.out := rfl
@[simp] theorem modAudio_pending (s : State) (f : Audio → Audio) : (s.modAudio f).pending = s.pending := rfl
@[simp] theorem modAudio_island (s : State) (f : Audio → Audio) (i : Nat) : (s.modAudio f).island i = s.island i := rfl
@[simp] theorem modAudio_fnc (s : State) (f : Audio → Audio) (i : Nat) : (s.modAudio f).fnc i = s.fnc i := rfl
@[simp] theorem modAudio_que (s : State) (f : Audio → Audio) (fn q : Nat) : (s.modAudio f).que fn q = s.que fn q := rfl
@[simp] theorem modAudio_port (s : State) (f : Audio → Audio) (p : Nat) : (s.modAudio f).port p = s.port p := rfl
@[simp] theorem modAudio_head (s : State) (f : Audio → Audio) (h : Nat) : (s.modAudio f).head h = s.head h := rfl
@[simp] theorem modAudio_slotOf (s : State) (f : Audio → Audio) (n : Nat) : (s.modAudio f).slotOf n = s.slotOf n := rfl
@[simp] theorem modAudio_safeOf (s : State) (f : Audio → Audio) (h : Nat) : (s.modAudio f).safeOf h = s.safeOf h := rfl
@[simp] theorem modAudio_pair (s : State) (f : Audio → Audio) (p : Nat) : (s.modAudio f).pair p = s.pair p := rfl
@[simp] theorem modAudio_ruleSt (s : State) (f : Audio → Audio) (r : Nat) : (s.modAudio f).ruleSt r = s.ruleSt r := rfl
@[simp] theorem modAudio_sigOf (s : State) (f : Audio → Audio) (n : Nat) : (s.modAudio f).sigOf n = s.sigOf n := rfl
@[simp] theorem modAudio_ctx (s : State) (f : Audio → Audio) (c : Nat) : (s.modAudio f).ctx c = s.ctx c := rfl
@[simp] theorem modAudio_taper (s : State) (f : Audio → Audio) (t : Nat) : (s.modAudio f).taper t = s.taper t := rfl
@[simp] theorem modAudio_chan (s : State) (f : Audio → Audio) (c : Nat) : (s.modAudio f).chan c = s.chan c := rfl
@[simp] theorem modAudio_part (s : State) (f : Audio → Audio) (p : Nat) : (s.modAudio f).part p = s.part p := rfl
@[simp] theorem modAudio_target (s : State) (f : Audio → Audio) (t : Nat) : (s.modAudio f).target t = s.target t := rfl
@[simp] theorem modAudio_slotTab (s : State) (f : Audio → Audio) (i : Nat) : (s.modAudio f).slotTab i = s.slotTab i := rfl
@[simp] theorem modAudio_lock (s : State) (f : Audio → Audio) (n : Nat) : (s.modAudio f).lock n = s.lock n := rfl
@[simp] theorem modAudio_csi (s : State) (f : Audio → Audio) (p : Nat) : (s.modAudio f).csi p = s.csi p := rfl
@[simp] theorem modAudio_ptp (s : State) (f : Audio → Audio) (d : Nat) : (s.modAudio f).ptp d = s.ptp d := rfl
@[simp] theorem modAudio_eport (s : State) (f : Audio → Audio) (p : Nat) : (s.modAudio f).eport p = s.eport p := rfl
@[simp] theorem modAudio_gcl (s : State) (f : Audio → Audio) (p : Nat) : (s.modAudio f).gcl p = s.gcl p := rfl
@[simp] theorem modAudio_can (s : State) (f : Audio → Audio) (n : Nat) : (s.modAudio f).can n = s.can n := rfl
@[simp] theorem modAudio_panel (s : State) (f : Audio → Audio) (p : Nat) : (s.modAudio f).panel p = s.panel p := rfl
@[simp] theorem modAudio_obj (s : State) (f : Audio → Audio) (o : Nat) : (s.modAudio f).obj o = s.obj o := rfl
@[simp] theorem modAudio_hap (s : State) (f : Audio → Audio) (n : Nat) : (s.modAudio f).hap n = s.hap n := rfl
@[simp] theorem modAudio_mbox (s : State) (f : Audio → Audio) (m : Nat) : (s.modAudio f).mbox m = s.mbox m := rfl
@[simp] theorem modAudio_rail (s : State) (f : Audio → Audio) (r : Nat) : (s.modAudio f).rail r = s.rail r := rfl
@[simp] theorem modAudio_fence (s : State) (f : Audio → Audio) (fn n : Nat) : (s.modAudio f).fence fn n = s.fence fn n := rfl
@[simp] theorem modAudio_up (s : State) (f : Audio → Audio) (i' : Nat) : (s.modAudio f).up i' = s.up i' := rfl
@[simp] theorem modAudio_stamp (s : State) (f : Audio → Audio) (i' : Nat) : (s.modAudio f).stamp i' = s.stamp i' := rfl
@[simp] theorem modAudio_mayWrite (s : State) (f : Audio → Audio) (fn' grp' : Nat) : (s.modAudio f).mayWrite fn' grp' = s.mayWrite fn' grp' := rfl

/-! ### modTdm -/

@[simp] theorem modTdm_dt (s : State) (p : Nat) (f : Tdm → Tdm) : (s.modTdm p f).dt = s.dt := rfl
@[simp] theorem modTdm_time (s : State) (p : Nat) (f : Tdm → Tdm) : (s.modTdm p f).time = s.time := rfl
@[simp] theorem modTdm_isl (s : State) (p : Nat) (f : Tdm → Tdm) : (s.modTdm p f).isl = s.isl := rfl
@[simp] theorem modTdm_img (s : State) (p : Nat) (f : Tdm → Tdm) : (s.modTdm p f).img = s.img := rfl
@[simp] theorem modTdm_fns (s : State) (p : Nat) (f : Tdm → Tdm) : (s.modTdm p f).fns = s.fns := rfl
@[simp] theorem modTdm_queues (s : State) (p : Nat) (f : Tdm → Tdm) : (s.modTdm p f).queues = s.queues := rfl
@[simp] theorem modTdm_flights (s : State) (p : Nat) (f : Tdm → Tdm) : (s.modTdm p f).flights = s.flights := rfl
@[simp] theorem modTdm_nextId (s : State) (p : Nat) (f : Tdm → Tdm) : (s.modTdm p f).nextId = s.nextId := rfl
@[simp] theorem modTdm_ports (s : State) (p : Nat) (f : Tdm → Tdm) : (s.modTdm p f).ports = s.ports := rfl
@[simp] theorem modTdm_grpDrop (s : State) (p : Nat) (f : Tdm → Tdm) : (s.modTdm p f).grpDrop = s.grpDrop := rfl
@[simp] theorem modTdm_hdDrop (s : State) (p : Nat) (f : Tdm → Tdm) : (s.modTdm p f).hdDrop = s.hdDrop := rfl
@[simp] theorem modTdm_heads (s : State) (p : Nat) (f : Tdm → Tdm) : (s.modTdm p f).heads = s.heads := rfl
@[simp] theorem modTdm_slots (s : State) (p : Nat) (f : Tdm → Tdm) : (s.modTdm p f).slots = s.slots := rfl
@[simp] theorem modTdm_safe (s : State) (p : Nat) (f : Tdm → Tdm) : (s.modTdm p f).safe = s.safe := rfl
@[simp] theorem modTdm_pairs (s : State) (p : Nat) (f : Tdm → Tdm) : (s.modTdm p f).pairs = s.pairs := rfl
@[simp] theorem modTdm_store (s : State) (p : Nat) (f : Tdm → Tdm) : (s.modTdm p f).store = s.store := rfl
@[simp] theorem modTdm_wl (s : State) (p : Nat) (f : Tdm → Tdm) : (s.modTdm p f).wl = s.wl := rfl
@[simp] theorem modTdm_chand (s : State) (p : Nat) (f : Tdm → Tdm) : (s.modTdm p f).chand = s.chand := rfl
@[simp] theorem modTdm_mem (s : State) (p : Nat) (f : Tdm → Tdm) : (s.modTdm p f).mem = s.mem := rfl
@[simp] theorem modTdm_fab (s : State) (p : Nat) (f : Tdm → Tdm) : (s.modTdm p f).fab = s.fab := rfl
@[simp] theorem modTdm_media (s : State) (p : Nat) (f : Tdm → Tdm) : (s.modTdm p f).media = s.media := rfl
@[simp] theorem modTdm_net (s : State) (p : Nat) (f : Tdm → Tdm) : (s.modTdm p f).net = s.net := rfl
@[simp] theorem modTdm_sense (s : State) (p : Nat) (f : Tdm → Tdm) : (s.modTdm p f).sense = s.sense := rfl
@[simp] theorem modTdm_lan (s : State) (p : Nat) (f : Tdm → Tdm) : (s.modTdm p f).lan = s.lan := rfl
@[simp] theorem modTdm_flt (s : State) (p : Nat) (f : Tdm → Tdm) : (s.modTdm p f).flt = s.flt := rfl
@[simp] theorem modTdm_pwr (s : State) (p : Nat) (f : Tdm → Tdm) : (s.modTdm p f).pwr = s.pwr := rfl
@[simp] theorem modTdm_boot (s : State) (p : Nat) (f : Tdm → Tdm) : (s.modTdm p f).boot = s.boot := rfl
@[simp] theorem modTdm_draws (s : State) (p : Nat) (f : Tdm → Tdm) : (s.modTdm p f).draws = s.draws := rfl
@[simp] theorem modTdm_out (s : State) (p : Nat) (f : Tdm → Tdm) : (s.modTdm p f).out = s.out := rfl
@[simp] theorem modTdm_pending (s : State) (p : Nat) (f : Tdm → Tdm) : (s.modTdm p f).pending = s.pending := rfl
@[simp] theorem modTdm_island (s : State) (p : Nat) (f : Tdm → Tdm) (i : Nat) : (s.modTdm p f).island i = s.island i := rfl
@[simp] theorem modTdm_fnc (s : State) (p : Nat) (f : Tdm → Tdm) (i : Nat) : (s.modTdm p f).fnc i = s.fnc i := rfl
@[simp] theorem modTdm_que (s : State) (p : Nat) (f : Tdm → Tdm) (fn q : Nat) : (s.modTdm p f).que fn q = s.que fn q := rfl
@[simp] theorem modTdm_port (s : State) (p : Nat) (f : Tdm → Tdm) (p' : Nat) : (s.modTdm p f).port p' = s.port p' := rfl
@[simp] theorem modTdm_head (s : State) (p : Nat) (f : Tdm → Tdm) (h : Nat) : (s.modTdm p f).head h = s.head h := rfl
@[simp] theorem modTdm_slotOf (s : State) (p : Nat) (f : Tdm → Tdm) (n : Nat) : (s.modTdm p f).slotOf n = s.slotOf n := rfl
@[simp] theorem modTdm_safeOf (s : State) (p : Nat) (f : Tdm → Tdm) (h : Nat) : (s.modTdm p f).safeOf h = s.safeOf h := rfl
@[simp] theorem modTdm_pair (s : State) (p : Nat) (f : Tdm → Tdm) (p' : Nat) : (s.modTdm p f).pair p' = s.pair p' := rfl
@[simp] theorem modTdm_ruleSt (s : State) (p : Nat) (f : Tdm → Tdm) (r : Nat) : (s.modTdm p f).ruleSt r = s.ruleSt r := rfl
@[simp] theorem modTdm_sigOf (s : State) (p : Nat) (f : Tdm → Tdm) (n : Nat) : (s.modTdm p f).sigOf n = s.sigOf n := rfl
@[simp] theorem modTdm_ctx (s : State) (p : Nat) (f : Tdm → Tdm) (c : Nat) : (s.modTdm p f).ctx c = s.ctx c := rfl
@[simp] theorem modTdm_taper (s : State) (p : Nat) (f : Tdm → Tdm) (t : Nat) : (s.modTdm p f).taper t = s.taper t := rfl
@[simp] theorem modTdm_chan (s : State) (p : Nat) (f : Tdm → Tdm) (c : Nat) : (s.modTdm p f).chan c = s.chan c := rfl
@[simp] theorem modTdm_part (s : State) (p : Nat) (f : Tdm → Tdm) (p' : Nat) : (s.modTdm p f).part p' = s.part p' := rfl
@[simp] theorem modTdm_target (s : State) (p : Nat) (f : Tdm → Tdm) (t : Nat) : (s.modTdm p f).target t = s.target t := rfl
@[simp] theorem modTdm_slotTab (s : State) (p : Nat) (f : Tdm → Tdm) (i : Nat) : (s.modTdm p f).slotTab i = s.slotTab i := rfl
@[simp] theorem modTdm_lock (s : State) (p : Nat) (f : Tdm → Tdm) (n : Nat) : (s.modTdm p f).lock n = s.lock n := rfl
@[simp] theorem modTdm_csi (s : State) (p : Nat) (f : Tdm → Tdm) (p' : Nat) : (s.modTdm p f).csi p' = s.csi p' := rfl
@[simp] theorem modTdm_ptp (s : State) (p : Nat) (f : Tdm → Tdm) (d : Nat) : (s.modTdm p f).ptp d = s.ptp d := rfl
@[simp] theorem modTdm_eport (s : State) (p : Nat) (f : Tdm → Tdm) (p' : Nat) : (s.modTdm p f).eport p' = s.eport p' := rfl
@[simp] theorem modTdm_gcl (s : State) (p : Nat) (f : Tdm → Tdm) (p' : Nat) : (s.modTdm p f).gcl p' = s.gcl p' := rfl
@[simp] theorem modTdm_can (s : State) (p : Nat) (f : Tdm → Tdm) (n : Nat) : (s.modTdm p f).can n = s.can n := rfl
@[simp] theorem modTdm_tdm (s : State) (p : Nat) (f : Tdm → Tdm) : (s.modTdm p f).tdm p = f (s.tdm p) := look_put _ _ _ _
theorem modTdm_tdm_ne (s : State) (p : Nat) (f : Tdm → Tdm) {j : Nat} (h' : j ≠ p) : (s.modTdm p f).tdm j = s.tdm j := look_put_ne _ _ _ h'
@[simp] theorem modTdm_safeLoad (s : State) (p : Nat) (f : Tdm → Tdm) (fn : Nat) : (s.modTdm p f).safeLoad fn = s.safeLoad fn := rfl
@[simp] theorem modTdm_panel (s : State) (p : Nat) (f : Tdm → Tdm) (p' : Nat) : (s.modTdm p f).panel p' = s.panel p' := rfl
@[simp] theorem modTdm_obj (s : State) (p : Nat) (f : Tdm → Tdm) (o : Nat) : (s.modTdm p f).obj o = s.obj o := rfl
@[simp] theorem modTdm_hap (s : State) (p : Nat) (f : Tdm → Tdm) (n : Nat) : (s.modTdm p f).hap n = s.hap n := rfl
@[simp] theorem modTdm_mbox (s : State) (p : Nat) (f : Tdm → Tdm) (m : Nat) : (s.modTdm p f).mbox m = s.mbox m := rfl
@[simp] theorem modTdm_rail (s : State) (p : Nat) (f : Tdm → Tdm) (r : Nat) : (s.modTdm p f).rail r = s.rail r := rfl
@[simp] theorem modTdm_fence (s : State) (p : Nat) (f : Tdm → Tdm) (fn n : Nat) : (s.modTdm p f).fence fn n = s.fence fn n := rfl
@[simp] theorem modTdm_up (s : State) (p : Nat) (f : Tdm → Tdm) (i' : Nat) : (s.modTdm p f).up i' = s.up i' := rfl
@[simp] theorem modTdm_stamp (s : State) (p : Nat) (f : Tdm → Tdm) (i' : Nat) : (s.modTdm p f).stamp i' = s.stamp i' := rfl
@[simp] theorem modTdm_mayWrite (s : State) (p : Nat) (f : Tdm → Tdm) (fn' grp' : Nat) : (s.modTdm p f).mayWrite fn' grp' = s.mayWrite fn' grp' := rfl

/-! ### modSafeLoad -/

@[simp] theorem modSafeLoad_dt (s : State) (fn : Nat) (f : SafeLoad → SafeLoad) : (s.modSafeLoad fn f).dt = s.dt := rfl
@[simp] theorem modSafeLoad_time (s : State) (fn : Nat) (f : SafeLoad → SafeLoad) : (s.modSafeLoad fn f).time = s.time := rfl
@[simp] theorem modSafeLoad_isl (s : State) (fn : Nat) (f : SafeLoad → SafeLoad) : (s.modSafeLoad fn f).isl = s.isl := rfl
@[simp] theorem modSafeLoad_img (s : State) (fn : Nat) (f : SafeLoad → SafeLoad) : (s.modSafeLoad fn f).img = s.img := rfl
@[simp] theorem modSafeLoad_fns (s : State) (fn : Nat) (f : SafeLoad → SafeLoad) : (s.modSafeLoad fn f).fns = s.fns := rfl
@[simp] theorem modSafeLoad_queues (s : State) (fn : Nat) (f : SafeLoad → SafeLoad) : (s.modSafeLoad fn f).queues = s.queues := rfl
@[simp] theorem modSafeLoad_flights (s : State) (fn : Nat) (f : SafeLoad → SafeLoad) : (s.modSafeLoad fn f).flights = s.flights := rfl
@[simp] theorem modSafeLoad_nextId (s : State) (fn : Nat) (f : SafeLoad → SafeLoad) : (s.modSafeLoad fn f).nextId = s.nextId := rfl
@[simp] theorem modSafeLoad_ports (s : State) (fn : Nat) (f : SafeLoad → SafeLoad) : (s.modSafeLoad fn f).ports = s.ports := rfl
@[simp] theorem modSafeLoad_grpDrop (s : State) (fn : Nat) (f : SafeLoad → SafeLoad) : (s.modSafeLoad fn f).grpDrop = s.grpDrop := rfl
@[simp] theorem modSafeLoad_hdDrop (s : State) (fn : Nat) (f : SafeLoad → SafeLoad) : (s.modSafeLoad fn f).hdDrop = s.hdDrop := rfl
@[simp] theorem modSafeLoad_heads (s : State) (fn : Nat) (f : SafeLoad → SafeLoad) : (s.modSafeLoad fn f).heads = s.heads := rfl
@[simp] theorem modSafeLoad_slots (s : State) (fn : Nat) (f : SafeLoad → SafeLoad) : (s.modSafeLoad fn f).slots = s.slots := rfl
@[simp] theorem modSafeLoad_safe (s : State) (fn : Nat) (f : SafeLoad → SafeLoad) : (s.modSafeLoad fn f).safe = s.safe := rfl
@[simp] theorem modSafeLoad_pairs (s : State) (fn : Nat) (f : SafeLoad → SafeLoad) : (s.modSafeLoad fn f).pairs = s.pairs := rfl
@[simp] theorem modSafeLoad_store (s : State) (fn : Nat) (f : SafeLoad → SafeLoad) : (s.modSafeLoad fn f).store = s.store := rfl
@[simp] theorem modSafeLoad_wl (s : State) (fn : Nat) (f : SafeLoad → SafeLoad) : (s.modSafeLoad fn f).wl = s.wl := rfl
@[simp] theorem modSafeLoad_chand (s : State) (fn : Nat) (f : SafeLoad → SafeLoad) : (s.modSafeLoad fn f).chand = s.chand := rfl
@[simp] theorem modSafeLoad_mem (s : State) (fn : Nat) (f : SafeLoad → SafeLoad) : (s.modSafeLoad fn f).mem = s.mem := rfl
@[simp] theorem modSafeLoad_fab (s : State) (fn : Nat) (f : SafeLoad → SafeLoad) : (s.modSafeLoad fn f).fab = s.fab := rfl
@[simp] theorem modSafeLoad_media (s : State) (fn : Nat) (f : SafeLoad → SafeLoad) : (s.modSafeLoad fn f).media = s.media := rfl
@[simp] theorem modSafeLoad_net (s : State) (fn : Nat) (f : SafeLoad → SafeLoad) : (s.modSafeLoad fn f).net = s.net := rfl
@[simp] theorem modSafeLoad_sense (s : State) (fn : Nat) (f : SafeLoad → SafeLoad) : (s.modSafeLoad fn f).sense = s.sense := rfl
@[simp] theorem modSafeLoad_lan (s : State) (fn : Nat) (f : SafeLoad → SafeLoad) : (s.modSafeLoad fn f).lan = s.lan := rfl
@[simp] theorem modSafeLoad_flt (s : State) (fn : Nat) (f : SafeLoad → SafeLoad) : (s.modSafeLoad fn f).flt = s.flt := rfl
@[simp] theorem modSafeLoad_pwr (s : State) (fn : Nat) (f : SafeLoad → SafeLoad) : (s.modSafeLoad fn f).pwr = s.pwr := rfl
@[simp] theorem modSafeLoad_boot (s : State) (fn : Nat) (f : SafeLoad → SafeLoad) : (s.modSafeLoad fn f).boot = s.boot := rfl
@[simp] theorem modSafeLoad_draws (s : State) (fn : Nat) (f : SafeLoad → SafeLoad) : (s.modSafeLoad fn f).draws = s.draws := rfl
@[simp] theorem modSafeLoad_out (s : State) (fn : Nat) (f : SafeLoad → SafeLoad) : (s.modSafeLoad fn f).out = s.out := rfl
@[simp] theorem modSafeLoad_pending (s : State) (fn : Nat) (f : SafeLoad → SafeLoad) : (s.modSafeLoad fn f).pending = s.pending := rfl
@[simp] theorem modSafeLoad_island (s : State) (fn : Nat) (f : SafeLoad → SafeLoad) (i : Nat) : (s.modSafeLoad fn f).island i = s.island i := rfl
@[simp] theorem modSafeLoad_fnc (s : State) (fn : Nat) (f : SafeLoad → SafeLoad) (i : Nat) : (s.modSafeLoad fn f).fnc i = s.fnc i := rfl
@[simp] theorem modSafeLoad_que (s : State) (fn : Nat) (f : SafeLoad → SafeLoad) (fn' q : Nat) : (s.modSafeLoad fn f).que fn' q = s.que fn' q := rfl
@[simp] theorem modSafeLoad_port (s : State) (fn : Nat) (f : SafeLoad → SafeLoad) (p : Nat) : (s.modSafeLoad fn f).port p = s.port p := rfl
@[simp] theorem modSafeLoad_head (s : State) (fn : Nat) (f : SafeLoad → SafeLoad) (h : Nat) : (s.modSafeLoad fn f).head h = s.head h := rfl
@[simp] theorem modSafeLoad_slotOf (s : State) (fn : Nat) (f : SafeLoad → SafeLoad) (n : Nat) : (s.modSafeLoad fn f).slotOf n = s.slotOf n := rfl
@[simp] theorem modSafeLoad_safeOf (s : State) (fn : Nat) (f : SafeLoad → SafeLoad) (h : Nat) : (s.modSafeLoad fn f).safeOf h = s.safeOf h := rfl
@[simp] theorem modSafeLoad_pair (s : State) (fn : Nat) (f : SafeLoad → SafeLoad) (p : Nat) : (s.modSafeLoad fn f).pair p = s.pair p := rfl
@[simp] theorem modSafeLoad_ruleSt (s : State) (fn : Nat) (f : SafeLoad → SafeLoad) (r : Nat) : (s.modSafeLoad fn f).ruleSt r = s.ruleSt r := rfl
@[simp] theorem modSafeLoad_sigOf (s : State) (fn : Nat) (f : SafeLoad → SafeLoad) (n : Nat) : (s.modSafeLoad fn f).sigOf n = s.sigOf n := rfl
@[simp] theorem modSafeLoad_ctx (s : State) (fn : Nat) (f : SafeLoad → SafeLoad) (c : Nat) : (s.modSafeLoad fn f).ctx c = s.ctx c := rfl
@[simp] theorem modSafeLoad_taper (s : State) (fn : Nat) (f : SafeLoad → SafeLoad) (t : Nat) : (s.modSafeLoad fn f).taper t = s.taper t := rfl
@[simp] theorem modSafeLoad_chan (s : State) (fn : Nat) (f : SafeLoad → SafeLoad) (c : Nat) : (s.modSafeLoad fn f).chan c = s.chan c := rfl
@[simp] theorem modSafeLoad_part (s : State) (fn : Nat) (f : SafeLoad → SafeLoad) (p : Nat) : (s.modSafeLoad fn f).part p = s.part p := rfl
@[simp] theorem modSafeLoad_target (s : State) (fn : Nat) (f : SafeLoad → SafeLoad) (t : Nat) : (s.modSafeLoad fn f).target t = s.target t := rfl
@[simp] theorem modSafeLoad_slotTab (s : State) (fn : Nat) (f : SafeLoad → SafeLoad) (i : Nat) : (s.modSafeLoad fn f).slotTab i = s.slotTab i := rfl
@[simp] theorem modSafeLoad_lock (s : State) (fn : Nat) (f : SafeLoad → SafeLoad) (n : Nat) : (s.modSafeLoad fn f).lock n = s.lock n := rfl
@[simp] theorem modSafeLoad_csi (s : State) (fn : Nat) (f : SafeLoad → SafeLoad) (p : Nat) : (s.modSafeLoad fn f).csi p = s.csi p := rfl
@[simp] theorem modSafeLoad_ptp (s : State) (fn : Nat) (f : SafeLoad → SafeLoad) (d : Nat) : (s.modSafeLoad fn f).ptp d = s.ptp d := rfl
@[simp] theorem modSafeLoad_eport (s : State) (fn : Nat) (f : SafeLoad → SafeLoad) (p : Nat) : (s.modSafeLoad fn f).eport p = s.eport p := rfl
@[simp] theorem modSafeLoad_gcl (s : State) (fn : Nat) (f : SafeLoad → SafeLoad) (p : Nat) : (s.modSafeLoad fn f).gcl p = s.gcl p := rfl
@[simp] theorem modSafeLoad_can (s : State) (fn : Nat) (f : SafeLoad → SafeLoad) (n : Nat) : (s.modSafeLoad fn f).can n = s.can n := rfl
@[simp] theorem modSafeLoad_tdm (s : State) (fn : Nat) (f : SafeLoad → SafeLoad) (p : Nat) : (s.modSafeLoad fn f).tdm p = s.tdm p := rfl
@[simp] theorem modSafeLoad_safeLoad (s : State) (fn : Nat) (f : SafeLoad → SafeLoad) : (s.modSafeLoad fn f).safeLoad fn = f (s.safeLoad fn) := look_put _ _ _ _
theorem modSafeLoad_safeLoad_ne (s : State) (fn : Nat) (f : SafeLoad → SafeLoad) {j : Nat} (h' : j ≠ fn) : (s.modSafeLoad fn f).safeLoad j = s.safeLoad j := look_put_ne _ _ _ h'
@[simp] theorem modSafeLoad_panel (s : State) (fn : Nat) (f : SafeLoad → SafeLoad) (p : Nat) : (s.modSafeLoad fn f).panel p = s.panel p := rfl
@[simp] theorem modSafeLoad_obj (s : State) (fn : Nat) (f : SafeLoad → SafeLoad) (o : Nat) : (s.modSafeLoad fn f).obj o = s.obj o := rfl
@[simp] theorem modSafeLoad_hap (s : State) (fn : Nat) (f : SafeLoad → SafeLoad) (n : Nat) : (s.modSafeLoad fn f).hap n = s.hap n := rfl
@[simp] theorem modSafeLoad_mbox (s : State) (fn : Nat) (f : SafeLoad → SafeLoad) (m : Nat) : (s.modSafeLoad fn f).mbox m = s.mbox m := rfl
@[simp] theorem modSafeLoad_rail (s : State) (fn : Nat) (f : SafeLoad → SafeLoad) (r : Nat) : (s.modSafeLoad fn f).rail r = s.rail r := rfl
@[simp] theorem modSafeLoad_fence (s : State) (fn : Nat) (f : SafeLoad → SafeLoad) (fn' n : Nat) : (s.modSafeLoad fn f).fence fn' n = s.fence fn' n := rfl
@[simp] theorem modSafeLoad_up (s : State) (fn : Nat) (f : SafeLoad → SafeLoad) (i' : Nat) : (s.modSafeLoad fn f).up i' = s.up i' := rfl
@[simp] theorem modSafeLoad_stamp (s : State) (fn : Nat) (f : SafeLoad → SafeLoad) (i' : Nat) : (s.modSafeLoad fn f).stamp i' = s.stamp i' := rfl
@[simp] theorem modSafeLoad_mayWrite (s : State) (fn : Nat) (f : SafeLoad → SafeLoad) (fn' grp' : Nat) : (s.modSafeLoad fn f).mayWrite fn' grp' = s.mayWrite fn' grp' := rfl

/-! ### modPanel -/

@[simp] theorem modPanel_dt (s : State) (p : Nat) (f : Panel → Panel) : (s.modPanel p f).dt = s.dt := rfl
@[simp] theorem modPanel_time (s : State) (p : Nat) (f : Panel → Panel) : (s.modPanel p f).time = s.time := rfl
@[simp] theorem modPanel_isl (s : State) (p : Nat) (f : Panel → Panel) : (s.modPanel p f).isl = s.isl := rfl
@[simp] theorem modPanel_img (s : State) (p : Nat) (f : Panel → Panel) : (s.modPanel p f).img = s.img := rfl
@[simp] theorem modPanel_fns (s : State) (p : Nat) (f : Panel → Panel) : (s.modPanel p f).fns = s.fns := rfl
@[simp] theorem modPanel_queues (s : State) (p : Nat) (f : Panel → Panel) : (s.modPanel p f).queues = s.queues := rfl
@[simp] theorem modPanel_flights (s : State) (p : Nat) (f : Panel → Panel) : (s.modPanel p f).flights = s.flights := rfl
@[simp] theorem modPanel_nextId (s : State) (p : Nat) (f : Panel → Panel) : (s.modPanel p f).nextId = s.nextId := rfl
@[simp] theorem modPanel_ports (s : State) (p : Nat) (f : Panel → Panel) : (s.modPanel p f).ports = s.ports := rfl
@[simp] theorem modPanel_grpDrop (s : State) (p : Nat) (f : Panel → Panel) : (s.modPanel p f).grpDrop = s.grpDrop := rfl
@[simp] theorem modPanel_hdDrop (s : State) (p : Nat) (f : Panel → Panel) : (s.modPanel p f).hdDrop = s.hdDrop := rfl
@[simp] theorem modPanel_heads (s : State) (p : Nat) (f : Panel → Panel) : (s.modPanel p f).heads = s.heads := rfl
@[simp] theorem modPanel_slots (s : State) (p : Nat) (f : Panel → Panel) : (s.modPanel p f).slots = s.slots := rfl
@[simp] theorem modPanel_safe (s : State) (p : Nat) (f : Panel → Panel) : (s.modPanel p f).safe = s.safe := rfl
@[simp] theorem modPanel_pairs (s : State) (p : Nat) (f : Panel → Panel) : (s.modPanel p f).pairs = s.pairs := rfl
@[simp] theorem modPanel_store (s : State) (p : Nat) (f : Panel → Panel) : (s.modPanel p f).store = s.store := rfl
@[simp] theorem modPanel_wl (s : State) (p : Nat) (f : Panel → Panel) : (s.modPanel p f).wl = s.wl := rfl
@[simp] theorem modPanel_chand (s : State) (p : Nat) (f : Panel → Panel) : (s.modPanel p f).chand = s.chand := rfl
@[simp] theorem modPanel_mem (s : State) (p : Nat) (f : Panel → Panel) : (s.modPanel p f).mem = s.mem := rfl
@[simp] theorem modPanel_fab (s : State) (p : Nat) (f : Panel → Panel) : (s.modPanel p f).fab = s.fab := rfl
@[simp] theorem modPanel_media (s : State) (p : Nat) (f : Panel → Panel) : (s.modPanel p f).media = s.media := rfl
@[simp] theorem modPanel_net (s : State) (p : Nat) (f : Panel → Panel) : (s.modPanel p f).net = s.net := rfl
@[simp] theorem modPanel_audio (s : State) (p : Nat) (f : Panel → Panel) : (s.modPanel p f).audio = s.audio := rfl
@[simp] theorem modPanel_lan (s : State) (p : Nat) (f : Panel → Panel) : (s.modPanel p f).lan = s.lan := rfl
@[simp] theorem modPanel_flt (s : State) (p : Nat) (f : Panel → Panel) : (s.modPanel p f).flt = s.flt := rfl
@[simp] theorem modPanel_pwr (s : State) (p : Nat) (f : Panel → Panel) : (s.modPanel p f).pwr = s.pwr := rfl
@[simp] theorem modPanel_boot (s : State) (p : Nat) (f : Panel → Panel) : (s.modPanel p f).boot = s.boot := rfl
@[simp] theorem modPanel_draws (s : State) (p : Nat) (f : Panel → Panel) : (s.modPanel p f).draws = s.draws := rfl
@[simp] theorem modPanel_out (s : State) (p : Nat) (f : Panel → Panel) : (s.modPanel p f).out = s.out := rfl
@[simp] theorem modPanel_pending (s : State) (p : Nat) (f : Panel → Panel) : (s.modPanel p f).pending = s.pending := rfl
@[simp] theorem modPanel_island (s : State) (p : Nat) (f : Panel → Panel) (i : Nat) : (s.modPanel p f).island i = s.island i := rfl
@[simp] theorem modPanel_fnc (s : State) (p : Nat) (f : Panel → Panel) (i : Nat) : (s.modPanel p f).fnc i = s.fnc i := rfl
@[simp] theorem modPanel_que (s : State) (p : Nat) (f : Panel → Panel) (fn q : Nat) : (s.modPanel p f).que fn q = s.que fn q := rfl
@[simp] theorem modPanel_port (s : State) (p : Nat) (f : Panel → Panel) (p' : Nat) : (s.modPanel p f).port p' = s.port p' := rfl
@[simp] theorem modPanel_head (s : State) (p : Nat) (f : Panel → Panel) (h : Nat) : (s.modPanel p f).head h = s.head h := rfl
@[simp] theorem modPanel_slotOf (s : State) (p : Nat) (f : Panel → Panel) (n : Nat) : (s.modPanel p f).slotOf n = s.slotOf n := rfl
@[simp] theorem modPanel_safeOf (s : State) (p : Nat) (f : Panel → Panel) (h : Nat) : (s.modPanel p f).safeOf h = s.safeOf h := rfl
@[simp] theorem modPanel_pair (s : State) (p : Nat) (f : Panel → Panel) (p' : Nat) : (s.modPanel p f).pair p' = s.pair p' := rfl
@[simp] theorem modPanel_ruleSt (s : State) (p : Nat) (f : Panel → Panel) (r : Nat) : (s.modPanel p f).ruleSt r = s.ruleSt r := rfl
@[simp] theorem modPanel_sigOf (s : State) (p : Nat) (f : Panel → Panel) (n : Nat) : (s.modPanel p f).sigOf n = s.sigOf n := rfl
@[simp] theorem modPanel_ctx (s : State) (p : Nat) (f : Panel → Panel) (c : Nat) : (s.modPanel p f).ctx c = s.ctx c := rfl
@[simp] theorem modPanel_taper (s : State) (p : Nat) (f : Panel → Panel) (t : Nat) : (s.modPanel p f).taper t = s.taper t := rfl
@[simp] theorem modPanel_chan (s : State) (p : Nat) (f : Panel → Panel) (c : Nat) : (s.modPanel p f).chan c = s.chan c := rfl
@[simp] theorem modPanel_part (s : State) (p : Nat) (f : Panel → Panel) (p' : Nat) : (s.modPanel p f).part p' = s.part p' := rfl
@[simp] theorem modPanel_target (s : State) (p : Nat) (f : Panel → Panel) (t : Nat) : (s.modPanel p f).target t = s.target t := rfl
@[simp] theorem modPanel_slotTab (s : State) (p : Nat) (f : Panel → Panel) (i : Nat) : (s.modPanel p f).slotTab i = s.slotTab i := rfl
@[simp] theorem modPanel_lock (s : State) (p : Nat) (f : Panel → Panel) (n : Nat) : (s.modPanel p f).lock n = s.lock n := rfl
@[simp] theorem modPanel_csi (s : State) (p : Nat) (f : Panel → Panel) (p' : Nat) : (s.modPanel p f).csi p' = s.csi p' := rfl
@[simp] theorem modPanel_ptp (s : State) (p : Nat) (f : Panel → Panel) (d : Nat) : (s.modPanel p f).ptp d = s.ptp d := rfl
@[simp] theorem modPanel_eport (s : State) (p : Nat) (f : Panel → Panel) (p' : Nat) : (s.modPanel p f).eport p' = s.eport p' := rfl
@[simp] theorem modPanel_gcl (s : State) (p : Nat) (f : Panel → Panel) (p' : Nat) : (s.modPanel p f).gcl p' = s.gcl p' := rfl
@[simp] theorem modPanel_can (s : State) (p : Nat) (f : Panel → Panel) (n : Nat) : (s.modPanel p f).can n = s.can n := rfl
@[simp] theorem modPanel_tdm (s : State) (p : Nat) (f : Panel → Panel) (p' : Nat) : (s.modPanel p f).tdm p' = s.tdm p' := rfl
@[simp] theorem modPanel_safeLoad (s : State) (p : Nat) (f : Panel → Panel) (fn : Nat) : (s.modPanel p f).safeLoad fn = s.safeLoad fn := rfl
@[simp] theorem modPanel_panel (s : State) (p : Nat) (f : Panel → Panel) : (s.modPanel p f).panel p = f (s.panel p) := look_put _ _ _ _
theorem modPanel_panel_ne (s : State) (p : Nat) (f : Panel → Panel) {j : Nat} (h' : j ≠ p) : (s.modPanel p f).panel j = s.panel j := look_put_ne _ _ _ h'
@[simp] theorem modPanel_obj (s : State) (p : Nat) (f : Panel → Panel) (o : Nat) : (s.modPanel p f).obj o = s.obj o := rfl
@[simp] theorem modPanel_hap (s : State) (p : Nat) (f : Panel → Panel) (n : Nat) : (s.modPanel p f).hap n = s.hap n := rfl
@[simp] theorem modPanel_mbox (s : State) (p : Nat) (f : Panel → Panel) (m : Nat) : (s.modPanel p f).mbox m = s.mbox m := rfl
@[simp] theorem modPanel_rail (s : State) (p : Nat) (f : Panel → Panel) (r : Nat) : (s.modPanel p f).rail r = s.rail r := rfl
@[simp] theorem modPanel_fence (s : State) (p : Nat) (f : Panel → Panel) (fn n : Nat) : (s.modPanel p f).fence fn n = s.fence fn n := rfl
@[simp] theorem modPanel_up (s : State) (p : Nat) (f : Panel → Panel) (i' : Nat) : (s.modPanel p f).up i' = s.up i' := rfl
@[simp] theorem modPanel_stamp (s : State) (p : Nat) (f : Panel → Panel) (i' : Nat) : (s.modPanel p f).stamp i' = s.stamp i' := rfl
@[simp] theorem modPanel_mayWrite (s : State) (p : Nat) (f : Panel → Panel) (fn' grp' : Nat) : (s.modPanel p f).mayWrite fn' grp' = s.mayWrite fn' grp' := rfl

/-! ### modObj -/

@[simp] theorem modObj_dt (s : State) (o : Nat) (f : ScObj → ScObj) : (s.modObj o f).dt = s.dt := rfl
@[simp] theorem modObj_time (s : State) (o : Nat) (f : ScObj → ScObj) : (s.modObj o f).time = s.time := rfl
@[simp] theorem modObj_isl (s : State) (o : Nat) (f : ScObj → ScObj) : (s.modObj o f).isl = s.isl := rfl
@[simp] theorem modObj_img (s : State) (o : Nat) (f : ScObj → ScObj) : (s.modObj o f).img = s.img := rfl
@[simp] theorem modObj_fns (s : State) (o : Nat) (f : ScObj → ScObj) : (s.modObj o f).fns = s.fns := rfl
@[simp] theorem modObj_queues (s : State) (o : Nat) (f : ScObj → ScObj) : (s.modObj o f).queues = s.queues := rfl
@[simp] theorem modObj_flights (s : State) (o : Nat) (f : ScObj → ScObj) : (s.modObj o f).flights = s.flights := rfl
@[simp] theorem modObj_nextId (s : State) (o : Nat) (f : ScObj → ScObj) : (s.modObj o f).nextId = s.nextId := rfl
@[simp] theorem modObj_ports (s : State) (o : Nat) (f : ScObj → ScObj) : (s.modObj o f).ports = s.ports := rfl
@[simp] theorem modObj_grpDrop (s : State) (o : Nat) (f : ScObj → ScObj) : (s.modObj o f).grpDrop = s.grpDrop := rfl
@[simp] theorem modObj_hdDrop (s : State) (o : Nat) (f : ScObj → ScObj) : (s.modObj o f).hdDrop = s.hdDrop := rfl
@[simp] theorem modObj_heads (s : State) (o : Nat) (f : ScObj → ScObj) : (s.modObj o f).heads = s.heads := rfl
@[simp] theorem modObj_slots (s : State) (o : Nat) (f : ScObj → ScObj) : (s.modObj o f).slots = s.slots := rfl
@[simp] theorem modObj_safe (s : State) (o : Nat) (f : ScObj → ScObj) : (s.modObj o f).safe = s.safe := rfl
@[simp] theorem modObj_pairs (s : State) (o : Nat) (f : ScObj → ScObj) : (s.modObj o f).pairs = s.pairs := rfl
@[simp] theorem modObj_store (s : State) (o : Nat) (f : ScObj → ScObj) : (s.modObj o f).store = s.store := rfl
@[simp] theorem modObj_wl (s : State) (o : Nat) (f : ScObj → ScObj) : (s.modObj o f).wl = s.wl := rfl
@[simp] theorem modObj_chand (s : State) (o : Nat) (f : ScObj → ScObj) : (s.modObj o f).chand = s.chand := rfl
@[simp] theorem modObj_mem (s : State) (o : Nat) (f : ScObj → ScObj) : (s.modObj o f).mem = s.mem := rfl
@[simp] theorem modObj_fab (s : State) (o : Nat) (f : ScObj → ScObj) : (s.modObj o f).fab = s.fab := rfl
@[simp] theorem modObj_media (s : State) (o : Nat) (f : ScObj → ScObj) : (s.modObj o f).media = s.media := rfl
@[simp] theorem modObj_net (s : State) (o : Nat) (f : ScObj → ScObj) : (s.modObj o f).net = s.net := rfl
@[simp] theorem modObj_audio (s : State) (o : Nat) (f : ScObj → ScObj) : (s.modObj o f).audio = s.audio := rfl
@[simp] theorem modObj_lan (s : State) (o : Nat) (f : ScObj → ScObj) : (s.modObj o f).lan = s.lan := rfl
@[simp] theorem modObj_flt (s : State) (o : Nat) (f : ScObj → ScObj) : (s.modObj o f).flt = s.flt := rfl
@[simp] theorem modObj_pwr (s : State) (o : Nat) (f : ScObj → ScObj) : (s.modObj o f).pwr = s.pwr := rfl
@[simp] theorem modObj_boot (s : State) (o : Nat) (f : ScObj → ScObj) : (s.modObj o f).boot = s.boot := rfl
@[simp] theorem modObj_draws (s : State) (o : Nat) (f : ScObj → ScObj) : (s.modObj o f).draws = s.draws := rfl
@[simp] theorem modObj_out (s : State) (o : Nat) (f : ScObj → ScObj) : (s.modObj o f).out = s.out := rfl
@[simp] theorem modObj_pending (s : State) (o : Nat) (f : ScObj → ScObj) : (s.modObj o f).pending = s.pending := rfl
@[simp] theorem modObj_island (s : State) (o : Nat) (f : ScObj → ScObj) (i : Nat) : (s.modObj o f).island i = s.island i := rfl
@[simp] theorem modObj_fnc (s : State) (o : Nat) (f : ScObj → ScObj) (i : Nat) : (s.modObj o f).fnc i = s.fnc i := rfl
@[simp] theorem modObj_que (s : State) (o : Nat) (f : ScObj → ScObj) (fn q : Nat) : (s.modObj o f).que fn q = s.que fn q := rfl
@[simp] theorem modObj_port (s : State) (o : Nat) (f : ScObj → ScObj) (p : Nat) : (s.modObj o f).port p = s.port p := rfl
@[simp] theorem modObj_head (s : State) (o : Nat) (f : ScObj → ScObj) (h : Nat) : (s.modObj o f).head h = s.head h := rfl
@[simp] theorem modObj_slotOf (s : State) (o : Nat) (f : ScObj → ScObj) (n : Nat) : (s.modObj o f).slotOf n = s.slotOf n := rfl
@[simp] theorem modObj_safeOf (s : State) (o : Nat) (f : ScObj → ScObj) (h : Nat) : (s.modObj o f).safeOf h = s.safeOf h := rfl
@[simp] theorem modObj_pair (s : State) (o : Nat) (f : ScObj → ScObj) (p : Nat) : (s.modObj o f).pair p = s.pair p := rfl
@[simp] theorem modObj_ruleSt (s : State) (o : Nat) (f : ScObj → ScObj) (r : Nat) : (s.modObj o f).ruleSt r = s.ruleSt r := rfl
@[simp] theorem modObj_sigOf (s : State) (o : Nat) (f : ScObj → ScObj) (n : Nat) : (s.modObj o f).sigOf n = s.sigOf n := rfl
@[simp] theorem modObj_ctx (s : State) (o : Nat) (f : ScObj → ScObj) (c : Nat) : (s.modObj o f).ctx c = s.ctx c := rfl
@[simp] theorem modObj_taper (s : State) (o : Nat) (f : ScObj → ScObj) (t : Nat) : (s.modObj o f).taper t = s.taper t := rfl
@[simp] theorem modObj_chan (s : State) (o : Nat) (f : ScObj → ScObj) (c : Nat) : (s.modObj o f).chan c = s.chan c := rfl
@[simp] theorem modObj_part (s : State) (o : Nat) (f : ScObj → ScObj) (p : Nat) : (s.modObj o f).part p = s.part p := rfl
@[simp] theorem modObj_target (s : State) (o : Nat) (f : ScObj → ScObj) (t : Nat) : (s.modObj o f).target t = s.target t := rfl
@[simp] theorem modObj_slotTab (s : State) (o : Nat) (f : ScObj → ScObj) (i : Nat) : (s.modObj o f).slotTab i = s.slotTab i := rfl
@[simp] theorem modObj_lock (s : State) (o : Nat) (f : ScObj → ScObj) (n : Nat) : (s.modObj o f).lock n = s.lock n := rfl
@[simp] theorem modObj_csi (s : State) (o : Nat) (f : ScObj → ScObj) (p : Nat) : (s.modObj o f).csi p = s.csi p := rfl
@[simp] theorem modObj_ptp (s : State) (o : Nat) (f : ScObj → ScObj) (d : Nat) : (s.modObj o f).ptp d = s.ptp d := rfl
@[simp] theorem modObj_eport (s : State) (o : Nat) (f : ScObj → ScObj) (p : Nat) : (s.modObj o f).eport p = s.eport p := rfl
@[simp] theorem modObj_gcl (s : State) (o : Nat) (f : ScObj → ScObj) (p : Nat) : (s.modObj o f).gcl p = s.gcl p := rfl
@[simp] theorem modObj_can (s : State) (o : Nat) (f : ScObj → ScObj) (n : Nat) : (s.modObj o f).can n = s.can n := rfl
@[simp] theorem modObj_tdm (s : State) (o : Nat) (f : ScObj → ScObj) (p : Nat) : (s.modObj o f).tdm p = s.tdm p := rfl
@[simp] theorem modObj_safeLoad (s : State) (o : Nat) (f : ScObj → ScObj) (fn : Nat) : (s.modObj o f).safeLoad fn = s.safeLoad fn := rfl
@[simp] theorem modObj_panel (s : State) (o : Nat) (f : ScObj → ScObj) (p : Nat) : (s.modObj o f).panel p = s.panel p := rfl
@[simp] theorem modObj_obj (s : State) (o : Nat) (f : ScObj → ScObj) : (s.modObj o f).obj o = f (s.obj o) := look_put _ _ _ _
theorem modObj_obj_ne (s : State) (o : Nat) (f : ScObj → ScObj) {j : Nat} (h' : j ≠ o) : (s.modObj o f).obj j = s.obj j := look_put_ne _ _ _ h'
@[simp] theorem modObj_hap (s : State) (o : Nat) (f : ScObj → ScObj) (n : Nat) : (s.modObj o f).hap n = s.hap n := rfl
@[simp] theorem modObj_mbox (s : State) (o : Nat) (f : ScObj → ScObj) (m : Nat) : (s.modObj o f).mbox m = s.mbox m := rfl
@[simp] theorem modObj_rail (s : State) (o : Nat) (f : ScObj → ScObj) (r : Nat) : (s.modObj o f).rail r = s.rail r := rfl
@[simp] theorem modObj_fence (s : State) (o : Nat) (f : ScObj → ScObj) (fn n : Nat) : (s.modObj o f).fence fn n = s.fence fn n := rfl
@[simp] theorem modObj_up (s : State) (o : Nat) (f : ScObj → ScObj) (i' : Nat) : (s.modObj o f).up i' = s.up i' := rfl
@[simp] theorem modObj_stamp (s : State) (o : Nat) (f : ScObj → ScObj) (i' : Nat) : (s.modObj o f).stamp i' = s.stamp i' := rfl
@[simp] theorem modObj_mayWrite (s : State) (o : Nat) (f : ScObj → ScObj) (fn' grp' : Nat) : (s.modObj o f).mayWrite fn' grp' = s.mayWrite fn' grp' := rfl

/-! ### modHap -/

@[simp] theorem modHap_dt (s : State) (n : Nat) (f : Hap → Hap) : (s.modHap n f).dt = s.dt := rfl
@[simp] theorem modHap_time (s : State) (n : Nat) (f : Hap → Hap) : (s.modHap n f).time = s.time := rfl
@[simp] theorem modHap_isl (s : State) (n : Nat) (f : Hap → Hap) : (s.modHap n f).isl = s.isl := rfl
@[simp] theorem modHap_img (s : State) (n : Nat) (f : Hap → Hap) : (s.modHap n f).img = s.img := rfl
@[simp] theorem modHap_fns (s : State) (n : Nat) (f : Hap → Hap) : (s.modHap n f).fns = s.fns := rfl
@[simp] theorem modHap_queues (s : State) (n : Nat) (f : Hap → Hap) : (s.modHap n f).queues = s.queues := rfl
@[simp] theorem modHap_flights (s : State) (n : Nat) (f : Hap → Hap) : (s.modHap n f).flights = s.flights := rfl
@[simp] theorem modHap_nextId (s : State) (n : Nat) (f : Hap → Hap) : (s.modHap n f).nextId = s.nextId := rfl
@[simp] theorem modHap_ports (s : State) (n : Nat) (f : Hap → Hap) : (s.modHap n f).ports = s.ports := rfl
@[simp] theorem modHap_grpDrop (s : State) (n : Nat) (f : Hap → Hap) : (s.modHap n f).grpDrop = s.grpDrop := rfl
@[simp] theorem modHap_hdDrop (s : State) (n : Nat) (f : Hap → Hap) : (s.modHap n f).hdDrop = s.hdDrop := rfl
@[simp] theorem modHap_heads (s : State) (n : Nat) (f : Hap → Hap) : (s.modHap n f).heads = s.heads := rfl
@[simp] theorem modHap_slots (s : State) (n : Nat) (f : Hap → Hap) : (s.modHap n f).slots = s.slots := rfl
@[simp] theorem modHap_safe (s : State) (n : Nat) (f : Hap → Hap) : (s.modHap n f).safe = s.safe := rfl
@[simp] theorem modHap_pairs (s : State) (n : Nat) (f : Hap → Hap) : (s.modHap n f).pairs = s.pairs := rfl
@[simp] theorem modHap_store (s : State) (n : Nat) (f : Hap → Hap) : (s.modHap n f).store = s.store := rfl
@[simp] theorem modHap_wl (s : State) (n : Nat) (f : Hap → Hap) : (s.modHap n f).wl = s.wl := rfl
@[simp] theorem modHap_chand (s : State) (n : Nat) (f : Hap → Hap) : (s.modHap n f).chand = s.chand := rfl
@[simp] theorem modHap_mem (s : State) (n : Nat) (f : Hap → Hap) : (s.modHap n f).mem = s.mem := rfl
@[simp] theorem modHap_fab (s : State) (n : Nat) (f : Hap → Hap) : (s.modHap n f).fab = s.fab := rfl
@[simp] theorem modHap_media (s : State) (n : Nat) (f : Hap → Hap) : (s.modHap n f).media = s.media := rfl
@[simp] theorem modHap_net (s : State) (n : Nat) (f : Hap → Hap) : (s.modHap n f).net = s.net := rfl
@[simp] theorem modHap_audio (s : State) (n : Nat) (f : Hap → Hap) : (s.modHap n f).audio = s.audio := rfl
@[simp] theorem modHap_lan (s : State) (n : Nat) (f : Hap → Hap) : (s.modHap n f).lan = s.lan := rfl
@[simp] theorem modHap_flt (s : State) (n : Nat) (f : Hap → Hap) : (s.modHap n f).flt = s.flt := rfl
@[simp] theorem modHap_pwr (s : State) (n : Nat) (f : Hap → Hap) : (s.modHap n f).pwr = s.pwr := rfl
@[simp] theorem modHap_boot (s : State) (n : Nat) (f : Hap → Hap) : (s.modHap n f).boot = s.boot := rfl
@[simp] theorem modHap_draws (s : State) (n : Nat) (f : Hap → Hap) : (s.modHap n f).draws = s.draws := rfl
@[simp] theorem modHap_out (s : State) (n : Nat) (f : Hap → Hap) : (s.modHap n f).out = s.out := rfl
@[simp] theorem modHap_pending (s : State) (n : Nat) (f : Hap → Hap) : (s.modHap n f).pending = s.pending := rfl
@[simp] theorem modHap_island (s : State) (n : Nat) (f : Hap → Hap) (i : Nat) : (s.modHap n f).island i = s.island i := rfl
@[simp] theorem modHap_fnc (s : State) (n : Nat) (f : Hap → Hap) (i : Nat) : (s.modHap n f).fnc i = s.fnc i := rfl
@[simp] theorem modHap_que (s : State) (n : Nat) (f : Hap → Hap) (fn q : Nat) : (s.modHap n f).que fn q = s.que fn q := rfl
@[simp] theorem modHap_port (s : State) (n : Nat) (f : Hap → Hap) (p : Nat) : (s.modHap n f).port p = s.port p := rfl
@[simp] theorem modHap_head (s : State) (n : Nat) (f : Hap → Hap) (h : Nat) : (s.modHap n f).head h = s.head h := rfl
@[simp] theorem modHap_slotOf (s : State) (n : Nat) (f : Hap → Hap) (n' : Nat) : (s.modHap n f).slotOf n' = s.slotOf n' := rfl
@[simp] theorem modHap_safeOf (s : State) (n : Nat) (f : Hap → Hap) (h : Nat) : (s.modHap n f).safeOf h = s.safeOf h := rfl
@[simp] theorem modHap_pair (s : State) (n : Nat) (f : Hap → Hap) (p : Nat) : (s.modHap n f).pair p = s.pair p := rfl
@[simp] theorem modHap_ruleSt (s : State) (n : Nat) (f : Hap → Hap) (r : Nat) : (s.modHap n f).ruleSt r = s.ruleSt r := rfl
@[simp] theorem modHap_sigOf (s : State) (n : Nat) (f : Hap → Hap) (n' : Nat) : (s.modHap n f).sigOf n' = s.sigOf n' := rfl
@[simp] theorem modHap_ctx (s : State) (n : Nat) (f : Hap → Hap) (c : Nat) : (s.modHap n f).ctx c = s.ctx c := rfl
@[simp] theorem modHap_taper (s : State) (n : Nat) (f : Hap → Hap) (t : Nat) : (s.modHap n f).taper t = s.taper t := rfl
@[simp] theorem modHap_chan (s : State) (n : Nat) (f : Hap → Hap) (c : Nat) : (s.modHap n f).chan c = s.chan c := rfl
@[simp] theorem modHap_part (s : State) (n : Nat) (f : Hap → Hap) (p : Nat) : (s.modHap n f).part p = s.part p := rfl
@[simp] theorem modHap_target (s : State) (n : Nat) (f : Hap → Hap) (t : Nat) : (s.modHap n f).target t = s.target t := rfl
@[simp] theorem modHap_slotTab (s : State) (n : Nat) (f : Hap → Hap) (i : Nat) : (s.modHap n f).slotTab i = s.slotTab i := rfl
@[simp] theorem modHap_lock (s : State) (n : Nat) (f : Hap → Hap) (n' : Nat) : (s.modHap n f).lock n' = s.lock n' := rfl
@[simp] theorem modHap_csi (s : State) (n : Nat) (f : Hap → Hap) (p : Nat) : (s.modHap n f).csi p = s.csi p := rfl
@[simp] theorem modHap_ptp (s : State) (n : Nat) (f : Hap → Hap) (d : Nat) : (s.modHap n f).ptp d = s.ptp d := rfl
@[simp] theorem modHap_eport (s : State) (n : Nat) (f : Hap → Hap) (p : Nat) : (s.modHap n f).eport p = s.eport p := rfl
@[simp] theorem modHap_gcl (s : State) (n : Nat) (f : Hap → Hap) (p : Nat) : (s.modHap n f).gcl p = s.gcl p := rfl
@[simp] theorem modHap_can (s : State) (n : Nat) (f : Hap → Hap) (n' : Nat) : (s.modHap n f).can n' = s.can n' := rfl
@[simp] theorem modHap_tdm (s : State) (n : Nat) (f : Hap → Hap) (p : Nat) : (s.modHap n f).tdm p = s.tdm p := rfl
@[simp] theorem modHap_safeLoad (s : State) (n : Nat) (f : Hap → Hap) (fn : Nat) : (s.modHap n f).safeLoad fn = s.safeLoad fn := rfl
@[simp] theorem modHap_panel (s : State) (n : Nat) (f : Hap → Hap) (p : Nat) : (s.modHap n f).panel p = s.panel p := rfl
@[simp] theorem modHap_obj (s : State) (n : Nat) (f : Hap → Hap) (o : Nat) : (s.modHap n f).obj o = s.obj o := rfl
@[simp] theorem modHap_hap (s : State) (n : Nat) (f : Hap → Hap) : (s.modHap n f).hap n = f (s.hap n) := look_put _ _ _ _
theorem modHap_hap_ne (s : State) (n : Nat) (f : Hap → Hap) {j : Nat} (h' : j ≠ n) : (s.modHap n f).hap j = s.hap j := look_put_ne _ _ _ h'
@[simp] theorem modHap_mbox (s : State) (n : Nat) (f : Hap → Hap) (m : Nat) : (s.modHap n f).mbox m = s.mbox m := rfl
@[simp] theorem modHap_rail (s : State) (n : Nat) (f : Hap → Hap) (r : Nat) : (s.modHap n f).rail r = s.rail r := rfl
@[simp] theorem modHap_fence (s : State) (n : Nat) (f : Hap → Hap) (fn n' : Nat) : (s.modHap n f).fence fn n' = s.fence fn n' := rfl
@[simp] theorem modHap_up (s : State) (n : Nat) (f : Hap → Hap) (i' : Nat) : (s.modHap n f).up i' = s.up i' := rfl
@[simp] theorem modHap_stamp (s : State) (n : Nat) (f : Hap → Hap) (i' : Nat) : (s.modHap n f).stamp i' = s.stamp i' := rfl
@[simp] theorem modHap_mayWrite (s : State) (n : Nat) (f : Hap → Hap) (fn' grp' : Nat) : (s.modHap n f).mayWrite fn' grp' = s.mayWrite fn' grp' := rfl

/-! ### modMbox -/

@[simp] theorem modMbox_dt (s : State) (m : Nat) (f : Mbox → Mbox) : (s.modMbox m f).dt = s.dt := rfl
@[simp] theorem modMbox_time (s : State) (m : Nat) (f : Mbox → Mbox) : (s.modMbox m f).time = s.time := rfl
@[simp] theorem modMbox_isl (s : State) (m : Nat) (f : Mbox → Mbox) : (s.modMbox m f).isl = s.isl := rfl
@[simp] theorem modMbox_img (s : State) (m : Nat) (f : Mbox → Mbox) : (s.modMbox m f).img = s.img := rfl
@[simp] theorem modMbox_fns (s : State) (m : Nat) (f : Mbox → Mbox) : (s.modMbox m f).fns = s.fns := rfl
@[simp] theorem modMbox_queues (s : State) (m : Nat) (f : Mbox → Mbox) : (s.modMbox m f).queues = s.queues := rfl
@[simp] theorem modMbox_flights (s : State) (m : Nat) (f : Mbox → Mbox) : (s.modMbox m f).flights = s.flights := rfl
@[simp] theorem modMbox_nextId (s : State) (m : Nat) (f : Mbox → Mbox) : (s.modMbox m f).nextId = s.nextId := rfl
@[simp] theorem modMbox_ports (s : State) (m : Nat) (f : Mbox → Mbox) : (s.modMbox m f).ports = s.ports := rfl
@[simp] theorem modMbox_grpDrop (s : State) (m : Nat) (f : Mbox → Mbox) : (s.modMbox m f).grpDrop = s.grpDrop := rfl
@[simp] theorem modMbox_hdDrop (s : State) (m : Nat) (f : Mbox → Mbox) : (s.modMbox m f).hdDrop = s.hdDrop := rfl
@[simp] theorem modMbox_heads (s : State) (m : Nat) (f : Mbox → Mbox) : (s.modMbox m f).heads = s.heads := rfl
@[simp] theorem modMbox_slots (s : State) (m : Nat) (f : Mbox → Mbox) : (s.modMbox m f).slots = s.slots := rfl
@[simp] theorem modMbox_safe (s : State) (m : Nat) (f : Mbox → Mbox) : (s.modMbox m f).safe = s.safe := rfl
@[simp] theorem modMbox_pairs (s : State) (m : Nat) (f : Mbox → Mbox) : (s.modMbox m f).pairs = s.pairs := rfl
@[simp] theorem modMbox_store (s : State) (m : Nat) (f : Mbox → Mbox) : (s.modMbox m f).store = s.store := rfl
@[simp] theorem modMbox_wl (s : State) (m : Nat) (f : Mbox → Mbox) : (s.modMbox m f).wl = s.wl := rfl
@[simp] theorem modMbox_chand (s : State) (m : Nat) (f : Mbox → Mbox) : (s.modMbox m f).chand = s.chand := rfl
@[simp] theorem modMbox_mem (s : State) (m : Nat) (f : Mbox → Mbox) : (s.modMbox m f).mem = s.mem := rfl
@[simp] theorem modMbox_fab (s : State) (m : Nat) (f : Mbox → Mbox) : (s.modMbox m f).fab = s.fab := rfl
@[simp] theorem modMbox_media (s : State) (m : Nat) (f : Mbox → Mbox) : (s.modMbox m f).media = s.media := rfl
@[simp] theorem modMbox_net (s : State) (m : Nat) (f : Mbox → Mbox) : (s.modMbox m f).net = s.net := rfl
@[simp] theorem modMbox_audio (s : State) (m : Nat) (f : Mbox → Mbox) : (s.modMbox m f).audio = s.audio := rfl
@[simp] theorem modMbox_sense (s : State) (m : Nat) (f : Mbox → Mbox) : (s.modMbox m f).sense = s.sense := rfl
@[simp] theorem modMbox_flt (s : State) (m : Nat) (f : Mbox → Mbox) : (s.modMbox m f).flt = s.flt := rfl
@[simp] theorem modMbox_pwr (s : State) (m : Nat) (f : Mbox → Mbox) : (s.modMbox m f).pwr = s.pwr := rfl
@[simp] theorem modMbox_boot (s : State) (m : Nat) (f : Mbox → Mbox) : (s.modMbox m f).boot = s.boot := rfl
@[simp] theorem modMbox_draws (s : State) (m : Nat) (f : Mbox → Mbox) : (s.modMbox m f).draws = s.draws := rfl
@[simp] theorem modMbox_out (s : State) (m : Nat) (f : Mbox → Mbox) : (s.modMbox m f).out = s.out := rfl
@[simp] theorem modMbox_pending (s : State) (m : Nat) (f : Mbox → Mbox) : (s.modMbox m f).pending = s.pending := rfl
@[simp] theorem modMbox_lan_life (s : State) (m : Nat) (f : Mbox → Mbox) : (s.modMbox m f).lan.life = s.lan.life := rfl
@[simp] theorem modMbox_lan_lifeNext (s : State) (m : Nat) (f : Mbox → Mbox) : (s.modMbox m f).lan.lifeNext = s.lan.lifeNext := rfl
@[simp] theorem modMbox_lan_claims (s : State) (m : Nat) (f : Mbox → Mbox) : (s.modMbox m f).lan.claims = s.lan.claims := rfl
@[simp] theorem modMbox_lan_order (s : State) (m : Nat) (f : Mbox → Mbox) : (s.modMbox m f).lan.order = s.lan.order := rfl
@[simp] theorem modMbox_island (s : State) (m : Nat) (f : Mbox → Mbox) (i : Nat) : (s.modMbox m f).island i = s.island i := rfl
@[simp] theorem modMbox_fnc (s : State) (m : Nat) (f : Mbox → Mbox) (i : Nat) : (s.modMbox m f).fnc i = s.fnc i := rfl
@[simp] theorem modMbox_que (s : State) (m : Nat) (f : Mbox → Mbox) (fn q : Nat) : (s.modMbox m f).que fn q = s.que fn q := rfl
@[simp] theorem modMbox_port (s : State) (m : Nat) (f : Mbox → Mbox) (p : Nat) : (s.modMbox m f).port p = s.port p := rfl
@[simp] theorem modMbox_head (s : State) (m : Nat) (f : Mbox → Mbox) (h : Nat) : (s.modMbox m f).head h = s.head h := rfl
@[simp] theorem modMbox_slotOf (s : State) (m : Nat) (f : Mbox → Mbox) (n : Nat) : (s.modMbox m f).slotOf n = s.slotOf n := rfl
@[simp] theorem modMbox_safeOf (s : State) (m : Nat) (f : Mbox → Mbox) (h : Nat) : (s.modMbox m f).safeOf h = s.safeOf h := rfl
@[simp] theorem modMbox_pair (s : State) (m : Nat) (f : Mbox → Mbox) (p : Nat) : (s.modMbox m f).pair p = s.pair p := rfl
@[simp] theorem modMbox_ruleSt (s : State) (m : Nat) (f : Mbox → Mbox) (r : Nat) : (s.modMbox m f).ruleSt r = s.ruleSt r := rfl
@[simp] theorem modMbox_sigOf (s : State) (m : Nat) (f : Mbox → Mbox) (n : Nat) : (s.modMbox m f).sigOf n = s.sigOf n := rfl
@[simp] theorem modMbox_ctx (s : State) (m : Nat) (f : Mbox → Mbox) (c : Nat) : (s.modMbox m f).ctx c = s.ctx c := rfl
@[simp] theorem modMbox_taper (s : State) (m : Nat) (f : Mbox → Mbox) (t : Nat) : (s.modMbox m f).taper t = s.taper t := rfl
@[simp] theorem modMbox_chan (s : State) (m : Nat) (f : Mbox → Mbox) (c : Nat) : (s.modMbox m f).chan c = s.chan c := rfl
@[simp] theorem modMbox_part (s : State) (m : Nat) (f : Mbox → Mbox) (p : Nat) : (s.modMbox m f).part p = s.part p := rfl
@[simp] theorem modMbox_target (s : State) (m : Nat) (f : Mbox → Mbox) (t : Nat) : (s.modMbox m f).target t = s.target t := rfl
@[simp] theorem modMbox_slotTab (s : State) (m : Nat) (f : Mbox → Mbox) (i : Nat) : (s.modMbox m f).slotTab i = s.slotTab i := rfl
@[simp] theorem modMbox_lock (s : State) (m : Nat) (f : Mbox → Mbox) (n : Nat) : (s.modMbox m f).lock n = s.lock n := rfl
@[simp] theorem modMbox_csi (s : State) (m : Nat) (f : Mbox → Mbox) (p : Nat) : (s.modMbox m f).csi p = s.csi p := rfl
@[simp] theorem modMbox_ptp (s : State) (m : Nat) (f : Mbox → Mbox) (d : Nat) : (s.modMbox m f).ptp d = s.ptp d := rfl
@[simp] theorem modMbox_eport (s : State) (m : Nat) (f : Mbox → Mbox) (p : Nat) : (s.modMbox m f).eport p = s.eport p := rfl
@[simp] theorem modMbox_gcl (s : State) (m : Nat) (f : Mbox → Mbox) (p : Nat) : (s.modMbox m f).gcl p = s.gcl p := rfl
@[simp] theorem modMbox_can (s : State) (m : Nat) (f : Mbox → Mbox) (n : Nat) : (s.modMbox m f).can n = s.can n := rfl
@[simp] theorem modMbox_tdm (s : State) (m : Nat) (f : Mbox → Mbox) (p : Nat) : (s.modMbox m f).tdm p = s.tdm p := rfl
@[simp] theorem modMbox_safeLoad (s : State) (m : Nat) (f : Mbox → Mbox) (fn : Nat) : (s.modMbox m f).safeLoad fn = s.safeLoad fn := rfl
@[simp] theorem modMbox_panel (s : State) (m : Nat) (f : Mbox → Mbox) (p : Nat) : (s.modMbox m f).panel p = s.panel p := rfl
@[simp] theorem modMbox_obj (s : State) (m : Nat) (f : Mbox → Mbox) (o : Nat) : (s.modMbox m f).obj o = s.obj o := rfl
@[simp] theorem modMbox_hap (s : State) (m : Nat) (f : Mbox → Mbox) (n : Nat) : (s.modMbox m f).hap n = s.hap n := rfl
@[simp] theorem modMbox_mbox (s : State) (m : Nat) (f : Mbox → Mbox) : (s.modMbox m f).mbox m = f (s.mbox m) := look_put _ _ _ _
theorem modMbox_mbox_ne (s : State) (m : Nat) (f : Mbox → Mbox) {j : Nat} (h' : j ≠ m) : (s.modMbox m f).mbox j = s.mbox j := look_put_ne _ _ _ h'
@[simp] theorem modMbox_rail (s : State) (m : Nat) (f : Mbox → Mbox) (r : Nat) : (s.modMbox m f).rail r = s.rail r := rfl
@[simp] theorem modMbox_fence (s : State) (m : Nat) (f : Mbox → Mbox) (fn n : Nat) : (s.modMbox m f).fence fn n = s.fence fn n := rfl
@[simp] theorem modMbox_up (s : State) (m : Nat) (f : Mbox → Mbox) (i' : Nat) : (s.modMbox m f).up i' = s.up i' := rfl
@[simp] theorem modMbox_stamp (s : State) (m : Nat) (f : Mbox → Mbox) (i' : Nat) : (s.modMbox m f).stamp i' = s.stamp i' := rfl
@[simp] theorem modMbox_mayWrite (s : State) (m : Nat) (f : Mbox → Mbox) (fn' grp' : Nat) : (s.modMbox m f).mayWrite fn' grp' = s.mayWrite fn' grp' := rfl

/-! ### modLan -/

@[simp] theorem modLan_dt (s : State) (f : Lantern → Lantern) : (s.modLan f).dt = s.dt := rfl
@[simp] theorem modLan_time (s : State) (f : Lantern → Lantern) : (s.modLan f).time = s.time := rfl
@[simp] theorem modLan_isl (s : State) (f : Lantern → Lantern) : (s.modLan f).isl = s.isl := rfl
@[simp] theorem modLan_img (s : State) (f : Lantern → Lantern) : (s.modLan f).img = s.img := rfl
@[simp] theorem modLan_fns (s : State) (f : Lantern → Lantern) : (s.modLan f).fns = s.fns := rfl
@[simp] theorem modLan_queues (s : State) (f : Lantern → Lantern) : (s.modLan f).queues = s.queues := rfl
@[simp] theorem modLan_flights (s : State) (f : Lantern → Lantern) : (s.modLan f).flights = s.flights := rfl
@[simp] theorem modLan_nextId (s : State) (f : Lantern → Lantern) : (s.modLan f).nextId = s.nextId := rfl
@[simp] theorem modLan_ports (s : State) (f : Lantern → Lantern) : (s.modLan f).ports = s.ports := rfl
@[simp] theorem modLan_grpDrop (s : State) (f : Lantern → Lantern) : (s.modLan f).grpDrop = s.grpDrop := rfl
@[simp] theorem modLan_hdDrop (s : State) (f : Lantern → Lantern) : (s.modLan f).hdDrop = s.hdDrop := rfl
@[simp] theorem modLan_heads (s : State) (f : Lantern → Lantern) : (s.modLan f).heads = s.heads := rfl
@[simp] theorem modLan_slots (s : State) (f : Lantern → Lantern) : (s.modLan f).slots = s.slots := rfl
@[simp] theorem modLan_safe (s : State) (f : Lantern → Lantern) : (s.modLan f).safe = s.safe := rfl
@[simp] theorem modLan_pairs (s : State) (f : Lantern → Lantern) : (s.modLan f).pairs = s.pairs := rfl
@[simp] theorem modLan_store (s : State) (f : Lantern → Lantern) : (s.modLan f).store = s.store := rfl
@[simp] theorem modLan_wl (s : State) (f : Lantern → Lantern) : (s.modLan f).wl = s.wl := rfl
@[simp] theorem modLan_chand (s : State) (f : Lantern → Lantern) : (s.modLan f).chand = s.chand := rfl
@[simp] theorem modLan_mem (s : State) (f : Lantern → Lantern) : (s.modLan f).mem = s.mem := rfl
@[simp] theorem modLan_fab (s : State) (f : Lantern → Lantern) : (s.modLan f).fab = s.fab := rfl
@[simp] theorem modLan_media (s : State) (f : Lantern → Lantern) : (s.modLan f).media = s.media := rfl
@[simp] theorem modLan_net (s : State) (f : Lantern → Lantern) : (s.modLan f).net = s.net := rfl
@[simp] theorem modLan_audio (s : State) (f : Lantern → Lantern) : (s.modLan f).audio = s.audio := rfl
@[simp] theorem modLan_sense (s : State) (f : Lantern → Lantern) : (s.modLan f).sense = s.sense := rfl
@[simp] theorem modLan_flt (s : State) (f : Lantern → Lantern) : (s.modLan f).flt = s.flt := rfl
@[simp] theorem modLan_pwr (s : State) (f : Lantern → Lantern) : (s.modLan f).pwr = s.pwr := rfl
@[simp] theorem modLan_boot (s : State) (f : Lantern → Lantern) : (s.modLan f).boot = s.boot := rfl
@[simp] theorem modLan_draws (s : State) (f : Lantern → Lantern) : (s.modLan f).draws = s.draws := rfl
@[simp] theorem modLan_out (s : State) (f : Lantern → Lantern) : (s.modLan f).out = s.out := rfl
@[simp] theorem modLan_pending (s : State) (f : Lantern → Lantern) : (s.modLan f).pending = s.pending := rfl
@[simp] theorem modLan_island (s : State) (f : Lantern → Lantern) (i : Nat) : (s.modLan f).island i = s.island i := rfl
@[simp] theorem modLan_fnc (s : State) (f : Lantern → Lantern) (i : Nat) : (s.modLan f).fnc i = s.fnc i := rfl
@[simp] theorem modLan_que (s : State) (f : Lantern → Lantern) (fn q : Nat) : (s.modLan f).que fn q = s.que fn q := rfl
@[simp] theorem modLan_port (s : State) (f : Lantern → Lantern) (p : Nat) : (s.modLan f).port p = s.port p := rfl
@[simp] theorem modLan_head (s : State) (f : Lantern → Lantern) (h : Nat) : (s.modLan f).head h = s.head h := rfl
@[simp] theorem modLan_slotOf (s : State) (f : Lantern → Lantern) (n : Nat) : (s.modLan f).slotOf n = s.slotOf n := rfl
@[simp] theorem modLan_safeOf (s : State) (f : Lantern → Lantern) (h : Nat) : (s.modLan f).safeOf h = s.safeOf h := rfl
@[simp] theorem modLan_pair (s : State) (f : Lantern → Lantern) (p : Nat) : (s.modLan f).pair p = s.pair p := rfl
@[simp] theorem modLan_ruleSt (s : State) (f : Lantern → Lantern) (r : Nat) : (s.modLan f).ruleSt r = s.ruleSt r := rfl
@[simp] theorem modLan_sigOf (s : State) (f : Lantern → Lantern) (n : Nat) : (s.modLan f).sigOf n = s.sigOf n := rfl
@[simp] theorem modLan_ctx (s : State) (f : Lantern → Lantern) (c : Nat) : (s.modLan f).ctx c = s.ctx c := rfl
@[simp] theorem modLan_taper (s : State) (f : Lantern → Lantern) (t : Nat) : (s.modLan f).taper t = s.taper t := rfl
@[simp] theorem modLan_chan (s : State) (f : Lantern → Lantern) (c : Nat) : (s.modLan f).chan c = s.chan c := rfl
@[simp] theorem modLan_part (s : State) (f : Lantern → Lantern) (p : Nat) : (s.modLan f).part p = s.part p := rfl
@[simp] theorem modLan_target (s : State) (f : Lantern → Lantern) (t : Nat) : (s.modLan f).target t = s.target t := rfl
@[simp] theorem modLan_slotTab (s : State) (f : Lantern → Lantern) (i : Nat) : (s.modLan f).slotTab i = s.slotTab i := rfl
@[simp] theorem modLan_lock (s : State) (f : Lantern → Lantern) (n : Nat) : (s.modLan f).lock n = s.lock n := rfl
@[simp] theorem modLan_csi (s : State) (f : Lantern → Lantern) (p : Nat) : (s.modLan f).csi p = s.csi p := rfl
@[simp] theorem modLan_ptp (s : State) (f : Lantern → Lantern) (d : Nat) : (s.modLan f).ptp d = s.ptp d := rfl
@[simp] theorem modLan_eport (s : State) (f : Lantern → Lantern) (p : Nat) : (s.modLan f).eport p = s.eport p := rfl
@[simp] theorem modLan_gcl (s : State) (f : Lantern → Lantern) (p : Nat) : (s.modLan f).gcl p = s.gcl p := rfl
@[simp] theorem modLan_can (s : State) (f : Lantern → Lantern) (n : Nat) : (s.modLan f).can n = s.can n := rfl
@[simp] theorem modLan_tdm (s : State) (f : Lantern → Lantern) (p : Nat) : (s.modLan f).tdm p = s.tdm p := rfl
@[simp] theorem modLan_safeLoad (s : State) (f : Lantern → Lantern) (fn : Nat) : (s.modLan f).safeLoad fn = s.safeLoad fn := rfl
@[simp] theorem modLan_panel (s : State) (f : Lantern → Lantern) (p : Nat) : (s.modLan f).panel p = s.panel p := rfl
@[simp] theorem modLan_obj (s : State) (f : Lantern → Lantern) (o : Nat) : (s.modLan f).obj o = s.obj o := rfl
@[simp] theorem modLan_hap (s : State) (f : Lantern → Lantern) (n : Nat) : (s.modLan f).hap n = s.hap n := rfl
@[simp] theorem modLan_rail (s : State) (f : Lantern → Lantern) (r : Nat) : (s.modLan f).rail r = s.rail r := rfl
@[simp] theorem modLan_fence (s : State) (f : Lantern → Lantern) (fn n : Nat) : (s.modLan f).fence fn n = s.fence fn n := rfl
@[simp] theorem modLan_up (s : State) (f : Lantern → Lantern) (i' : Nat) : (s.modLan f).up i' = s.up i' := rfl
@[simp] theorem modLan_stamp (s : State) (f : Lantern → Lantern) (i' : Nat) : (s.modLan f).stamp i' = s.stamp i' := rfl
@[simp] theorem modLan_mayWrite (s : State) (f : Lantern → Lantern) (fn' grp' : Nat) : (s.modLan f).mayWrite fn' grp' = s.mayWrite fn' grp' := rfl

/-! ### modFlt -/

@[simp] theorem modFlt_dt (s : State) (f : Faults → Faults) : (s.modFlt f).dt = s.dt := rfl
@[simp] theorem modFlt_time (s : State) (f : Faults → Faults) : (s.modFlt f).time = s.time := rfl
@[simp] theorem modFlt_isl (s : State) (f : Faults → Faults) : (s.modFlt f).isl = s.isl := rfl
@[simp] theorem modFlt_img (s : State) (f : Faults → Faults) : (s.modFlt f).img = s.img := rfl
@[simp] theorem modFlt_fns (s : State) (f : Faults → Faults) : (s.modFlt f).fns = s.fns := rfl
@[simp] theorem modFlt_queues (s : State) (f : Faults → Faults) : (s.modFlt f).queues = s.queues := rfl
@[simp] theorem modFlt_flights (s : State) (f : Faults → Faults) : (s.modFlt f).flights = s.flights := rfl
@[simp] theorem modFlt_nextId (s : State) (f : Faults → Faults) : (s.modFlt f).nextId = s.nextId := rfl
@[simp] theorem modFlt_ports (s : State) (f : Faults → Faults) : (s.modFlt f).ports = s.ports := rfl
@[simp] theorem modFlt_grpDrop (s : State) (f : Faults → Faults) : (s.modFlt f).grpDrop = s.grpDrop := rfl
@[simp] theorem modFlt_hdDrop (s : State) (f : Faults → Faults) : (s.modFlt f).hdDrop = s.hdDrop := rfl
@[simp] theorem modFlt_heads (s : State) (f : Faults → Faults) : (s.modFlt f).heads = s.heads := rfl
@[simp] theorem modFlt_slots (s : State) (f : Faults → Faults) : (s.modFlt f).slots = s.slots := rfl
@[simp] theorem modFlt_safe (s : State) (f : Faults → Faults) : (s.modFlt f).safe = s.safe := rfl
@[simp] theorem modFlt_pairs (s : State) (f : Faults → Faults) : (s.modFlt f).pairs = s.pairs := rfl
@[simp] theorem modFlt_store (s : State) (f : Faults → Faults) : (s.modFlt f).store = s.store := rfl
@[simp] theorem modFlt_wl (s : State) (f : Faults → Faults) : (s.modFlt f).wl = s.wl := rfl
@[simp] theorem modFlt_chand (s : State) (f : Faults → Faults) : (s.modFlt f).chand = s.chand := rfl
@[simp] theorem modFlt_mem (s : State) (f : Faults → Faults) : (s.modFlt f).mem = s.mem := rfl
@[simp] theorem modFlt_fab (s : State) (f : Faults → Faults) : (s.modFlt f).fab = s.fab := rfl
@[simp] theorem modFlt_media (s : State) (f : Faults → Faults) : (s.modFlt f).media = s.media := rfl
@[simp] theorem modFlt_net (s : State) (f : Faults → Faults) : (s.modFlt f).net = s.net := rfl
@[simp] theorem modFlt_audio (s : State) (f : Faults → Faults) : (s.modFlt f).audio = s.audio := rfl
@[simp] theorem modFlt_sense (s : State) (f : Faults → Faults) : (s.modFlt f).sense = s.sense := rfl
@[simp] theorem modFlt_lan (s : State) (f : Faults → Faults) : (s.modFlt f).lan = s.lan := rfl
@[simp] theorem modFlt_pwr (s : State) (f : Faults → Faults) : (s.modFlt f).pwr = s.pwr := rfl
@[simp] theorem modFlt_boot (s : State) (f : Faults → Faults) : (s.modFlt f).boot = s.boot := rfl
@[simp] theorem modFlt_draws (s : State) (f : Faults → Faults) : (s.modFlt f).draws = s.draws := rfl
@[simp] theorem modFlt_out (s : State) (f : Faults → Faults) : (s.modFlt f).out = s.out := rfl
@[simp] theorem modFlt_pending (s : State) (f : Faults → Faults) : (s.modFlt f).pending = s.pending := rfl
@[simp] theorem modFlt_island (s : State) (f : Faults → Faults) (i : Nat) : (s.modFlt f).island i = s.island i := rfl
@[simp] theorem modFlt_fnc (s : State) (f : Faults → Faults) (i : Nat) : (s.modFlt f).fnc i = s.fnc i := rfl
@[simp] theorem modFlt_que (s : State) (f : Faults → Faults) (fn q : Nat) : (s.modFlt f).que fn q = s.que fn q := rfl
@[simp] theorem modFlt_port (s : State) (f : Faults → Faults) (p : Nat) : (s.modFlt f).port p = s.port p := rfl
@[simp] theorem modFlt_head (s : State) (f : Faults → Faults) (h : Nat) : (s.modFlt f).head h = s.head h := rfl
@[simp] theorem modFlt_slotOf (s : State) (f : Faults → Faults) (n : Nat) : (s.modFlt f).slotOf n = s.slotOf n := rfl
@[simp] theorem modFlt_safeOf (s : State) (f : Faults → Faults) (h : Nat) : (s.modFlt f).safeOf h = s.safeOf h := rfl
@[simp] theorem modFlt_pair (s : State) (f : Faults → Faults) (p : Nat) : (s.modFlt f).pair p = s.pair p := rfl
@[simp] theorem modFlt_ruleSt (s : State) (f : Faults → Faults) (r : Nat) : (s.modFlt f).ruleSt r = s.ruleSt r := rfl
@[simp] theorem modFlt_sigOf (s : State) (f : Faults → Faults) (n : Nat) : (s.modFlt f).sigOf n = s.sigOf n := rfl
@[simp] theorem modFlt_ctx (s : State) (f : Faults → Faults) (c : Nat) : (s.modFlt f).ctx c = s.ctx c := rfl
@[simp] theorem modFlt_taper (s : State) (f : Faults → Faults) (t : Nat) : (s.modFlt f).taper t = s.taper t := rfl
@[simp] theorem modFlt_chan (s : State) (f : Faults → Faults) (c : Nat) : (s.modFlt f).chan c = s.chan c := rfl
@[simp] theorem modFlt_part (s : State) (f : Faults → Faults) (p : Nat) : (s.modFlt f).part p = s.part p := rfl
@[simp] theorem modFlt_target (s : State) (f : Faults → Faults) (t : Nat) : (s.modFlt f).target t = s.target t := rfl
@[simp] theorem modFlt_slotTab (s : State) (f : Faults → Faults) (i : Nat) : (s.modFlt f).slotTab i = s.slotTab i := rfl
@[simp] theorem modFlt_lock (s : State) (f : Faults → Faults) (n : Nat) : (s.modFlt f).lock n = s.lock n := rfl
@[simp] theorem modFlt_csi (s : State) (f : Faults → Faults) (p : Nat) : (s.modFlt f).csi p = s.csi p := rfl
@[simp] theorem modFlt_ptp (s : State) (f : Faults → Faults) (d : Nat) : (s.modFlt f).ptp d = s.ptp d := rfl
@[simp] theorem modFlt_eport (s : State) (f : Faults → Faults) (p : Nat) : (s.modFlt f).eport p = s.eport p := rfl
@[simp] theorem modFlt_gcl (s : State) (f : Faults → Faults) (p : Nat) : (s.modFlt f).gcl p = s.gcl p := rfl
@[simp] theorem modFlt_can (s : State) (f : Faults → Faults) (n : Nat) : (s.modFlt f).can n = s.can n := rfl
@[simp] theorem modFlt_tdm (s : State) (f : Faults → Faults) (p : Nat) : (s.modFlt f).tdm p = s.tdm p := rfl
@[simp] theorem modFlt_safeLoad (s : State) (f : Faults → Faults) (fn : Nat) : (s.modFlt f).safeLoad fn = s.safeLoad fn := rfl
@[simp] theorem modFlt_panel (s : State) (f : Faults → Faults) (p : Nat) : (s.modFlt f).panel p = s.panel p := rfl
@[simp] theorem modFlt_obj (s : State) (f : Faults → Faults) (o : Nat) : (s.modFlt f).obj o = s.obj o := rfl
@[simp] theorem modFlt_hap (s : State) (f : Faults → Faults) (n : Nat) : (s.modFlt f).hap n = s.hap n := rfl
@[simp] theorem modFlt_mbox (s : State) (f : Faults → Faults) (m : Nat) : (s.modFlt f).mbox m = s.mbox m := rfl
@[simp] theorem modFlt_rail (s : State) (f : Faults → Faults) (r : Nat) : (s.modFlt f).rail r = s.rail r := rfl
@[simp] theorem modFlt_fence (s : State) (f : Faults → Faults) (fn n : Nat) : (s.modFlt f).fence fn n = s.fence fn n := rfl
@[simp] theorem modFlt_up (s : State) (f : Faults → Faults) (i' : Nat) : (s.modFlt f).up i' = s.up i' := rfl
@[simp] theorem modFlt_stamp (s : State) (f : Faults → Faults) (i' : Nat) : (s.modFlt f).stamp i' = s.stamp i' := rfl
@[simp] theorem modFlt_mayWrite (s : State) (f : Faults → Faults) (fn' grp' : Nat) : (s.modFlt f).mayWrite fn' grp' = s.mayWrite fn' grp' := rfl

/-! ### modPwr -/

@[simp] theorem modPwr_dt (s : State) (f : Power → Power) : (s.modPwr f).dt = s.dt := rfl
@[simp] theorem modPwr_time (s : State) (f : Power → Power) : (s.modPwr f).time = s.time := rfl
@[simp] theorem modPwr_isl (s : State) (f : Power → Power) : (s.modPwr f).isl = s.isl := rfl
@[simp] theorem modPwr_img (s : State) (f : Power → Power) : (s.modPwr f).img = s.img := rfl
@[simp] theorem modPwr_fns (s : State) (f : Power → Power) : (s.modPwr f).fns = s.fns := rfl
@[simp] theorem modPwr_queues (s : State) (f : Power → Power) : (s.modPwr f).queues = s.queues := rfl
@[simp] theorem modPwr_flights (s : State) (f : Power → Power) : (s.modPwr f).flights = s.flights := rfl
@[simp] theorem modPwr_nextId (s : State) (f : Power → Power) : (s.modPwr f).nextId = s.nextId := rfl
@[simp] theorem modPwr_ports (s : State) (f : Power → Power) : (s.modPwr f).ports = s.ports := rfl
@[simp] theorem modPwr_grpDrop (s : State) (f : Power → Power) : (s.modPwr f).grpDrop = s.grpDrop := rfl
@[simp] theorem modPwr_hdDrop (s : State) (f : Power → Power) : (s.modPwr f).hdDrop = s.hdDrop := rfl
@[simp] theorem modPwr_heads (s : State) (f : Power → Power) : (s.modPwr f).heads = s.heads := rfl
@[simp] theorem modPwr_slots (s : State) (f : Power → Power) : (s.modPwr f).slots = s.slots := rfl
@[simp] theorem modPwr_safe (s : State) (f : Power → Power) : (s.modPwr f).safe = s.safe := rfl
@[simp] theorem modPwr_pairs (s : State) (f : Power → Power) : (s.modPwr f).pairs = s.pairs := rfl
@[simp] theorem modPwr_store (s : State) (f : Power → Power) : (s.modPwr f).store = s.store := rfl
@[simp] theorem modPwr_wl (s : State) (f : Power → Power) : (s.modPwr f).wl = s.wl := rfl
@[simp] theorem modPwr_chand (s : State) (f : Power → Power) : (s.modPwr f).chand = s.chand := rfl
@[simp] theorem modPwr_mem (s : State) (f : Power → Power) : (s.modPwr f).mem = s.mem := rfl
@[simp] theorem modPwr_fab (s : State) (f : Power → Power) : (s.modPwr f).fab = s.fab := rfl
@[simp] theorem modPwr_media (s : State) (f : Power → Power) : (s.modPwr f).media = s.media := rfl
@[simp] theorem modPwr_net (s : State) (f : Power → Power) : (s.modPwr f).net = s.net := rfl
@[simp] theorem modPwr_audio (s : State) (f : Power → Power) : (s.modPwr f).audio = s.audio := rfl
@[simp] theorem modPwr_sense (s : State) (f : Power → Power) : (s.modPwr f).sense = s.sense := rfl
@[simp] theorem modPwr_lan (s : State) (f : Power → Power) : (s.modPwr f).lan = s.lan := rfl
@[simp] theorem modPwr_flt (s : State) (f : Power → Power) : (s.modPwr f).flt = s.flt := rfl
@[simp] theorem modPwr_boot (s : State) (f : Power → Power) : (s.modPwr f).boot = s.boot := rfl
@[simp] theorem modPwr_draws (s : State) (f : Power → Power) : (s.modPwr f).draws = s.draws := rfl
@[simp] theorem modPwr_out (s : State) (f : Power → Power) : (s.modPwr f).out = s.out := rfl
@[simp] theorem modPwr_pending (s : State) (f : Power → Power) : (s.modPwr f).pending = s.pending := rfl
@[simp] theorem modPwr_island (s : State) (f : Power → Power) (i : Nat) : (s.modPwr f).island i = s.island i := rfl
@[simp] theorem modPwr_fnc (s : State) (f : Power → Power) (i : Nat) : (s.modPwr f).fnc i = s.fnc i := rfl
@[simp] theorem modPwr_que (s : State) (f : Power → Power) (fn q : Nat) : (s.modPwr f).que fn q = s.que fn q := rfl
@[simp] theorem modPwr_port (s : State) (f : Power → Power) (p : Nat) : (s.modPwr f).port p = s.port p := rfl
@[simp] theorem modPwr_head (s : State) (f : Power → Power) (h : Nat) : (s.modPwr f).head h = s.head h := rfl
@[simp] theorem modPwr_slotOf (s : State) (f : Power → Power) (n : Nat) : (s.modPwr f).slotOf n = s.slotOf n := rfl
@[simp] theorem modPwr_safeOf (s : State) (f : Power → Power) (h : Nat) : (s.modPwr f).safeOf h = s.safeOf h := rfl
@[simp] theorem modPwr_pair (s : State) (f : Power → Power) (p : Nat) : (s.modPwr f).pair p = s.pair p := rfl
@[simp] theorem modPwr_ruleSt (s : State) (f : Power → Power) (r : Nat) : (s.modPwr f).ruleSt r = s.ruleSt r := rfl
@[simp] theorem modPwr_sigOf (s : State) (f : Power → Power) (n : Nat) : (s.modPwr f).sigOf n = s.sigOf n := rfl
@[simp] theorem modPwr_ctx (s : State) (f : Power → Power) (c : Nat) : (s.modPwr f).ctx c = s.ctx c := rfl
@[simp] theorem modPwr_taper (s : State) (f : Power → Power) (t : Nat) : (s.modPwr f).taper t = s.taper t := rfl
@[simp] theorem modPwr_chan (s : State) (f : Power → Power) (c : Nat) : (s.modPwr f).chan c = s.chan c := rfl
@[simp] theorem modPwr_part (s : State) (f : Power → Power) (p : Nat) : (s.modPwr f).part p = s.part p := rfl
@[simp] theorem modPwr_target (s : State) (f : Power → Power) (t : Nat) : (s.modPwr f).target t = s.target t := rfl
@[simp] theorem modPwr_slotTab (s : State) (f : Power → Power) (i : Nat) : (s.modPwr f).slotTab i = s.slotTab i := rfl
@[simp] theorem modPwr_lock (s : State) (f : Power → Power) (n : Nat) : (s.modPwr f).lock n = s.lock n := rfl
@[simp] theorem modPwr_csi (s : State) (f : Power → Power) (p : Nat) : (s.modPwr f).csi p = s.csi p := rfl
@[simp] theorem modPwr_ptp (s : State) (f : Power → Power) (d : Nat) : (s.modPwr f).ptp d = s.ptp d := rfl
@[simp] theorem modPwr_eport (s : State) (f : Power → Power) (p : Nat) : (s.modPwr f).eport p = s.eport p := rfl
@[simp] theorem modPwr_gcl (s : State) (f : Power → Power) (p : Nat) : (s.modPwr f).gcl p = s.gcl p := rfl
@[simp] theorem modPwr_can (s : State) (f : Power → Power) (n : Nat) : (s.modPwr f).can n = s.can n := rfl
@[simp] theorem modPwr_tdm (s : State) (f : Power → Power) (p : Nat) : (s.modPwr f).tdm p = s.tdm p := rfl
@[simp] theorem modPwr_safeLoad (s : State) (f : Power → Power) (fn : Nat) : (s.modPwr f).safeLoad fn = s.safeLoad fn := rfl
@[simp] theorem modPwr_panel (s : State) (f : Power → Power) (p : Nat) : (s.modPwr f).panel p = s.panel p := rfl
@[simp] theorem modPwr_obj (s : State) (f : Power → Power) (o : Nat) : (s.modPwr f).obj o = s.obj o := rfl
@[simp] theorem modPwr_hap (s : State) (f : Power → Power) (n : Nat) : (s.modPwr f).hap n = s.hap n := rfl
@[simp] theorem modPwr_mbox (s : State) (f : Power → Power) (m : Nat) : (s.modPwr f).mbox m = s.mbox m := rfl
@[simp] theorem modPwr_fence (s : State) (f : Power → Power) (fn n : Nat) : (s.modPwr f).fence fn n = s.fence fn n := rfl
@[simp] theorem modPwr_up (s : State) (f : Power → Power) (i' : Nat) : (s.modPwr f).up i' = s.up i' := rfl
@[simp] theorem modPwr_stamp (s : State) (f : Power → Power) (i' : Nat) : (s.modPwr f).stamp i' = s.stamp i' := rfl
@[simp] theorem modPwr_mayWrite (s : State) (f : Power → Power) (fn' grp' : Nat) : (s.modPwr f).mayWrite fn' grp' = s.mayWrite fn' grp' := rfl

/-! ### modRail -/

@[simp] theorem modRail_dt (s : State) (r : Nat) (f : Rail → Rail) : (s.modRail r f).dt = s.dt := rfl
@[simp] theorem modRail_time (s : State) (r : Nat) (f : Rail → Rail) : (s.modRail r f).time = s.time := rfl
@[simp] theorem modRail_isl (s : State) (r : Nat) (f : Rail → Rail) : (s.modRail r f).isl = s.isl := rfl
@[simp] theorem modRail_img (s : State) (r : Nat) (f : Rail → Rail) : (s.modRail r f).img = s.img := rfl
@[simp] theorem modRail_fns (s : State) (r : Nat) (f : Rail → Rail) : (s.modRail r f).fns = s.fns := rfl
@[simp] theorem modRail_queues (s : State) (r : Nat) (f : Rail → Rail) : (s.modRail r f).queues = s.queues := rfl
@[simp] theorem modRail_flights (s : State) (r : Nat) (f : Rail → Rail) : (s.modRail r f).flights = s.flights := rfl
@[simp] theorem modRail_nextId (s : State) (r : Nat) (f : Rail → Rail) : (s.modRail r f).nextId = s.nextId := rfl
@[simp] theorem modRail_ports (s : State) (r : Nat) (f : Rail → Rail) : (s.modRail r f).ports = s.ports := rfl
@[simp] theorem modRail_grpDrop (s : State) (r : Nat) (f : Rail → Rail) : (s.modRail r f).grpDrop = s.grpDrop := rfl
@[simp] theorem modRail_hdDrop (s : State) (r : Nat) (f : Rail → Rail) : (s.modRail r f).hdDrop = s.hdDrop := rfl
@[simp] theorem modRail_heads (s : State) (r : Nat) (f : Rail → Rail) : (s.modRail r f).heads = s.heads := rfl
@[simp] theorem modRail_slots (s : State) (r : Nat) (f : Rail → Rail) : (s.modRail r f).slots = s.slots := rfl
@[simp] theorem modRail_safe (s : State) (r : Nat) (f : Rail → Rail) : (s.modRail r f).safe = s.safe := rfl
@[simp] theorem modRail_pairs (s : State) (r : Nat) (f : Rail → Rail) : (s.modRail r f).pairs = s.pairs := rfl
@[simp] theorem modRail_store (s : State) (r : Nat) (f : Rail → Rail) : (s.modRail r f).store = s.store := rfl
@[simp] theorem modRail_wl (s : State) (r : Nat) (f : Rail → Rail) : (s.modRail r f).wl = s.wl := rfl
@[simp] theorem modRail_chand (s : State) (r : Nat) (f : Rail → Rail) : (s.modRail r f).chand = s.chand := rfl
@[simp] theorem modRail_mem (s : State) (r : Nat) (f : Rail → Rail) : (s.modRail r f).mem = s.mem := rfl
@[simp] theorem modRail_fab (s : State) (r : Nat) (f : Rail → Rail) : (s.modRail r f).fab = s.fab := rfl
@[simp] theorem modRail_media (s : State) (r : Nat) (f : Rail → Rail) : (s.modRail r f).media = s.media := rfl
@[simp] theorem modRail_net (s : State) (r : Nat) (f : Rail → Rail) : (s.modRail r f).net = s.net := rfl
@[simp] theorem modRail_audio (s : State) (r : Nat) (f : Rail → Rail) : (s.modRail r f).audio = s.audio := rfl
@[simp] theorem modRail_sense (s : State) (r : Nat) (f : Rail → Rail) : (s.modRail r f).sense = s.sense := rfl
@[simp] theorem modRail_lan (s : State) (r : Nat) (f : Rail → Rail) : (s.modRail r f).lan = s.lan := rfl
@[simp] theorem modRail_flt (s : State) (r : Nat) (f : Rail → Rail) : (s.modRail r f).flt = s.flt := rfl
@[simp] theorem modRail_boot (s : State) (r : Nat) (f : Rail → Rail) : (s.modRail r f).boot = s.boot := rfl
@[simp] theorem modRail_draws (s : State) (r : Nat) (f : Rail → Rail) : (s.modRail r f).draws = s.draws := rfl
@[simp] theorem modRail_out (s : State) (r : Nat) (f : Rail → Rail) : (s.modRail r f).out = s.out := rfl
@[simp] theorem modRail_pending (s : State) (r : Nat) (f : Rail → Rail) : (s.modRail r f).pending = s.pending := rfl
@[simp] theorem modRail_pwr_device (s : State) (r : Nat) (f : Rail → Rail) : (s.modRail r f).pwr.device = s.pwr.device := rfl
@[simp] theorem modRail_pwr_rstRes (s : State) (r : Nat) (f : Rail → Rail) : (s.modRail r f).pwr.rstRes = s.pwr.rstRes := rfl
@[simp] theorem modRail_pwr_pwrRes (s : State) (r : Nat) (f : Rail → Rail) : (s.modRail r f).pwr.pwrRes = s.pwr.pwrRes := rfl
@[simp] theorem modRail_island (s : State) (r : Nat) (f : Rail → Rail) (i : Nat) : (s.modRail r f).island i = s.island i := rfl
@[simp] theorem modRail_fnc (s : State) (r : Nat) (f : Rail → Rail) (i : Nat) : (s.modRail r f).fnc i = s.fnc i := rfl
@[simp] theorem modRail_que (s : State) (r : Nat) (f : Rail → Rail) (fn q : Nat) : (s.modRail r f).que fn q = s.que fn q := rfl
@[simp] theorem modRail_port (s : State) (r : Nat) (f : Rail → Rail) (p : Nat) : (s.modRail r f).port p = s.port p := rfl
@[simp] theorem modRail_head (s : State) (r : Nat) (f : Rail → Rail) (h : Nat) : (s.modRail r f).head h = s.head h := rfl
@[simp] theorem modRail_slotOf (s : State) (r : Nat) (f : Rail → Rail) (n : Nat) : (s.modRail r f).slotOf n = s.slotOf n := rfl
@[simp] theorem modRail_safeOf (s : State) (r : Nat) (f : Rail → Rail) (h : Nat) : (s.modRail r f).safeOf h = s.safeOf h := rfl
@[simp] theorem modRail_pair (s : State) (r : Nat) (f : Rail → Rail) (p : Nat) : (s.modRail r f).pair p = s.pair p := rfl
@[simp] theorem modRail_ruleSt (s : State) (r : Nat) (f : Rail → Rail) (r' : Nat) : (s.modRail r f).ruleSt r' = s.ruleSt r' := rfl
@[simp] theorem modRail_sigOf (s : State) (r : Nat) (f : Rail → Rail) (n : Nat) : (s.modRail r f).sigOf n = s.sigOf n := rfl
@[simp] theorem modRail_ctx (s : State) (r : Nat) (f : Rail → Rail) (c : Nat) : (s.modRail r f).ctx c = s.ctx c := rfl
@[simp] theorem modRail_taper (s : State) (r : Nat) (f : Rail → Rail) (t : Nat) : (s.modRail r f).taper t = s.taper t := rfl
@[simp] theorem modRail_chan (s : State) (r : Nat) (f : Rail → Rail) (c : Nat) : (s.modRail r f).chan c = s.chan c := rfl
@[simp] theorem modRail_part (s : State) (r : Nat) (f : Rail → Rail) (p : Nat) : (s.modRail r f).part p = s.part p := rfl
@[simp] theorem modRail_target (s : State) (r : Nat) (f : Rail → Rail) (t : Nat) : (s.modRail r f).target t = s.target t := rfl
@[simp] theorem modRail_slotTab (s : State) (r : Nat) (f : Rail → Rail) (i : Nat) : (s.modRail r f).slotTab i = s.slotTab i := rfl
@[simp] theorem modRail_lock (s : State) (r : Nat) (f : Rail → Rail) (n : Nat) : (s.modRail r f).lock n = s.lock n := rfl
@[simp] theorem modRail_csi (s : State) (r : Nat) (f : Rail → Rail) (p : Nat) : (s.modRail r f).csi p = s.csi p := rfl
@[simp] theorem modRail_ptp (s : State) (r : Nat) (f : Rail → Rail) (d : Nat) : (s.modRail r f).ptp d = s.ptp d := rfl
@[simp] theorem modRail_eport (s : State) (r : Nat) (f : Rail → Rail) (p : Nat) : (s.modRail r f).eport p = s.eport p := rfl
@[simp] theorem modRail_gcl (s : State) (r : Nat) (f : Rail → Rail) (p : Nat) : (s.modRail r f).gcl p = s.gcl p := rfl
@[simp] theorem modRail_can (s : State) (r : Nat) (f : Rail → Rail) (n : Nat) : (s.modRail r f).can n = s.can n := rfl
@[simp] theorem modRail_tdm (s : State) (r : Nat) (f : Rail → Rail) (p : Nat) : (s.modRail r f).tdm p = s.tdm p := rfl
@[simp] theorem modRail_safeLoad (s : State) (r : Nat) (f : Rail → Rail) (fn : Nat) : (s.modRail r f).safeLoad fn = s.safeLoad fn := rfl
@[simp] theorem modRail_panel (s : State) (r : Nat) (f : Rail → Rail) (p : Nat) : (s.modRail r f).panel p = s.panel p := rfl
@[simp] theorem modRail_obj (s : State) (r : Nat) (f : Rail → Rail) (o : Nat) : (s.modRail r f).obj o = s.obj o := rfl
@[simp] theorem modRail_hap (s : State) (r : Nat) (f : Rail → Rail) (n : Nat) : (s.modRail r f).hap n = s.hap n := rfl
@[simp] theorem modRail_mbox (s : State) (r : Nat) (f : Rail → Rail) (m : Nat) : (s.modRail r f).mbox m = s.mbox m := rfl
@[simp] theorem modRail_rail (s : State) (r : Nat) (f : Rail → Rail) : (s.modRail r f).rail r = f (s.rail r) := look_put _ _ _ _
theorem modRail_rail_ne (s : State) (r : Nat) (f : Rail → Rail) {j : Nat} (h' : j ≠ r) : (s.modRail r f).rail j = s.rail j := look_put_ne _ _ _ h'
@[simp] theorem modRail_fence (s : State) (r : Nat) (f : Rail → Rail) (fn n : Nat) : (s.modRail r f).fence fn n = s.fence fn n := rfl
@[simp] theorem modRail_up (s : State) (r : Nat) (f : Rail → Rail) (i' : Nat) : (s.modRail r f).up i' = s.up i' := rfl
@[simp] theorem modRail_stamp (s : State) (r : Nat) (f : Rail → Rail) (i' : Nat) : (s.modRail r f).stamp i' = s.stamp i' := rfl
@[simp] theorem modRail_mayWrite (s : State) (r : Nat) (f : Rail → Rail) (fn' grp' : Nat) : (s.modRail r f).mayWrite fn' grp' = s.mayWrite fn' grp' := rfl

/-! ### modBoot -/

@[simp] theorem modBoot_dt (s : State) (f : Boot → Boot) : (s.modBoot f).dt = s.dt := rfl
@[simp] theorem modBoot_time (s : State) (f : Boot → Boot) : (s.modBoot f).time = s.time := rfl
@[simp] theorem modBoot_isl (s : State) (f : Boot → Boot) : (s.modBoot f).isl = s.isl := rfl
@[simp] theorem modBoot_img (s : State) (f : Boot → Boot) : (s.modBoot f).img = s.img := rfl
@[simp] theorem modBoot_fns (s : State) (f : Boot → Boot) : (s.modBoot f).fns = s.fns := rfl
@[simp] theorem modBoot_queues (s : State) (f : Boot → Boot) : (s.modBoot f).queues = s.queues := rfl
@[simp] theorem modBoot_flights (s : State) (f : Boot → Boot) : (s.modBoot f).flights = s.flights := rfl
@[simp] theorem modBoot_nextId (s : State) (f : Boot → Boot) : (s.modBoot f).nextId = s.nextId := rfl
@[simp] theorem modBoot_ports (s : State) (f : Boot → Boot) : (s.modBoot f).ports = s.ports := rfl
@[simp] theorem modBoot_grpDrop (s : State) (f : Boot → Boot) : (s.modBoot f).grpDrop = s.grpDrop := rfl
@[simp] theorem modBoot_hdDrop (s : State) (f : Boot → Boot) : (s.modBoot f).hdDrop = s.hdDrop := rfl
@[simp] theorem modBoot_heads (s : State) (f : Boot → Boot) : (s.modBoot f).heads = s.heads := rfl
@[simp] theorem modBoot_slots (s : State) (f : Boot → Boot) : (s.modBoot f).slots = s.slots := rfl
@[simp] theorem modBoot_safe (s : State) (f : Boot → Boot) : (s.modBoot f).safe = s.safe := rfl
@[simp] theorem modBoot_pairs (s : State) (f : Boot → Boot) : (s.modBoot f).pairs = s.pairs := rfl
@[simp] theorem modBoot_store (s : State) (f : Boot → Boot) : (s.modBoot f).store = s.store := rfl
@[simp] theorem modBoot_wl (s : State) (f : Boot → Boot) : (s.modBoot f).wl = s.wl := rfl
@[simp] theorem modBoot_chand (s : State) (f : Boot → Boot) : (s.modBoot f).chand = s.chand := rfl
@[simp] theorem modBoot_mem (s : State) (f : Boot → Boot) : (s.modBoot f).mem = s.mem := rfl
@[simp] theorem modBoot_fab (s : State) (f : Boot → Boot) : (s.modBoot f).fab = s.fab := rfl
@[simp] theorem modBoot_media (s : State) (f : Boot → Boot) : (s.modBoot f).media = s.media := rfl
@[simp] theorem modBoot_net (s : State) (f : Boot → Boot) : (s.modBoot f).net = s.net := rfl
@[simp] theorem modBoot_audio (s : State) (f : Boot → Boot) : (s.modBoot f).audio = s.audio := rfl
@[simp] theorem modBoot_sense (s : State) (f : Boot → Boot) : (s.modBoot f).sense = s.sense := rfl
@[simp] theorem modBoot_lan (s : State) (f : Boot → Boot) : (s.modBoot f).lan = s.lan := rfl
@[simp] theorem modBoot_flt (s : State) (f : Boot → Boot) : (s.modBoot f).flt = s.flt := rfl
@[simp] theorem modBoot_pwr (s : State) (f : Boot → Boot) : (s.modBoot f).pwr = s.pwr := rfl
@[simp] theorem modBoot_draws (s : State) (f : Boot → Boot) : (s.modBoot f).draws = s.draws := rfl
@[simp] theorem modBoot_out (s : State) (f : Boot → Boot) : (s.modBoot f).out = s.out := rfl
@[simp] theorem modBoot_pending (s : State) (f : Boot → Boot) : (s.modBoot f).pending = s.pending := rfl
@[simp] theorem modBoot_island (s : State) (f : Boot → Boot) (i : Nat) : (s.modBoot f).island i = s.island i := rfl
@[simp] theorem modBoot_fnc (s : State) (f : Boot → Boot) (i : Nat) : (s.modBoot f).fnc i = s.fnc i := rfl
@[simp] theorem modBoot_que (s : State) (f : Boot → Boot) (fn q : Nat) : (s.modBoot f).que fn q = s.que fn q := rfl
@[simp] theorem modBoot_port (s : State) (f : Boot → Boot) (p : Nat) : (s.modBoot f).port p = s.port p := rfl
@[simp] theorem modBoot_head (s : State) (f : Boot → Boot) (h : Nat) : (s.modBoot f).head h = s.head h := rfl
@[simp] theorem modBoot_slotOf (s : State) (f : Boot → Boot) (n : Nat) : (s.modBoot f).slotOf n = s.slotOf n := rfl
@[simp] theorem modBoot_safeOf (s : State) (f : Boot → Boot) (h : Nat) : (s.modBoot f).safeOf h = s.safeOf h := rfl
@[simp] theorem modBoot_pair (s : State) (f : Boot → Boot) (p : Nat) : (s.modBoot f).pair p = s.pair p := rfl
@[simp] theorem modBoot_ruleSt (s : State) (f : Boot → Boot) (r : Nat) : (s.modBoot f).ruleSt r = s.ruleSt r := rfl
@[simp] theorem modBoot_sigOf (s : State) (f : Boot → Boot) (n : Nat) : (s.modBoot f).sigOf n = s.sigOf n := rfl
@[simp] theorem modBoot_ctx (s : State) (f : Boot → Boot) (c : Nat) : (s.modBoot f).ctx c = s.ctx c := rfl
@[simp] theorem modBoot_taper (s : State) (f : Boot → Boot) (t : Nat) : (s.modBoot f).taper t = s.taper t := rfl
@[simp] theorem modBoot_chan (s : State) (f : Boot → Boot) (c : Nat) : (s.modBoot f).chan c = s.chan c := rfl
@[simp] theorem modBoot_part (s : State) (f : Boot → Boot) (p : Nat) : (s.modBoot f).part p = s.part p := rfl
@[simp] theorem modBoot_target (s : State) (f : Boot → Boot) (t : Nat) : (s.modBoot f).target t = s.target t := rfl
@[simp] theorem modBoot_slotTab (s : State) (f : Boot → Boot) (i : Nat) : (s.modBoot f).slotTab i = s.slotTab i := rfl
@[simp] theorem modBoot_lock (s : State) (f : Boot → Boot) (n : Nat) : (s.modBoot f).lock n = s.lock n := rfl
@[simp] theorem modBoot_csi (s : State) (f : Boot → Boot) (p : Nat) : (s.modBoot f).csi p = s.csi p := rfl
@[simp] theorem modBoot_ptp (s : State) (f : Boot → Boot) (d : Nat) : (s.modBoot f).ptp d = s.ptp d := rfl
@[simp] theorem modBoot_eport (s : State) (f : Boot → Boot) (p : Nat) : (s.modBoot f).eport p = s.eport p := rfl
@[simp] theorem modBoot_gcl (s : State) (f : Boot → Boot) (p : Nat) : (s.modBoot f).gcl p = s.gcl p := rfl
@[simp] theorem modBoot_can (s : State) (f : Boot → Boot) (n : Nat) : (s.modBoot f).can n = s.can n := rfl
@[simp] theorem modBoot_tdm (s : State) (f : Boot → Boot) (p : Nat) : (s.modBoot f).tdm p = s.tdm p := rfl
@[simp] theorem modBoot_safeLoad (s : State) (f : Boot → Boot) (fn : Nat) : (s.modBoot f).safeLoad fn = s.safeLoad fn := rfl
@[simp] theorem modBoot_panel (s : State) (f : Boot → Boot) (p : Nat) : (s.modBoot f).panel p = s.panel p := rfl
@[simp] theorem modBoot_obj (s : State) (f : Boot → Boot) (o : Nat) : (s.modBoot f).obj o = s.obj o := rfl
@[simp] theorem modBoot_hap (s : State) (f : Boot → Boot) (n : Nat) : (s.modBoot f).hap n = s.hap n := rfl
@[simp] theorem modBoot_mbox (s : State) (f : Boot → Boot) (m : Nat) : (s.modBoot f).mbox m = s.mbox m := rfl
@[simp] theorem modBoot_rail (s : State) (f : Boot → Boot) (r : Nat) : (s.modBoot f).rail r = s.rail r := rfl
@[simp] theorem modBoot_fence (s : State) (f : Boot → Boot) (fn n : Nat) : (s.modBoot f).fence fn n = s.fence fn n := rfl
@[simp] theorem modBoot_up (s : State) (f : Boot → Boot) (i' : Nat) : (s.modBoot f).up i' = s.up i' := rfl
@[simp] theorem modBoot_stamp (s : State) (f : Boot → Boot) (i' : Nat) : (s.modBoot f).stamp i' = s.stamp i' := rfl
@[simp] theorem modBoot_mayWrite (s : State) (f : Boot → Boot) (fn' grp' : Nat) : (s.modBoot f).mayWrite fn' grp' = s.mayWrite fn' grp' := rfl

/-! ### at -/

@[simp] theorem at_time (s : State) (t : Time) : (s.at t).time = s.time := rfl
@[simp] theorem at_isl (s : State) (t : Time) : (s.at t).isl = s.isl := rfl
@[simp] theorem at_img (s : State) (t : Time) : (s.at t).img = s.img := rfl
@[simp] theorem at_fns (s : State) (t : Time) : (s.at t).fns = s.fns := rfl
@[simp] theorem at_queues (s : State) (t : Time) : (s.at t).queues = s.queues := rfl
@[simp] theorem at_flights (s : State) (t : Time) : (s.at t).flights = s.flights := rfl
@[simp] theorem at_nextId (s : State) (t : Time) : (s.at t).nextId = s.nextId := rfl
@[simp] theorem at_ports (s : State) (t : Time) : (s.at t).ports = s.ports := rfl
@[simp] theorem at_grpDrop (s : State) (t : Time) : (s.at t).grpDrop = s.grpDrop := rfl
@[simp] theorem at_hdDrop (s : State) (t : Time) : (s.at t).hdDrop = s.hdDrop := rfl
@[simp] theorem at_heads (s : State) (t : Time) : (s.at t).heads = s.heads := rfl
@[simp] theorem at_slots (s : State) (t : Time) : (s.at t).slots = s.slots := rfl
@[simp] theorem at_safe (s : State) (t : Time) : (s.at t).safe = s.safe := rfl
@[simp] theorem at_pairs (s : State) (t : Time) : (s.at t).pairs = s.pairs := rfl
@[simp] theorem at_store (s : State) (t : Time) : (s.at t).store = s.store := rfl
@[simp] theorem at_wl (s : State) (t : Time) : (s.at t).wl = s.wl := rfl
@[simp] theorem at_chand (s : State) (t : Time) : (s.at t).chand = s.chand := rfl
@[simp] theorem at_mem (s : State) (t : Time) : (s.at t).mem = s.mem := rfl
@[simp] theorem at_fab (s : State) (t : Time) : (s.at t).fab = s.fab := rfl
@[simp] theorem at_media (s : State) (t : Time) : (s.at t).media = s.media := rfl
@[simp] theorem at_net (s : State) (t : Time) : (s.at t).net = s.net := rfl
@[simp] theorem at_audio (s : State) (t : Time) : (s.at t).audio = s.audio := rfl
@[simp] theorem at_sense (s : State) (t : Time) : (s.at t).sense = s.sense := rfl
@[simp] theorem at_lan (s : State) (t : Time) : (s.at t).lan = s.lan := rfl
@[simp] theorem at_flt (s : State) (t : Time) : (s.at t).flt = s.flt := rfl
@[simp] theorem at_pwr (s : State) (t : Time) : (s.at t).pwr = s.pwr := rfl
@[simp] theorem at_boot (s : State) (t : Time) : (s.at t).boot = s.boot := rfl
@[simp] theorem at_draws (s : State) (t : Time) : (s.at t).draws = s.draws := rfl
@[simp] theorem at_out (s : State) (t : Time) : (s.at t).out = s.out := rfl
@[simp] theorem at_pending (s : State) (t : Time) : (s.at t).pending = s.pending := rfl
@[simp] theorem at_island (s : State) (t : Time) (i : Nat) : (s.at t).island i = s.island i := rfl
@[simp] theorem at_fnc (s : State) (t : Time) (i : Nat) : (s.at t).fnc i = s.fnc i := rfl
@[simp] theorem at_que (s : State) (t : Time) (fn q : Nat) : (s.at t).que fn q = s.que fn q := rfl
@[simp] theorem at_port (s : State) (t : Time) (p : Nat) : (s.at t).port p = s.port p := rfl
@[simp] theorem at_head (s : State) (t : Time) (h : Nat) : (s.at t).head h = s.head h := rfl
@[simp] theorem at_slotOf (s : State) (t : Time) (n : Nat) : (s.at t).slotOf n = s.slotOf n := rfl
@[simp] theorem at_safeOf (s : State) (t : Time) (h : Nat) : (s.at t).safeOf h = s.safeOf h := rfl
@[simp] theorem at_pair (s : State) (t : Time) (p : Nat) : (s.at t).pair p = s.pair p := rfl
@[simp] theorem at_ruleSt (s : State) (t : Time) (r : Nat) : (s.at t).ruleSt r = s.ruleSt r := rfl
@[simp] theorem at_sigOf (s : State) (t : Time) (n : Nat) : (s.at t).sigOf n = s.sigOf n := rfl
@[simp] theorem at_ctx (s : State) (t : Time) (c : Nat) : (s.at t).ctx c = s.ctx c := rfl
@[simp] theorem at_taper (s : State) (t : Time) (t' : Nat) : (s.at t).taper t' = s.taper t' := rfl
@[simp] theorem at_chan (s : State) (t : Time) (c : Nat) : (s.at t).chan c = s.chan c := rfl
@[simp] theorem at_part (s : State) (t : Time) (p : Nat) : (s.at t).part p = s.part p := rfl
@[simp] theorem at_target (s : State) (t : Time) (t' : Nat) : (s.at t).target t' = s.target t' := rfl
@[simp] theorem at_slotTab (s : State) (t : Time) (i : Nat) : (s.at t).slotTab i = s.slotTab i := rfl
@[simp] theorem at_lock (s : State) (t : Time) (n : Nat) : (s.at t).lock n = s.lock n := rfl
@[simp] theorem at_csi (s : State) (t : Time) (p : Nat) : (s.at t).csi p = s.csi p := rfl
@[simp] theorem at_ptp (s : State) (t : Time) (d : Nat) : (s.at t).ptp d = s.ptp d := rfl
@[simp] theorem at_eport (s : State) (t : Time) (p : Nat) : (s.at t).eport p = s.eport p := rfl
@[simp] theorem at_gcl (s : State) (t : Time) (p : Nat) : (s.at t).gcl p = s.gcl p := rfl
@[simp] theorem at_can (s : State) (t : Time) (n : Nat) : (s.at t).can n = s.can n := rfl
@[simp] theorem at_tdm (s : State) (t : Time) (p : Nat) : (s.at t).tdm p = s.tdm p := rfl
@[simp] theorem at_safeLoad (s : State) (t : Time) (fn : Nat) : (s.at t).safeLoad fn = s.safeLoad fn := rfl
@[simp] theorem at_panel (s : State) (t : Time) (p : Nat) : (s.at t).panel p = s.panel p := rfl
@[simp] theorem at_obj (s : State) (t : Time) (o : Nat) : (s.at t).obj o = s.obj o := rfl
@[simp] theorem at_hap (s : State) (t : Time) (n : Nat) : (s.at t).hap n = s.hap n := rfl
@[simp] theorem at_mbox (s : State) (t : Time) (m : Nat) : (s.at t).mbox m = s.mbox m := rfl
@[simp] theorem at_rail (s : State) (t : Time) (r : Nat) : (s.at t).rail r = s.rail r := rfl
@[simp] theorem at_fence (s : State) (t : Time) (fn n : Nat) : (s.at t).fence fn n = s.fence fn n := rfl
@[simp] theorem at_up (s : State) (t : Time) (i' : Nat) : (s.at t).up i' = s.up i' := rfl
@[simp] theorem at_mayWrite (s : State) (t : Time) (fn' grp' : Nat) : (s.at t).mayWrite fn' grp' = s.mayWrite fn' grp' := rfl

/-! ### emit -/

@[simp] theorem emit_dt (s : State) (o : Output) : (s.emit o).dt = s.dt := rfl
@[simp] theorem emit_time (s : State) (o : Output) : (s.emit o).time = s.time := rfl
@[simp] theorem emit_isl (s : State) (o : Output) : (s.emit o).isl = s.isl := rfl
@[simp] theorem emit_img (s : State) (o : Output) : (s.emit o).img = s.img := rfl
@[simp] theorem emit_fns (s : State) (o : Output) : (s.emit o).fns = s.fns := rfl
@[simp] theorem emit_queues (s : State) (o : Output) : (s.emit o).queues = s.queues := rfl
@[simp] theorem emit_flights (s : State) (o : Output) : (s.emit o).flights = s.flights := rfl
@[simp] theorem emit_nextId (s : State) (o : Output) : (s.emit o).nextId = s.nextId := rfl
@[simp] theorem emit_ports (s : State) (o : Output) : (s.emit o).ports = s.ports := rfl
@[simp] theorem emit_grpDrop (s : State) (o : Output) : (s.emit o).grpDrop = s.grpDrop := rfl
@[simp] theorem emit_hdDrop (s : State) (o : Output) : (s.emit o).hdDrop = s.hdDrop := rfl
@[simp] theorem emit_heads (s : State) (o : Output) : (s.emit o).heads = s.heads := rfl
@[simp] theorem emit_slots (s : State) (o : Output) : (s.emit o).slots = s.slots := rfl
@[simp] theorem emit_safe (s : State) (o : Output) : (s.emit o).safe = s.safe := rfl
@[simp] theorem emit_pairs (s : State) (o : Output) : (s.emit o).pairs = s.pairs := rfl
@[simp] theorem emit_store (s : State) (o : Output) : (s.emit o).store = s.store := rfl
@[simp] theorem emit_wl (s : State) (o : Output) : (s.emit o).wl = s.wl := rfl
@[simp] theorem emit_chand (s : State) (o : Output) : (s.emit o).chand = s.chand := rfl
@[simp] theorem emit_mem (s : State) (o : Output) : (s.emit o).mem = s.mem := rfl
@[simp] theorem emit_fab (s : State) (o : Output) : (s.emit o).fab = s.fab := rfl
@[simp] theorem emit_media (s : State) (o : Output) : (s.emit o).media = s.media := rfl
@[simp] theorem emit_net (s : State) (o : Output) : (s.emit o).net = s.net := rfl
@[simp] theorem emit_audio (s : State) (o : Output) : (s.emit o).audio = s.audio := rfl
@[simp] theorem emit_sense (s : State) (o : Output) : (s.emit o).sense = s.sense := rfl
@[simp] theorem emit_lan (s : State) (o : Output) : (s.emit o).lan = s.lan := rfl
@[simp] theorem emit_flt (s : State) (o : Output) : (s.emit o).flt = s.flt := rfl
@[simp] theorem emit_pwr (s : State) (o : Output) : (s.emit o).pwr = s.pwr := rfl
@[simp] theorem emit_boot (s : State) (o : Output) : (s.emit o).boot = s.boot := rfl
@[simp] theorem emit_draws (s : State) (o : Output) : (s.emit o).draws = s.draws := rfl
@[simp] theorem emit_pending (s : State) (o : Output) : (s.emit o).pending = s.pending := rfl
@[simp] theorem emit_island (s : State) (o : Output) (i : Nat) : (s.emit o).island i = s.island i := rfl
@[simp] theorem emit_fnc (s : State) (o : Output) (i : Nat) : (s.emit o).fnc i = s.fnc i := rfl
@[simp] theorem emit_que (s : State) (o : Output) (fn q : Nat) : (s.emit o).que fn q = s.que fn q := rfl
@[simp] theorem emit_port (s : State) (o : Output) (p : Nat) : (s.emit o).port p = s.port p := rfl
@[simp] theorem emit_head (s : State) (o : Output) (h : Nat) : (s.emit o).head h = s.head h := rfl
@[simp] theorem emit_slotOf (s : State) (o : Output) (n : Nat) : (s.emit o).slotOf n = s.slotOf n := rfl
@[simp] theorem emit_safeOf (s : State) (o : Output) (h : Nat) : (s.emit o).safeOf h = s.safeOf h := rfl
@[simp] theorem emit_pair (s : State) (o : Output) (p : Nat) : (s.emit o).pair p = s.pair p := rfl
@[simp] theorem emit_ruleSt (s : State) (o : Output) (r : Nat) : (s.emit o).ruleSt r = s.ruleSt r := rfl
@[simp] theorem emit_sigOf (s : State) (o : Output) (n : Nat) : (s.emit o).sigOf n = s.sigOf n := rfl
@[simp] theorem emit_ctx (s : State) (o : Output) (c : Nat) : (s.emit o).ctx c = s.ctx c := rfl
@[simp] theorem emit_taper (s : State) (o : Output) (t : Nat) : (s.emit o).taper t = s.taper t := rfl
@[simp] theorem emit_chan (s : State) (o : Output) (c : Nat) : (s.emit o).chan c = s.chan c := rfl
@[simp] theorem emit_part (s : State) (o : Output) (p : Nat) : (s.emit o).part p = s.part p := rfl
@[simp] theorem emit_target (s : State) (o : Output) (t : Nat) : (s.emit o).target t = s.target t := rfl
@[simp] theorem emit_slotTab (s : State) (o : Output) (i : Nat) : (s.emit o).slotTab i = s.slotTab i := rfl
@[simp] theorem emit_lock (s : State) (o : Output) (n : Nat) : (s.emit o).lock n = s.lock n := rfl
@[simp] theorem emit_csi (s : State) (o : Output) (p : Nat) : (s.emit o).csi p = s.csi p := rfl
@[simp] theorem emit_ptp (s : State) (o : Output) (d : Nat) : (s.emit o).ptp d = s.ptp d := rfl
@[simp] theorem emit_eport (s : State) (o : Output) (p : Nat) : (s.emit o).eport p = s.eport p := rfl
@[simp] theorem emit_gcl (s : State) (o : Output) (p : Nat) : (s.emit o).gcl p = s.gcl p := rfl
@[simp] theorem emit_can (s : State) (o : Output) (n : Nat) : (s.emit o).can n = s.can n := rfl
@[simp] theorem emit_tdm (s : State) (o : Output) (p : Nat) : (s.emit o).tdm p = s.tdm p := rfl
@[simp] theorem emit_safeLoad (s : State) (o : Output) (fn : Nat) : (s.emit o).safeLoad fn = s.safeLoad fn := rfl
@[simp] theorem emit_panel (s : State) (o : Output) (p : Nat) : (s.emit o).panel p = s.panel p := rfl
@[simp] theorem emit_obj (s : State) (o : Output) (o' : Nat) : (s.emit o).obj o' = s.obj o' := rfl
@[simp] theorem emit_hap (s : State) (o : Output) (n : Nat) : (s.emit o).hap n = s.hap n := rfl
@[simp] theorem emit_mbox (s : State) (o : Output) (m : Nat) : (s.emit o).mbox m = s.mbox m := rfl
@[simp] theorem emit_rail (s : State) (o : Output) (r : Nat) : (s.emit o).rail r = s.rail r := rfl
@[simp] theorem emit_fence (s : State) (o : Output) (fn n : Nat) : (s.emit o).fence fn n = s.fence fn n := rfl
@[simp] theorem emit_up (s : State) (o : Output) (i' : Nat) : (s.emit o).up i' = s.up i' := rfl
@[simp] theorem emit_stamp (s : State) (o : Output) (i' : Nat) : (s.emit o).stamp i' = s.stamp i' := rfl
@[simp] theorem emit_mayWrite (s : State) (o : Output) (fn' grp' : Nat) : (s.emit o).mayWrite fn' grp' = s.mayWrite fn' grp' := rfl

/-! ### drawn -/

@[simp] theorem drawn_dt (s : State) : s.drawn.dt = s.dt := rfl
@[simp] theorem drawn_time (s : State) : s.drawn.time = s.time := rfl
@[simp] theorem drawn_isl (s : State) : s.drawn.isl = s.isl := rfl
@[simp] theorem drawn_img (s : State) : s.drawn.img = s.img := rfl
@[simp] theorem drawn_fns (s : State) : s.drawn.fns = s.fns := rfl
@[simp] theorem drawn_queues (s : State) : s.drawn.queues = s.queues := rfl
@[simp] theorem drawn_flights (s : State) : s.drawn.flights = s.flights := rfl
@[simp] theorem drawn_nextId (s : State) : s.drawn.nextId = s.nextId := rfl
@[simp] theorem drawn_ports (s : State) : s.drawn.ports = s.ports := rfl
@[simp] theorem drawn_grpDrop (s : State) : s.drawn.grpDrop = s.grpDrop := rfl
@[simp] theorem drawn_hdDrop (s : State) : s.drawn.hdDrop = s.hdDrop := rfl
@[simp] theorem drawn_heads (s : State) : s.drawn.heads = s.heads := rfl
@[simp] theorem drawn_slots (s : State) : s.drawn.slots = s.slots := rfl
@[simp] theorem drawn_safe (s : State) : s.drawn.safe = s.safe := rfl
@[simp] theorem drawn_pairs (s : State) : s.drawn.pairs = s.pairs := rfl
@[simp] theorem drawn_store (s : State) : s.drawn.store = s.store := rfl
@[simp] theorem drawn_wl (s : State) : s.drawn.wl = s.wl := rfl
@[simp] theorem drawn_chand (s : State) : s.drawn.chand = s.chand := rfl
@[simp] theorem drawn_mem (s : State) : s.drawn.mem = s.mem := rfl
@[simp] theorem drawn_fab (s : State) : s.drawn.fab = s.fab := rfl
@[simp] theorem drawn_media (s : State) : s.drawn.media = s.media := rfl
@[simp] theorem drawn_net (s : State) : s.drawn.net = s.net := rfl
@[simp] theorem drawn_audio (s : State) : s.drawn.audio = s.audio := rfl
@[simp] theorem drawn_sense (s : State) : s.drawn.sense = s.sense := rfl
@[simp] theorem drawn_lan (s : State) : s.drawn.lan = s.lan := rfl
@[simp] theorem drawn_flt (s : State) : s.drawn.flt = s.flt := rfl
@[simp] theorem drawn_pwr (s : State) : s.drawn.pwr = s.pwr := rfl
@[simp] theorem drawn_boot (s : State) : s.drawn.boot = s.boot := rfl
@[simp] theorem drawn_out (s : State) : s.drawn.out = s.out := rfl
@[simp] theorem drawn_pending (s : State) : s.drawn.pending = s.pending := rfl
@[simp] theorem drawn_island (s : State) (i : Nat) : s.drawn.island i = s.island i := rfl
@[simp] theorem drawn_fnc (s : State) (i : Nat) : s.drawn.fnc i = s.fnc i := rfl
@[simp] theorem drawn_que (s : State) (fn q : Nat) : s.drawn.que fn q = s.que fn q := rfl
@[simp] theorem drawn_port (s : State) (p : Nat) : s.drawn.port p = s.port p := rfl
@[simp] theorem drawn_head (s : State) (h : Nat) : s.drawn.head h = s.head h := rfl
@[simp] theorem drawn_slotOf (s : State) (n : Nat) : s.drawn.slotOf n = s.slotOf n := rfl
@[simp] theorem drawn_safeOf (s : State) (h : Nat) : s.drawn.safeOf h = s.safeOf h := rfl
@[simp] theorem drawn_pair (s : State) (p : Nat) : s.drawn.pair p = s.pair p := rfl
@[simp] theorem drawn_ruleSt (s : State) (r : Nat) : s.drawn.ruleSt r = s.ruleSt r := rfl
@[simp] theorem drawn_sigOf (s : State) (n : Nat) : s.drawn.sigOf n = s.sigOf n := rfl
@[simp] theorem drawn_ctx (s : State) (c : Nat) : s.drawn.ctx c = s.ctx c := rfl
@[simp] theorem drawn_taper (s : State) (t : Nat) : s.drawn.taper t = s.taper t := rfl
@[simp] theorem drawn_chan (s : State) (c : Nat) : s.drawn.chan c = s.chan c := rfl
@[simp] theorem drawn_part (s : State) (p : Nat) : s.drawn.part p = s.part p := rfl
@[simp] theorem drawn_target (s : State) (t : Nat) : s.drawn.target t = s.target t := rfl
@[simp] theorem drawn_slotTab (s : State) (i : Nat) : s.drawn.slotTab i = s.slotTab i := rfl
@[simp] theorem drawn_lock (s : State) (n : Nat) : s.drawn.lock n = s.lock n := rfl
@[simp] theorem drawn_csi (s : State) (p : Nat) : s.drawn.csi p = s.csi p := rfl
@[simp] theorem drawn_ptp (s : State) (d : Nat) : s.drawn.ptp d = s.ptp d := rfl
@[simp] theorem drawn_eport (s : State) (p : Nat) : s.drawn.eport p = s.eport p := rfl
@[simp] theorem drawn_gcl (s : State) (p : Nat) : s.drawn.gcl p = s.gcl p := rfl
@[simp] theorem drawn_can (s : State) (n : Nat) : s.drawn.can n = s.can n := rfl
@[simp] theorem drawn_tdm (s : State) (p : Nat) : s.drawn.tdm p = s.tdm p := rfl
@[simp] theorem drawn_safeLoad (s : State) (fn : Nat) : s.drawn.safeLoad fn = s.safeLoad fn := rfl
@[simp] theorem drawn_panel (s : State) (p : Nat) : s.drawn.panel p = s.panel p := rfl
@[simp] theorem drawn_obj (s : State) (o : Nat) : s.drawn.obj o = s.obj o := rfl
@[simp] theorem drawn_hap (s : State) (n : Nat) : s.drawn.hap n = s.hap n := rfl
@[simp] theorem drawn_mbox (s : State) (m : Nat) : s.drawn.mbox m = s.mbox m := rfl
@[simp] theorem drawn_rail (s : State) (r : Nat) : s.drawn.rail r = s.rail r := rfl
@[simp] theorem drawn_fence (s : State) (fn n : Nat) : s.drawn.fence fn n = s.fence fn n := rfl
@[simp] theorem drawn_up (s : State) (i' : Nat) : s.drawn.up i' = s.up i' := rfl
@[simp] theorem drawn_stamp (s : State) (i' : Nat) : s.drawn.stamp i' = s.stamp i' := rfl
@[simp] theorem drawn_mayWrite (s : State) (fn' grp' : Nat) : s.drawn.mayWrite fn' grp' = s.mayWrite fn' grp' := rfl

/-! ### dropGroup -/

@[simp] theorem dropGroup_dt (s : State) : s.dropGroup.dt = s.dt := rfl
@[simp] theorem dropGroup_time (s : State) : s.dropGroup.time = s.time := rfl
@[simp] theorem dropGroup_isl (s : State) : s.dropGroup.isl = s.isl := rfl
@[simp] theorem dropGroup_img (s : State) : s.dropGroup.img = s.img := rfl
@[simp] theorem dropGroup_fns (s : State) : s.dropGroup.fns = s.fns := rfl
@[simp] theorem dropGroup_queues (s : State) : s.dropGroup.queues = s.queues := rfl
@[simp] theorem dropGroup_flights (s : State) : s.dropGroup.flights = s.flights := rfl
@[simp] theorem dropGroup_nextId (s : State) : s.dropGroup.nextId = s.nextId := rfl
@[simp] theorem dropGroup_ports (s : State) : s.dropGroup.ports = s.ports := rfl
@[simp] theorem dropGroup_hdDrop (s : State) : s.dropGroup.hdDrop = s.hdDrop := rfl
@[simp] theorem dropGroup_heads (s : State) : s.dropGroup.heads = s.heads := rfl
@[simp] theorem dropGroup_slots (s : State) : s.dropGroup.slots = s.slots := rfl
@[simp] theorem dropGroup_safe (s : State) : s.dropGroup.safe = s.safe := rfl
@[simp] theorem dropGroup_pairs (s : State) : s.dropGroup.pairs = s.pairs := rfl
@[simp] theorem dropGroup_store (s : State) : s.dropGroup.store = s.store := rfl
@[simp] theorem dropGroup_wl (s : State) : s.dropGroup.wl = s.wl := rfl
@[simp] theorem dropGroup_chand (s : State) : s.dropGroup.chand = s.chand := rfl
@[simp] theorem dropGroup_mem (s : State) : s.dropGroup.mem = s.mem := rfl
@[simp] theorem dropGroup_fab (s : State) : s.dropGroup.fab = s.fab := rfl
@[simp] theorem dropGroup_media (s : State) : s.dropGroup.media = s.media := rfl
@[simp] theorem dropGroup_net (s : State) : s.dropGroup.net = s.net := rfl
@[simp] theorem dropGroup_audio (s : State) : s.dropGroup.audio = s.audio := rfl
@[simp] theorem dropGroup_sense (s : State) : s.dropGroup.sense = s.sense := rfl
@[simp] theorem dropGroup_lan (s : State) : s.dropGroup.lan = s.lan := rfl
@[simp] theorem dropGroup_flt (s : State) : s.dropGroup.flt = s.flt := rfl
@[simp] theorem dropGroup_pwr (s : State) : s.dropGroup.pwr = s.pwr := rfl
@[simp] theorem dropGroup_boot (s : State) : s.dropGroup.boot = s.boot := rfl
@[simp] theorem dropGroup_draws (s : State) : s.dropGroup.draws = s.draws := rfl
@[simp] theorem dropGroup_out (s : State) : s.dropGroup.out = s.out := rfl
@[simp] theorem dropGroup_pending (s : State) : s.dropGroup.pending = s.pending := rfl
@[simp] theorem dropGroup_island (s : State) (i : Nat) : s.dropGroup.island i = s.island i := rfl
@[simp] theorem dropGroup_fnc (s : State) (i : Nat) : s.dropGroup.fnc i = s.fnc i := rfl
@[simp] theorem dropGroup_que (s : State) (fn q : Nat) : s.dropGroup.que fn q = s.que fn q := rfl
@[simp] theorem dropGroup_port (s : State) (p : Nat) : s.dropGroup.port p = s.port p := rfl
@[simp] theorem dropGroup_head (s : State) (h : Nat) : s.dropGroup.head h = s.head h := rfl
@[simp] theorem dropGroup_slotOf (s : State) (n : Nat) : s.dropGroup.slotOf n = s.slotOf n := rfl
@[simp] theorem dropGroup_safeOf (s : State) (h : Nat) : s.dropGroup.safeOf h = s.safeOf h := rfl
@[simp] theorem dropGroup_pair (s : State) (p : Nat) : s.dropGroup.pair p = s.pair p := rfl
@[simp] theorem dropGroup_ruleSt (s : State) (r : Nat) : s.dropGroup.ruleSt r = s.ruleSt r := rfl
@[simp] theorem dropGroup_sigOf (s : State) (n : Nat) : s.dropGroup.sigOf n = s.sigOf n := rfl
@[simp] theorem dropGroup_ctx (s : State) (c : Nat) : s.dropGroup.ctx c = s.ctx c := rfl
@[simp] theorem dropGroup_taper (s : State) (t : Nat) : s.dropGroup.taper t = s.taper t := rfl
@[simp] theorem dropGroup_chan (s : State) (c : Nat) : s.dropGroup.chan c = s.chan c := rfl
@[simp] theorem dropGroup_part (s : State) (p : Nat) : s.dropGroup.part p = s.part p := rfl
@[simp] theorem dropGroup_target (s : State) (t : Nat) : s.dropGroup.target t = s.target t := rfl
@[simp] theorem dropGroup_slotTab (s : State) (i : Nat) : s.dropGroup.slotTab i = s.slotTab i := rfl
@[simp] theorem dropGroup_lock (s : State) (n : Nat) : s.dropGroup.lock n = s.lock n := rfl
@[simp] theorem dropGroup_csi (s : State) (p : Nat) : s.dropGroup.csi p = s.csi p := rfl
@[simp] theorem dropGroup_ptp (s : State) (d : Nat) : s.dropGroup.ptp d = s.ptp d := rfl
@[simp] theorem dropGroup_eport (s : State) (p : Nat) : s.dropGroup.eport p = s.eport p := rfl
@[simp] theorem dropGroup_gcl (s : State) (p : Nat) : s.dropGroup.gcl p = s.gcl p := rfl
@[simp] theorem dropGroup_can (s : State) (n : Nat) : s.dropGroup.can n = s.can n := rfl
@[simp] theorem dropGroup_tdm (s : State) (p : Nat) : s.dropGroup.tdm p = s.tdm p := rfl
@[simp] theorem dropGroup_safeLoad (s : State) (fn : Nat) : s.dropGroup.safeLoad fn = s.safeLoad fn := rfl
@[simp] theorem dropGroup_panel (s : State) (p : Nat) : s.dropGroup.panel p = s.panel p := rfl
@[simp] theorem dropGroup_obj (s : State) (o : Nat) : s.dropGroup.obj o = s.obj o := rfl
@[simp] theorem dropGroup_hap (s : State) (n : Nat) : s.dropGroup.hap n = s.hap n := rfl
@[simp] theorem dropGroup_mbox (s : State) (m : Nat) : s.dropGroup.mbox m = s.mbox m := rfl
@[simp] theorem dropGroup_rail (s : State) (r : Nat) : s.dropGroup.rail r = s.rail r := rfl
@[simp] theorem dropGroup_fence (s : State) (fn n : Nat) : s.dropGroup.fence fn n = s.fence fn n := rfl
@[simp] theorem dropGroup_up (s : State) (i' : Nat) : s.dropGroup.up i' = s.up i' := rfl
@[simp] theorem dropGroup_stamp (s : State) (i' : Nat) : s.dropGroup.stamp i' = s.stamp i' := rfl
@[simp] theorem dropGroup_mayWrite (s : State) (fn' grp' : Nat) : s.dropGroup.mayWrite fn' grp' = s.mayWrite fn' grp' := rfl

/-! ### dropHead -/

@[simp] theorem dropHead_dt (s : State) : s.dropHead.dt = s.dt := rfl
@[simp] theorem dropHead_time (s : State) : s.dropHead.time = s.time := rfl
@[simp] theorem dropHead_isl (s : State) : s.dropHead.isl = s.isl := rfl
@[simp] theorem dropHead_img (s : State) : s.dropHead.img = s.img := rfl
@[simp] theorem dropHead_fns (s : State) : s.dropHead.fns = s.fns := rfl
@[simp] theorem dropHead_queues (s : State) : s.dropHead.queues = s.queues := rfl
@[simp] theorem dropHead_flights (s : State) : s.dropHead.flights = s.flights := rfl
@[simp] theorem dropHead_nextId (s : State) : s.dropHead.nextId = s.nextId := rfl
@[simp] theorem dropHead_ports (s : State) : s.dropHead.ports = s.ports := rfl
@[simp] theorem dropHead_grpDrop (s : State) : s.dropHead.grpDrop = s.grpDrop := rfl
@[simp] theorem dropHead_heads (s : State) : s.dropHead.heads = s.heads := rfl
@[simp] theorem dropHead_slots (s : State) : s.dropHead.slots = s.slots := rfl
@[simp] theorem dropHead_safe (s : State) : s.dropHead.safe = s.safe := rfl
@[simp] theorem dropHead_pairs (s : State) : s.dropHead.pairs = s.pairs := rfl
@[simp] theorem dropHead_store (s : State) : s.dropHead.store = s.store := rfl
@[simp] theorem dropHead_wl (s : State) : s.dropHead.wl = s.wl := rfl
@[simp] theorem dropHead_chand (s : State) : s.dropHead.chand = s.chand := rfl
@[simp] theorem dropHead_mem (s : State) : s.dropHead.mem = s.mem := rfl
@[simp] theorem dropHead_fab (s : State) : s.dropHead.fab = s.fab := rfl
@[simp] theorem dropHead_media (s : State) : s.dropHead.media = s.media := rfl
@[simp] theorem dropHead_net (s : State) : s.dropHead.net = s.net := rfl
@[simp] theorem dropHead_audio (s : State) : s.dropHead.audio = s.audio := rfl
@[simp] theorem dropHead_sense (s : State) : s.dropHead.sense = s.sense := rfl
@[simp] theorem dropHead_lan (s : State) : s.dropHead.lan = s.lan := rfl
@[simp] theorem dropHead_flt (s : State) : s.dropHead.flt = s.flt := rfl
@[simp] theorem dropHead_pwr (s : State) : s.dropHead.pwr = s.pwr := rfl
@[simp] theorem dropHead_boot (s : State) : s.dropHead.boot = s.boot := rfl
@[simp] theorem dropHead_draws (s : State) : s.dropHead.draws = s.draws := rfl
@[simp] theorem dropHead_out (s : State) : s.dropHead.out = s.out := rfl
@[simp] theorem dropHead_pending (s : State) : s.dropHead.pending = s.pending := rfl
@[simp] theorem dropHead_island (s : State) (i : Nat) : s.dropHead.island i = s.island i := rfl
@[simp] theorem dropHead_fnc (s : State) (i : Nat) : s.dropHead.fnc i = s.fnc i := rfl
@[simp] theorem dropHead_que (s : State) (fn q : Nat) : s.dropHead.que fn q = s.que fn q := rfl
@[simp] theorem dropHead_port (s : State) (p : Nat) : s.dropHead.port p = s.port p := rfl
@[simp] theorem dropHead_head (s : State) (h : Nat) : s.dropHead.head h = s.head h := rfl
@[simp] theorem dropHead_slotOf (s : State) (n : Nat) : s.dropHead.slotOf n = s.slotOf n := rfl
@[simp] theorem dropHead_safeOf (s : State) (h : Nat) : s.dropHead.safeOf h = s.safeOf h := rfl
@[simp] theorem dropHead_pair (s : State) (p : Nat) : s.dropHead.pair p = s.pair p := rfl
@[simp] theorem dropHead_ruleSt (s : State) (r : Nat) : s.dropHead.ruleSt r = s.ruleSt r := rfl
@[simp] theorem dropHead_sigOf (s : State) (n : Nat) : s.dropHead.sigOf n = s.sigOf n := rfl
@[simp] theorem dropHead_ctx (s : State) (c : Nat) : s.dropHead.ctx c = s.ctx c := rfl
@[simp] theorem dropHead_taper (s : State) (t : Nat) : s.dropHead.taper t = s.taper t := rfl
@[simp] theorem dropHead_chan (s : State) (c : Nat) : s.dropHead.chan c = s.chan c := rfl
@[simp] theorem dropHead_part (s : State) (p : Nat) : s.dropHead.part p = s.part p := rfl
@[simp] theorem dropHead_target (s : State) (t : Nat) : s.dropHead.target t = s.target t := rfl
@[simp] theorem dropHead_slotTab (s : State) (i : Nat) : s.dropHead.slotTab i = s.slotTab i := rfl
@[simp] theorem dropHead_lock (s : State) (n : Nat) : s.dropHead.lock n = s.lock n := rfl
@[simp] theorem dropHead_csi (s : State) (p : Nat) : s.dropHead.csi p = s.csi p := rfl
@[simp] theorem dropHead_ptp (s : State) (d : Nat) : s.dropHead.ptp d = s.ptp d := rfl
@[simp] theorem dropHead_eport (s : State) (p : Nat) : s.dropHead.eport p = s.eport p := rfl
@[simp] theorem dropHead_gcl (s : State) (p : Nat) : s.dropHead.gcl p = s.gcl p := rfl
@[simp] theorem dropHead_can (s : State) (n : Nat) : s.dropHead.can n = s.can n := rfl
@[simp] theorem dropHead_tdm (s : State) (p : Nat) : s.dropHead.tdm p = s.tdm p := rfl
@[simp] theorem dropHead_safeLoad (s : State) (fn : Nat) : s.dropHead.safeLoad fn = s.safeLoad fn := rfl
@[simp] theorem dropHead_panel (s : State) (p : Nat) : s.dropHead.panel p = s.panel p := rfl
@[simp] theorem dropHead_obj (s : State) (o : Nat) : s.dropHead.obj o = s.obj o := rfl
@[simp] theorem dropHead_hap (s : State) (n : Nat) : s.dropHead.hap n = s.hap n := rfl
@[simp] theorem dropHead_mbox (s : State) (m : Nat) : s.dropHead.mbox m = s.mbox m := rfl
@[simp] theorem dropHead_rail (s : State) (r : Nat) : s.dropHead.rail r = s.rail r := rfl
@[simp] theorem dropHead_fence (s : State) (fn n : Nat) : s.dropHead.fence fn n = s.fence fn n := rfl
@[simp] theorem dropHead_up (s : State) (i' : Nat) : s.dropHead.up i' = s.up i' := rfl
@[simp] theorem dropHead_stamp (s : State) (i' : Nat) : s.dropHead.stamp i' = s.stamp i' := rfl
@[simp] theorem dropHead_mayWrite (s : State) (fn' grp' : Nat) : s.dropHead.mayWrite fn' grp' = s.mayWrite fn' grp' := rfl

end Sys2Proof.Machine
end

