-- ==== Sys2Proof/Laws/Islands.lean ====
section
/-! SUPPORT. Which operations leave the islands released or in reset as they were: one lemma an operation. -/

namespace Sys2Proof.Machine

/-! ### Ops -/

/-- Which islands are released and which are in reset. -/
def islOf (s : State) : Nat → Bool × Bool := fun i => ((s.island i).live, (s.island i).inReset)

/-- The same, of the table of islands. -/
def islView (t : Tbl Island) : Nat → Bool × Bool := fun i => ((look t i (Island.init i)).live, (look t i (Island.init i)).inReset)

theorem islView_isl (s : State) : islView s.isl = islOf s := rfl

theorem isl_congr {a b : State} (h : islView a.isl = islView b.isl) : islOf a = islOf b := h

theorem foldl_isl {α : Type} (g : State → α → State) (h : ∀ s x, islOf (g s x) = islOf s) :
    ∀ (l : List α) (s : State), islOf (l.foldl g s) = islOf s
  | [], _ => rfl
  | x :: l, s => (foldl_isl g h l (g s x)).trans (h s x)

theorem foldl_fst_isl {α β : Type} (g : State × β → α → State × β) (h : ∀ a x, islOf (g a x).1 = islOf a.1) :
    ∀ (l : List α) (a : State × β), islOf (l.foldl g a).1 = islOf a.1
  | [], _ => rfl
  | x :: l, a => (foldl_fst_isl g h l (g a x)).trans (h a x)

@[simp] theorem ite_isl (p : Prop) [Decidable p] (a b : State) : islOf (if p then a else b) = if p then islOf a else islOf b :=
  apply_ite islOf p a b

@[simp] theorem State.modLan_isl (s : State) (f : Lantern → Lantern) : islOf (s.modLan f) = islOf s := rfl

@[simp] theorem State.modIsl_isl (s : State) (k : Nat) (f : Island → Island) (h1 : ∀ x, (f x).live = x.live)
    (h2 : ∀ x, (f x).inReset = x.inReset) : islOf (s.modIsl k f) = islOf s := by
  funext i
  by_cases hi : i = k
  · subst hi; simp [islOf, h1, h2]
  · simp [islOf, State.modIsl, State.island, look_put_ne _ _ _ hi]

@[simp] theorem State.modFn_isl (s : State) (k0 : Nat) (f : Func → Func) : islOf (s.modFn k0 f) = islOf s := rfl
@[simp] theorem State.modQ_isl (s : State) (k0 : Nat) (k1 : Nat) (f : Queue → Queue) : islOf (s.modQ k0 k1 f) = islOf s := rfl
@[simp] theorem State.modPort_isl (s : State) (k0 : Nat) (f : Port → Port) : islOf (s.modPort k0 f) = islOf s := rfl
@[simp] theorem State.modHead_isl (s : State) (k0 : Nat) (f : Head → Head) : islOf (s.modHead k0 f) = islOf s := rfl
@[simp] theorem State.modSlot_isl (s : State) (k0 : Nat) (f : Slot → Slot) : islOf (s.modSlot k0 f) = islOf s := rfl
@[simp] theorem State.modSafe_isl (s : State) (k0 : Nat) (f : SafeHead → SafeHead) : islOf (s.modSafe k0 f) = islOf s := rfl
@[simp] theorem State.modPair_isl (s : State) (k0 : Nat) (f : Pair → Pair) : islOf (s.modPair k0 f) = islOf s := rfl
@[simp] theorem State.modWl_isl (s : State) (f : Watchlamp → Watchlamp) : islOf (s.modWl f) = islOf s := rfl
@[simp] theorem State.modCtx_isl (s : State) (k0 : Nat) (f : Ctx → Ctx) : islOf (s.modCtx k0 f) = islOf s := rfl
@[simp] theorem State.modChand_isl (s : State) (f : Chand → Chand) : islOf (s.modChand f) = islOf s := rfl
@[simp] theorem State.modChan_isl (s : State) (k0 : Nat) (f : Chan → Chan) : islOf (s.modChan k0 f) = islOf s := rfl
@[simp] theorem State.modMem_isl (s : State) (f : Mem → Mem) : islOf (s.modMem f) = islOf s := rfl
@[simp] theorem State.modPart_isl (s : State) (k0 : Nat) (f : Part → Part) : islOf (s.modPart k0 f) = islOf s := rfl
@[simp] theorem State.modFab_isl (s : State) (f : Fabric → Fabric) : islOf (s.modFab f) = islOf s := rfl
@[simp] theorem State.modTarget_isl (s : State) (k0 : Nat) (f : Target → Target) : islOf (s.modTarget k0 f) = islOf s := rfl
@[simp] theorem State.modSlotTab_isl (s : State) (k0 : Nat) (f : SlotTable → SlotTable) : islOf (s.modSlotTab k0 f) = islOf s := rfl
@[simp] theorem State.modLock_isl (s : State) (k0 : Nat) (f : Lock → Lock) : islOf (s.modLock k0 f) = islOf s := rfl
@[simp] theorem State.modCsi_isl (s : State) (k0 : Nat) (f : Csi → Csi) : islOf (s.modCsi k0 f) = islOf s := rfl
@[simp] theorem State.modNet_isl (s : State) (f : Net → Net) : islOf (s.modNet f) = islOf s := rfl
@[simp] theorem State.modPtp_isl (s : State) (k0 : Nat) (f : Ptp → Ptp) : islOf (s.modPtp k0 f) = islOf s := rfl
@[simp] theorem State.modEport_isl (s : State) (k0 : Nat) (f : EPort → EPort) : islOf (s.modEport k0 f) = islOf s := rfl
@[simp] theorem State.modGcl_isl (s : State) (k0 : Nat) (f : Gcl → Gcl) : islOf (s.modGcl k0 f) = islOf s := rfl
@[simp] theorem State.modCan_isl (s : State) (k0 : Nat) (f : Can → Can) : islOf (s.modCan k0 f) = islOf s := rfl
@[simp] theorem State.modAudio_isl (s : State) (f : Audio → Audio) : islOf (s.modAudio f) = islOf s := rfl
@[simp] theorem State.modTdm_isl (s : State) (k0 : Nat) (f : Tdm → Tdm) : islOf (s.modTdm k0 f) = islOf s := rfl
@[simp] theorem State.modSafeLoad_isl (s : State) (k0 : Nat) (f : SafeLoad → SafeLoad) : islOf (s.modSafeLoad k0 f) = islOf s := rfl
@[simp] theorem State.modPanel_isl (s : State) (k0 : Nat) (f : Panel → Panel) : islOf (s.modPanel k0 f) = islOf s := rfl
@[simp] theorem State.modObj_isl (s : State) (k0 : Nat) (f : ScObj → ScObj) : islOf (s.modObj k0 f) = islOf s := rfl
@[simp] theorem State.modHap_isl (s : State) (k0 : Nat) (f : Hap → Hap) : islOf (s.modHap k0 f) = islOf s := rfl
@[simp] theorem State.modMbox_isl (s : State) (k0 : Nat) (f : Mbox → Mbox) : islOf (s.modMbox k0 f) = islOf s := rfl
@[simp] theorem State.modFlt_isl (s : State) (f : Faults → Faults) : islOf (s.modFlt f) = islOf s := rfl
@[simp] theorem State.modPwr_isl (s : State) (f : Power → Power) : islOf (s.modPwr f) = islOf s := rfl
@[simp] theorem State.modRail_isl (s : State) (k0 : Nat) (f : Rail → Rail) : islOf (s.modRail k0 f) = islOf s := rfl
@[simp] theorem State.modBoot_isl (s : State) (f : Boot → Boot) : islOf (s.modBoot f) = islOf s := rfl
@[simp] theorem State.emit_isl (s : State) (o : Output) :
    islOf (State.emit s o) = islOf s := rfl

@[simp] theorem State.drawn_isl (s : State) :
    islOf (State.drawn s) = islOf s := rfl

@[simp] theorem sendIrq_isl (s : State) (fn : Nat) (vec : Nat) :
    islOf (sendIrq s fn vec) = islOf s := by simp [sendIrq]

@[simp] theorem gather_isl (s : State) (fn : Nat) (q : Nat) :
    islOf (gather s fn q) = islOf s := by simp [gather]

@[simp] theorem writeEntry_isl (s : State) (fn : Nat) (q : Nat) (h : Held) :
    islOf (writeEntry s fn q h) = islOf s := by simp [writeEntry]

@[simp] theorem postEntry_isl (s : State) (fn : Nat) (q : Nat) (h : Held) :
    islOf (postEntry s fn q h) = islOf s := by simp [postEntry]

@[simp] theorem flushLost_isl (s : State) (fn : Nat) :
    islOf (flushLost s fn) = islOf s := by simp [flushLost]

@[simp] theorem sendEventAt_isl (s : State) (fn : Nat) (evCode : Nat) (d5 : Nat) (d6 : Nat) (d7 : Nat) (stamp : Time) :
    islOf (sendEventAt s fn evCode d5 d6 d7 stamp) = islOf s := by simp [sendEventAt]

@[simp] theorem sendEvent_isl (s : State) (isl : Nat) (fn : Nat) (evCode : Nat) (d5 : Nat) (d6 : Nat) (d7 : Nat) :
    islOf (sendEvent s isl fn evCode d5 d6 d7) = islOf s := by simp [sendEvent]

@[simp] theorem sendManagers_isl (s : State) (isl : Nat) (evCode : Nat) (d5 : Nat) (d6 : Nat) (d7 : Nat) :
    islOf (sendManagers s isl evCode d5 d6 d7) = islOf s := by simp [sendManagers]

@[simp] theorem sendTo_isl (s : State) (isl : Nat) (fn : Option Nat) (evCode : Nat) (d5 : Nat) (d6 : Nat) (d7 : Nat) :
    islOf (sendTo s isl fn evCode d5 d6 d7) = islOf s := by
  unfold sendTo
  split <;> simp

@[simp] theorem flushHeld_isl (s : State) (fn : Nat) (q : Nat) (x3 : Nat) :
    islOf (flushHeld s fn q x3) = islOf s := by
  induction x3 generalizing s with
  | zero => rfl
  | succ n ih =>
    unfold flushHeld
    split
    · rfl
    · split <;> simp [ih]

@[simp] theorem State.setFence_isl (s : State) (fn : Nat) (n : Nat) (v : Nat) :
    islOf (State.setFence s fn n v) = islOf s := rfl

@[simp] theorem signalFence_isl (s : State) (fn : Nat) (n : Nat) (v : Nat) :
    islOf (signalFence s fn n v) = islOf s := by simp [signalFence]

@[simp] theorem finishCmd_isl (s : State) (c : Cmd) (status : Nat) (pay : List Nat) (stamp : Time) :
    islOf (finishCmd s c status pay stamp) = islOf s := by simp [finishCmd]

@[simp] theorem completeAt_isl (s : State) (id : Nat) (status : Nat) (pay : List Nat) (stamp : Time) :
    islOf (completeAt s id status pay stamp) = islOf s := by
  unfold completeAt
  repeat' first
    | (simp [islView_isl]; done)
    | (simp [foldl_isl, foldl_fst_isl, islView_isl]; done)
    | intro _ _
    | intro _
    | rw [foldl_isl]
    | rw [foldl_fst_isl]
    | split
    | (apply isl_congr <;> simp [islView_isl]; done)
    | (simp; first | rw [foldl_isl] | rw [foldl_fst_isl] | split | (apply isl_congr <;> simp [islView_isl]; done))
    | with_reducible rfl

@[simp] theorem complete_isl (s : State) (id : Nat) (status : Nat) (pay : List Nat) :
    islOf (complete s id status pay) = islOf s := by
  unfold complete
  split <;> simp

@[simp] theorem completeAll_isl (s : State) (ids : List Nat) (status : Nat) (pay : List Nat) :
    islOf (completeAll s ids status pay) = islOf s := by simp [completeAll, foldl_isl]

@[simp] theorem endAll_isl (s : State) (ids : List Nat) (status : Nat) :
    islOf (endAll s ids status) = islOf s := by simp [endAll, foldl_isl]

@[simp] theorem State.forget_isl (s : State) (p : Flight → Bool) :
    islOf (State.forget s p) = islOf s := rfl

@[simp] theorem bumpGen_isl (s : State) :
    islOf (bumpGen s) = islOf s := rfl

@[simp] theorem updAlmout_isl (s : State) :
    islOf (updAlmout s) = islOf s := by simp [updAlmout]

@[simp] theorem noteSys_isl (s : State) :
    islOf (noteSys s) = islOf s := rfl

@[simp] theorem setTone_isl (s : State) (n : Nat) (on : Bool) :
    islOf (setTone s n on) = islOf s := by simp [setTone]

@[simp] theorem raiseSysAlarm_isl (s : State) :
    islOf (raiseSysAlarm s) = islOf s := by simp [raiseSysAlarm]

@[simp] theorem fatalResponse_isl (s : State) :
    islOf (fatalResponse s) = islOf s := by simp [fatalResponse]

@[simp] theorem faultEvents_isl (s : State) (fc : Nat) (cls : Nat) (opn : Nat) (stamp : Time) :
    islOf (faultEvents s fc cls opn stamp) = islOf s := by
  unfold faultEvents
  split <;> simp

@[simp] theorem countCorrected_isl (s : State) (isl : Nat) :
    islOf (countCorrected s isl) = islOf s := rfl

@[simp] theorem reportAt_isl (s : State) (isl : Nat) (src : Nat) (loss : Bool) (stamp : Time) :
    islOf (reportAt s isl src loss stamp) = islOf s := by simp [reportAt]

@[simp] theorem report_isl (s : State) (isl : Nat) (src : Nat) (loss : Bool) :
    islOf (report s isl src loss) = islOf s := by simp [report]

@[simp] theorem updFaultPin_isl (s : State) :
    islOf (updFaultPin s) = islOf s := by simp [updFaultPin]

@[simp] theorem closeLoss_isl (s : State) (fc : Nat) :
    islOf (closeLoss s fc) = islOf s := by simp [closeLoss]

@[simp] theorem closeOneLoss_isl (s : State) (fc : Nat) :
    islOf (closeOneLoss s fc) = islOf s := by simp [closeOneLoss]

@[simp] theorem ackSysAlarm_isl (s : State) :
    islOf (ackSysAlarm s) = islOf s := by simp [ackSysAlarm]

@[simp] theorem worldViolation_isl (s : State) (isl : Nat) (ini : Nat) :
    islOf (worldViolation s isl ini) = islOf s := rfl

@[simp] theorem countRefused_isl (s : State) (ini : Nat) :
    islOf (countRefused s ini) = islOf s := rfl

@[simp] theorem State.dropGroup_isl (s : State) :
    islOf (State.dropGroup s) = islOf s := rfl

@[simp] theorem State.dropHead_isl (s : State) :
    islOf (State.dropHead s) = islOf s := rfl

@[simp] theorem holdPerf_isl (s : State) (i : Nat) (fn : Nat) :
    islOf (holdPerf s i fn) = islOf s := by simp [holdPerf, foldl_isl]

@[simp] theorem setFnState_isl (s : State) (fn : Nat) (new : Nat) :
    islOf (setFnState s fn new) = islOf s := by simp [setFnState]

/-! ### Dram -/

@[simp] theorem takeLine_isl (s : State) (line : Nat) (dirty : Bool) :
    islOf (takeLine s line dirty) = islOf s := by simp [takeLine]

@[simp] theorem waitChan_isl (s : State) (id : Nat) (c : Nat) (put : optParam (Option (Nat × List Byte × List Nat)) none) :
    islOf (waitChan s id c put) = islOf s := rfl

@[simp] theorem freezeChan_isl (s : State) (c : Nat) (r : MemReq) (syn : Nat) :
    islOf (freezeChan s c r syn) = islOf s := by simp [freezeChan]

@[simp] theorem readWord_isl (s : State) (fn : Nat) (a : Nat) (merge : Bool) :
    islOf (readWord s fn a merge) = islOf s := by
  unfold readWord; dsimp only
  (repeat' split) <;> simp

@[simp] theorem readLine_isl (s : State) (fn : Nat) (a : Nat) :
    islOf (readLine s fn a) = islOf s := by
  unfold readLine
  split <;> simp

@[simp] theorem readRange_isl (s : State) (fn : Nat) (a : Nat) (n : Nat) :
    islOf (readRange s fn a n) = islOf s := by simp [readRange, foldl_isl]

@[simp] theorem withMem_isl (s : State) (f : Flight) (reads : List (Nat × Nat)) (writes : List (Nat × Nat)) (k : State → State) (hk : ∀ s, islOf (k s) = islOf s) :
    islOf (withMem s f reads writes k) = islOf s := by
  unfold withMem
  dsimp only
  split
  · simp
  · split
    · simp
    · split
      · simp [foldl_isl]
      · rw [hk]; simp [foldl_isl]

@[simp] theorem memPut_isl (s : State) (fn : Nat) (a : Nat) (v : Byte) :
    islOf (memPut s fn a v) = islOf s := by
  unfold memPut
  split <;> simp

@[simp] theorem memPuts_isl (s : State) (fn : Nat) (a : Nat) (x3 : List Byte) :
    islOf (memPuts s fn a x3) = islOf s := by
  induction x3 generalizing s a with
  | nil => rfl
  | cons v r ih => unfold memPuts; simp [ih]

@[simp] theorem memWrite_isl (s : State) (fn : Nat) (a : Nat) (l : List Byte) :
    islOf (memWrite s fn a l) = islOf s := by simp [memWrite]

@[simp] theorem withWrite_isl (s : State) (f : Flight) (a : Nat) (l : List Byte) (pay : List Nat) :
    islOf (withWrite s f a l pay) = islOf s := by
  unfold withWrite; dsimp only
  (repeat' split) <;> simp

@[simp] theorem startFill_isl (s : State) (p : Nat) (after : Nat) (fl : Option Nat) :
    islOf (startFill s p after fl) = islOf s := rfl

@[simp] theorem markLost_isl (s : State) (p : Nat) (unfilled : Bool) :
    islOf (markLost s p unfilled) = islOf s := rfl

@[simp] theorem lostEvent_isl (s : State) (p : Nat) (c : Nat) :
    islOf (lostEvent s p c) = islOf s := by simp [lostEvent]

@[simp] theorem loseParts_isl (s : State) (ps : List Nat) (chan : Nat → Nat) (unfilled : Bool) :
    islOf (loseParts s ps chan unfilled) = islOf s := by simp [loseParts, foldl_isl]

@[simp] theorem losePipelines_isl (s : State) (c : Nat) :
    islOf (losePipelines s c) = islOf s := by simp [losePipelines, foldl_isl]

/-! ### Rings -/

@[simp] theorem discardDoorbell_isl (s : State) (fn : Nat) (q : Nat) (cq : Bool) (w : Word) :
    islOf (discardDoorbell s fn q cq w) = islOf s := by simp [discardDoorbell]

@[simp] theorem countHeld_isl (s : State) (c : Cmd) (st : Nat) :
    islOf (countHeld s c st) = islOf s := by simp [countHeld]

@[simp] theorem consume_isl (s : State) (c : Cmd) :
    islOf (consume s c) = islOf s := rfl

@[simp] theorem execute_isl (s : State) (p : OpSpec) (f : Flight) (hp : ∀ s f, islOf (p.run s f) = islOf s) :
    islOf (execute s p f) = islOf s := by
  unfold execute
  split
  · simp
  · rw [hp, holdPerf_isl]

@[simp] theorem startCmd_isl (s : State) (p : OpSpec) (c : Cmd) (hp : ∀ s f, islOf (p.run s f) = islOf s) :
    islOf (startCmd s p c) = islOf s := by
  unfold startCmd
  repeat' first
    | (simp [islView_isl, hp]; done)
    | (simp [foldl_isl, foldl_fst_isl, islView_isl, hp]; done)
    | intro _ _
    | intro _
    | rw [foldl_isl]
    | rw [foldl_fst_isl]
    | rw [execute_isl]
    | split
    | (apply isl_congr <;> simp [islView_isl, hp]; done)
    | (simp; first | rw [foldl_isl] | rw [foldl_fst_isl] | rw [execute_isl] | split | (apply isl_congr <;> simp [islView_isl, hp]; done))
    | with_reducible rfl

@[simp] theorem recheck_isl (s : State) (p : OpSpec) (f : Flight) (hp : ∀ s f, islOf (p.run s f) = islOf s) :
    islOf (recheck s p f) = islOf s := by
  unfold recheck
  split <;> simp [hp]

@[simp] theorem State.modFlight_isl (s : State) (id : Nat) (g : Flight → Flight) :
    islOf (State.modFlight s id g) = islOf s := rfl

@[simp] theorem resume_isl (s : State) (p : OpSpec) (f : Flight) (hp : ∀ s f, islOf (p.run s f) = islOf s) :
    islOf (resume s p f) = islOf s := by
  unfold resume
  exact (recheck_isl _ p _ hp).trans rfl

/-! ### Plane -/

@[simp] theorem fixStore_isl (s : State) (b : Bool) (ws : List Nat) :
    islOf (fixStore s b ws) = islOf s := by
  unfold fixStore
  repeat' first
    | (simp [islView_isl]; done)
    | (simp [foldl_isl, foldl_fst_isl, islView_isl]; done)
    | intro _ _
    | intro _
    | rw [foldl_isl]
    | rw [foldl_fst_isl]
    | split
    | (apply isl_congr <;> simp [islView_isl]; done)
    | (simp; first | rw [foldl_isl] | rw [foldl_fst_isl] | split | (apply isl_congr <;> simp [islView_isl]; done))
    | with_reducible rfl

@[simp] theorem readLists_isl (s : State) (bases : List Nat) :
    islOf (readLists s bases) = islOf s := by simp [readLists]

/-! ### Relocate -/

@[simp] theorem sendSafety_isl (s : State) (h : Nat) (p : Nat) (d7 : Nat) :
    islOf (sendSafety s h p d7) = islOf s := by simp [sendSafety, foldl_isl]

@[simp] theorem dropLoss_isl (s : State) (h : Nat) :
    islOf (dropLoss s h) = islOf s := by simp [dropLoss]

@[simp] theorem relocate_isl (s : State) (h : Nat) (cause : Nat) :
    islOf (relocate s h cause) = islOf s := by simp [relocate]

@[simp] theorem endRelocation_isl (s : State) (h : Nat) :
    islOf (endRelocation s h) = islOf s := by simp [endRelocation]

@[simp] theorem linkLost_isl (s : State) (h : Nat) :
    islOf (linkLost s h) = islOf s := by simp [linkLost]

/-! ### Bins -/

@[simp] theorem touch_isl (s : State) (c : Nat) (a : Nat) (n : Nat) :
    islOf (touch s c a n) = islOf s := by
  unfold touch; dsimp only
  (repeat' split) <;> simp

@[simp] theorem chdRead_isl (s : State) (c : Nat) (a : Nat) (n : Nat) :
    islOf (chdRead s c a n) = islOf s := by simp [chdRead]

@[simp] theorem chdWrite_isl (s : State) (c : Nat) (a : Nat) (l : List Byte) :
    islOf (chdWrite s c a l) = islOf s := by simp [chdWrite]

@[simp] theorem writeBack_isl (s : State) :
    islOf (writeBack s) = islOf s := by simp [writeBack, foldl_isl]

@[simp] theorem spillTile_isl (c : Nat) (p : Pass) (s : State) (tile : Nat) :
    islOf (spillTile c p s tile) = islOf s := by simp [spillTile, foldl_isl]

@[simp] theorem partialRender_isl (s : State) (c : Nat) (p : Pass) :
    islOf ((partialRender s c p).1) = islOf s := by simp [partialRender, foldl_isl]

@[simp] theorem binInto_isl (attrs : Nat) (q : BinPrim) (c : Nat) (a : State × Pass) (tiles : List Nat) :
    islOf (binInto attrs q c a tiles).1 = islOf a.1 := by
  unfold binInto
  dsimp only
  split <;> simp

@[simp] theorem binPrim_isl (attrs c : Nat) (a : State × Pass) (q : BinPrim) :
    islOf (binPrim attrs c a q).1 = islOf a.1 := by
  unfold binPrim
  dsimp only
  split
  · simp
  · refine foldl_fst_isl _ (fun b k => ?_) _ _
    split <;> simp

@[simp] theorem binDraw_isl (s : State) (c : Nat) (args : List Nat) :
    islOf (binDraw s c args) = islOf s := by
  unfold binDraw
  split
  · rfl
  · dsimp only
    rw [State.modCtx_isl, foldl_fst_isl _ (by simp), State.drawn_isl]

@[simp] theorem putElement_isl (c : Nat) (p : Pass) (tile : Nat) (a : Nat) (smp : Nat) (l : List Nat) (s : State) (i : Nat) :
    islOf (putElement c p tile a smp l s i) = islOf s := by simp [putElement]

@[simp] theorem putBlock_isl (c : Nat) (p : Pass) (tile : Nat) (a : Nat) (smp : Nat) (l : List Nat) (s : State) (k : Nat) :
    islOf (putBlock c p tile a smp l s k) = islOf s := by simp [putBlock]

@[simp] theorem storePlane_isl (c : Nat) (p : Pass) (tile : Nat) (l : List Nat) (s : State) (e : (Nat × Nat) × Nat) :
    islOf (storePlane c p tile l s e) = islOf s := by simp [storePlane, foldl_isl]

@[simp] theorem finishTile_isl (c : Nat) (p : Pass) (s : State) (tile : Nat) :
    islOf (finishTile c p s tile) = islOf s := by simp [finishTile, foldl_isl]

@[simp] theorem endPass_isl (s : State) (c : Nat) :
    islOf (endPass s c) = islOf s := by
  unfold endPass
  repeat' first
    | (simp [foldl_isl, foldl_fst_isl, islView_isl]; done)
    | split

@[simp] theorem robust_isl (s : State) :
    islOf (robust s) = islOf s := rfl

@[simp] theorem sampleSparse_isl (s : State) (c : Nat) (g : SparseImage) (ts : List Texel) :
    islOf ((sampleSparse s c g ts).1) = islOf s := by simp [sampleSparse, foldl_isl]

@[simp] theorem shaderAccess_isl (s : State) (c : Nat) (q : TaperAccess) :
    islOf (shaderAccess s c q).1 = islOf s := by
  unfold shaderAccess robust
  cases q <;> dsimp only <;> (try split) <;> simp

@[simp] theorem runShaders_isl (s : State) (c : Nat) (args : List Nat) :
    islOf (runShaders s c args) = islOf s := by
  unfold runShaders
  dsimp only
  rw [foldl_fst_isl _ (by simp), State.drawn_isl]

@[simp] theorem fillTapers_isl (s : State) (c : Nat) :
    islOf (fillTapers s c) = islOf s := by
  unfold fillTapers
  repeat' first
    | (simp [islView_isl]; done)
    | (simp [foldl_isl, foldl_fst_isl, islView_isl]; done)
    | intro _ _
    | intro _
    | rw [foldl_isl]
    | rw [foldl_fst_isl]
    | split
    | (apply isl_congr <;> simp [islView_isl]; done)
    | (simp; first | rw [foldl_isl] | rw [foldl_fst_isl] | split | (apply isl_congr <;> simp [islView_isl]; done))
    | with_reducible rfl

@[simp] theorem drawOne_isl (s : State) (c : Nat) (args : List Nat) :
    islOf (drawOne s c args) = islOf s := by simp [drawOne]

@[simp] theorem clampCount_isl (s : State) (n : Nat) : islOf (clampCount s n).1 = islOf s := by
  unfold clampCount
  split <;> simp

@[simp] theorem indirectArgs_isl (s : State) (c a n : Nat) : islOf (indirectArgs s c a n).1 = islOf s := by
  unfold indirectArgs
  dsimp only
  split <;> simp

@[simp] theorem runDraw_isl (s : State) (c : Nat) (p : Packet) :
    islOf (runDraw s c p) = islOf s := by simp [runDraw, foldl_isl]

@[simp] theorem runDispatch_isl (s : State) (c : Nat) (p : Packet) :
    islOf (runDispatch s c p) = islOf s := by
  unfold runDispatch
  dsimp only
  split
  · simp
  · rw [runShaders_isl, foldl_fst_isl _ (by simp), indirectArgs_isl]

/-! ### Tapers -/

@[simp] theorem runPacket_isl (s : State) (c : Nat) (p : Packet) :
    islOf (runPacket s c p) = islOf s := by
  unfold runPacket; dsimp only
  (repeat' split) <;> simp

@[simp] theorem releaseTapers_isl (s : State) (c : Nat) :
    islOf (releaseTapers s c) = islOf s := by
  unfold releaseTapers
  repeat' first
    | (simp [islView_isl]; done)
    | (simp [foldl_isl, foldl_fst_isl, islView_isl]; done)
    | intro _ _
    | intro _
    | rw [foldl_isl]
    | rw [foldl_fst_isl]
    | split
    | (apply isl_congr <;> simp [islView_isl]; done)
    | (simp; first | rw [foldl_isl] | rw [foldl_fst_isl] | split | (apply isl_congr <;> simp [islView_isl]; done))
    | with_reducible rfl

@[simp] theorem runPackets_isl (s : State) (c : Nat) (x2 : List Packet) :
    islOf (runPackets s c x2) = islOf s := by
  induction x2 generalizing s with
  | nil => simp [runPackets]
  | cons p r ih =>
    unfold runPackets
    split
    · simp
    · extract_lets wait s1
      have h1 : islOf s1 = islOf s := by
        simp only [s1]
        split <;> simp
      clear_value s1
      split
      · simp
      · split
        · simpa using h1
        · split
          · simpa using h1
          · rw [ih, h1]

@[simp] theorem book_isl (s : State) :
    islOf (book s) = islOf s := by simp [book, foldl_isl]

@[simp] theorem stopTapers_isl (s : State) (c : Nat) (ts : List Nat) :
    islOf (stopTapers s c ts) = islOf s := by
  unfold stopTapers
  repeat' first
    | (simp [islView_isl]; done)
    | (simp [foldl_isl, foldl_fst_isl, islView_isl]; done)
    | intro _ _
    | intro _
    | rw [foldl_isl]
    | rw [foldl_fst_isl]
    | split
    | (apply isl_congr <;> simp [islView_isl]; done)
    | (simp; first | rw [foldl_isl] | rw [foldl_fst_isl] | split | (apply isl_congr <;> simp [islView_isl]; done))
    | with_reducible rfl

@[simp] theorem preempt_isl (s : State) (c : Nat) (ts : List Nat) :
    islOf (preempt s c ts) = islOf s := by simp [preempt]

@[simp] theorem giveTaper_isl (s : State) (t : Nat) (c : Nat) :
    islOf (giveTaper s t c) = islOf s := by
  unfold giveTaper
  extract_lets x s0 work s1
  have h0 : islOf s0 = islOf s := by
    simp only [s0]
    split
    · exact chdRead_isl _ _ _ _
    · rfl
  have h1 : islOf s1 = islOf s := by
    simp only [s1]
    clear_value s0 work
    exact h0
  clear_value s1
  split
  · exact (foldl_isl _ (fun _ _ => preempt_isl _ _ _) _ _).trans h1
  · exact h1

@[simp] theorem assignTapers_isl (s : State) :
    islOf (assignTapers s) = islOf s := by
  unfold assignTapers
  repeat' first
    | (simp [foldl_isl, foldl_fst_isl, islView_isl]; done)
    | intro _ _
    | rw [foldl_isl]
    | split

@[simp] theorem displace_isl (s : State) :
    islOf (displace s) = islOf s := by simp [displace, foldl_isl]

@[simp] theorem rebalance_isl (s : State) :
    islOf (rebalance s) = islOf s := by
  unfold rebalance
  repeat' first
    | (simp [islView_isl]; done)
    | (simp [foldl_isl, foldl_fst_isl, islView_isl]; done)
    | intro _ _
    | intro _
    | rw [foldl_isl]
    | rw [foldl_fst_isl]
    | split
    | (apply isl_congr <;> simp [islView_isl]; done)
    | (simp; first | rw [foldl_isl] | rw [foldl_fst_isl] | split | (apply isl_congr <;> simp [islView_isl]; done))
    | with_reducible rfl

@[simp] theorem preemptShort_isl (s : State) :
    islOf (preemptShort s) = islOf s := by simp [preemptShort, foldl_isl]

@[simp] theorem saveDone_isl (s : State) (c : Nat) :
    islOf (saveDone s c) = islOf s := by
  unfold saveDone
  repeat' first
    | (simp [islView_isl]; done)
    | (simp [foldl_isl, foldl_fst_isl, islView_isl]; done)
    | intro _ _
    | intro _
    | rw [foldl_isl]
    | rw [foldl_fst_isl]
    | split
    | (apply isl_congr <;> simp [islView_isl]; done)
    | (simp; first | rw [foldl_isl] | rw [foldl_fst_isl] | split | (apply isl_congr <;> simp [islView_isl]; done))
    | with_reducible rfl

/-! ### Chandelier -/

@[simp] theorem beginCtx_isl (x0 : Nat) (x1 : State) (x2 : Nat) :
    islOf (beginCtx x0 x1 x2) = islOf x1 := by
  induction x0 generalizing x1 with
  | zero => rfl
  | succ k ih =>
    unfold beginCtx
    dsimp only
    repeat' first
      | (simp [ih]; done)
      | (simp [ih, foldl_isl]; done)
      | split

@[simp] theorem reapPipelines_isl (s : State) :
    islOf (reapPipelines s) = islOf s := rfl

@[simp] theorem leaveCtx_isl (s : State) (c : Nat) :
    islOf (leaveCtx s c) = islOf s := by simp [leaveCtx]

@[simp] theorem finishSub_isl (s : State) (c : Nat) (status : Nat) :
    islOf (finishSub s c status) = islOf s := by
  unfold finishSub; dsimp only
  (repeat' split) <;> simp

@[simp] theorem chdLoop_isl (x0 : Nat) (x1 : State) :
    islOf (chdLoop x0 x1) = islOf x1 := by
  induction x0 generalizing x1 with
  | zero => rfl
  | succ k ih =>
    unfold chdLoop
    extract_lets s1 s2 s3 bad s4
    have h1 : islOf s1 = islOf x1 := by simp [s1, foldl_isl]
    have h2 : islOf s2 = islOf x1 := by simp [s2, h1]
    have h3 : islOf s3 = islOf x1 := by simp [s3, foldl_isl, h2]
    have h4 : islOf s4 = islOf x1 := by simp [s4, foldl_isl, h3]
    clear_value s4
    split
    · rw [ih, h4]
    · exact h4

@[simp] theorem kickChandelier_isl (s : State) :
    islOf (kickChandelier s) = islOf s := by simp [kickChandelier]

@[simp] theorem runSubmit_isl (s : State) (f : Flight) :
    islOf (runSubmit s f) = islOf s := by
  unfold runSubmit
  split <;> simp

@[simp] theorem endSubmission_isl (s : State) (c : Nat) (status : Nat) :
    islOf (endSubmission s c status) = islOf s := by simp [endSubmission]

@[simp] theorem undoPreempt_isl (s : State) (c : Nat) :
    islOf (undoPreempt s c) = islOf s := by simp [undoPreempt]

@[simp] theorem runPipeline_isl (s : State) (f : Flight) :
    islOf (runPipeline s f) = islOf s := by
  unfold runPipeline
  repeat' first
    | (simp [islView_isl]; done)
    | (simp [foldl_isl, foldl_fst_isl, islView_isl]; done)
    | intro _ _
    | intro _
    | rw [foldl_isl]
    | rw [foldl_fst_isl]
    | rw [withMem_isl]
    | split
    | (apply isl_congr <;> simp [islView_isl]; done)
    | (simp; first | rw [foldl_isl] | rw [foldl_fst_isl] | rw [withMem_isl] | split | (apply isl_congr <;> simp [islView_isl]; done))
    | with_reducible rfl

@[simp] theorem runCopy_isl (s : State) (f : Flight) :
    islOf (runCopy s f) = islOf s := by simp [runCopy]

@[simp] theorem bindPage_isl (fn : Nat) (table : Nat) (map : Nat) (s : State) (e : Nat × Bool × Nat) :
    islOf (bindPage fn table map s e) = islOf s := by simp [bindPage]

@[simp] theorem runSparse_isl (s : State) (f : Flight) :
    islOf (runSparse s f) = islOf s := by
  unfold runSparse
  repeat' first
    | (simp [islView_isl]; done)
    | (simp [foldl_isl, foldl_fst_isl, islView_isl]; done)
    | intro _ _
    | intro _
    | rw [foldl_isl]
    | rw [foldl_fst_isl]
    | rw [withMem_isl]
    | split
    | (apply isl_congr <;> simp [islView_isl]; done)
    | (simp; first | rw [foldl_isl] | rw [foldl_fst_isl] | rw [withMem_isl] | split | (apply isl_congr <;> simp [islView_isl]; done))
    | with_reducible rfl

@[simp] theorem grantCtxs_isl (s : State) (fn : Nat) (n : Nat) :
    islOf (grantCtxs s fn n) = islOf s := by
  unfold grantCtxs
  repeat' first
    | (simp [foldl_isl, foldl_fst_isl, islView_isl]; done)
    | intro _ _
    | rw [foldl_isl]
    | split

@[simp] theorem freeCtxs_isl (s : State) (fn : Nat) :
    islOf (freeCtxs s fn) = islOf s := by
  unfold freeCtxs
  repeat' first
    | (simp [foldl_isl, foldl_fst_isl, islView_isl]; done)
    | intro _ _
    | rw [foldl_isl]
    | split

@[simp] theorem clearCtxs_isl (s : State) (fn : Nat) :
    islOf (clearCtxs s fn) = islOf s := by simp [clearCtxs, foldl_isl]

@[simp] theorem pruneCtxs_isl (s : State) :
    islOf (pruneCtxs s) = islOf s := by simp [pruneCtxs, foldl_isl]

@[simp] theorem dropPipelines_isl (s : State) (fn : Nat) :
    islOf (dropPipelines s fn) = islOf s := rfl

@[simp] theorem loseCtx_isl (isl : Nat) (s : State) (c : Nat) :
    islOf (loseCtx isl s c) = islOf s := by
  unfold loseCtx; dsimp only
  (repeat' split) <;> simp

@[simp] theorem resetChandelier_isl (s : State) (isl : Nat) :
    islOf (resetChandelier s isl) = islOf s := by simp [resetChandelier, foldl_isl]

/-! ### Haptics -/

@[simp] theorem endEffect_isl (s : State) (ch : Nat) (e : Effect) :
    islOf (endEffect s ch e) = islOf s := by
  unfold endEffect
  split <;> simp

@[simp] theorem endStops_isl (s : State) (ch : Nat) :
    islOf (endStops s ch) = islOf s := by simp [endStops, foldl_isl]

@[simp] theorem startEffect_isl (s : State) (ch : Nat) (e : Effect) :
    islOf (startEffect s ch e) = islOf s := rfl

@[simp] theorem brakeNow_isl (s : State) (ch : Nat) (pre : Bool) :
    islOf (brakeNow s ch pre) = islOf s := by
  unfold brakeNow
  split <;> simp

@[simp] theorem takeOver_isl (s : State) (ch : Nat) (e : Effect) :
    islOf (takeOver s ch e) = islOf s := by
  unfold takeOver; dsimp only
  split <;> simp

@[simp] theorem requestEffect_isl (s : State) (ch : Nat) (e : Effect) :
    islOf (requestEffect s ch e).1 = islOf s := by
  unfold requestEffect
  dsimp only
  repeat' first
    | (simp; done)
    | split

@[simp] theorem hapticAlarm_isl (s : State) (ch : Nat) (effect : Nat) :
    islOf (hapticAlarm s ch effect) = islOf s := by simp [hapticAlarm]

@[simp] theorem playEffect_isl (s : State) (f : Flight) :
    islOf (playEffect s f) = islOf s := by simp [playEffect]

@[simp] theorem armChannel_isl (s : State) (f : Flight) :
    islOf (armChannel s f) = islOf s := by simp [armChannel]

@[simp] theorem dropWaiting_isl (s : State) (ch : Nat) (e : Effect) (status : Nat) (pay : List Nat) :
    islOf (dropWaiting s ch e status pay) = islOf s := by
  unfold dropWaiting
  split <;> simp

@[simp] theorem beginWaiting_isl (s : State) (ch : Nat) (e : Effect) :
    islOf (beginWaiting s ch e) = islOf s := by
  unfold beginWaiting
  split <;> simp

@[simp] theorem atCrossing_isl (s : State) (ch : Nat) :
    islOf (atCrossing s ch) = islOf s := by
  unfold atCrossing
  split <;> simp

@[simp] theorem stopEffects_isl (s : State) (p : Effect → Bool) :
    islOf (stopEffects s p) = islOf s := by
  unfold stopEffects
  repeat' first
    | (simp [foldl_isl, foldl_fst_isl, islView_isl]; done)
    | intro _ _
    | rw [foldl_isl]
    | split

@[simp] theorem releaseHaptics_isl (s : State) (fn : Nat) :
    islOf (releaseHaptics s fn) = islOf s := by
  unfold releaseHaptics
  repeat' first
    | (simp [islView_isl]; done)
    | (simp [foldl_isl, foldl_fst_isl, islView_isl]; done)
    | intro _ _
    | intro _
    | rw [foldl_isl]
    | rw [foldl_fst_isl]
    | split
    | (apply isl_congr <;> simp [islView_isl]; done)
    | (simp; first | rw [foldl_isl] | rw [foldl_fst_isl] | split | (apply isl_congr <;> simp [islView_isl]; done))
    | with_reducible rfl

/-! ### Lists -/

@[simp] theorem fileDirectory_isl (s : State) (h : Nat) :
    islOf (fileDirectory s h) = islOf s := by
  unfold fileDirectory
  apply isl_congr <;> simp [islView_isl]

@[simp] theorem writeStore_isl (s : State) (a : Nat) (l : List Byte) :
    islOf (writeStore s a l) = islOf s := by
  unfold writeStore
  apply isl_congr <;> simp [islView_isl]

@[simp] theorem applyUpdate_isl (s : State) (f : Flight) :
    islOf (applyUpdate s f) = islOf s := by
  unfold applyUpdate
  extract_lets c h bank base s0 s1 restore s2
  have hr : ∀ t, islOf (restore t) = islOf t := fun t => by simp only [restore]; split <;> rfl
  have h0 : islOf s0 = islOf s := writeStore_isl _ _ _
  clear_value s0
  have h1 : islOf s1 = islOf s := by
    simp only [s1]
    split
    · exact (fileDirectory_isl _ _).trans h0
    · exact h0
  have h2 : islOf s2 = islOf s := (readLists_isl _ _).trans h1
  clear_value s1 restore s2
  split
  · split
    · rw [complete_isl, h2]
    · rw [hr, State.modSafe_isl, h2]
  · rw [complete_isl, hr, h1]

@[simp] theorem refreshBank_isl (s : State) (h : Nat) :
    islOf (refreshBank s h) = islOf s := by
  unfold refreshBank
  extract_lets bank s1 s2
  have h2 : islOf s2 = islOf s := by simp [s1, s2]
  clear_value s2
  split
  · rfl
  · rw [fileDirectory_isl, State.modSafe_isl]
    exact Eq.trans rfl h2

@[simp] theorem runUpdatesN_isl (s : State) (x1 : Nat) :
    islOf (runUpdatesN s x1) = islOf s := by
  induction x1 generalizing s with
  | zero => rfl
  | succ n ih =>
    unfold runUpdatesN
    split
    · rfl
    · split
      · rfl
      · dsimp only
        split
        · exact (ih _).trans rfl
        · split
          · rfl
          · exact (ih _).trans ((recheck_isl _ _ _ applyUpdate_isl).trans rfl)

@[simp] theorem runUpdates_isl (s : State) :
    islOf (runUpdates s) = islOf s := by simp [runUpdates, foldl_isl]

@[simp] theorem unresolved_isl (s : State) (p : Nat) :
    islOf (unresolved s p) = islOf s := by simp [unresolved, foldl_isl]

@[simp] theorem outOfService_isl (s : State) (p : Nat) (b : Bool) (new : Nat) :
    islOf (outOfService s p b new) = islOf s := rfl

@[simp] theorem rebuild_isl (s : State) (p : Nat) (b : Bool) :
    islOf (rebuild s p b) = islOf s := by simp [rebuild]

@[simp] theorem renderLine_isl (s : State) (h : Nat) (y : Nat) (nxt : Bool) (d : PassFault) :
    islOf (renderLine s h y nxt d) = islOf s := by simp [renderLine]

@[simp] theorem readyRow_isl (s : State) (h : Nat) (y : Nat) :
    islOf (readyRow s h y) = islOf s := by simp [readyRow]

/-! ### Heads -/

@[simp] theorem headWrite_isl (s : State) (fn : Nat) (h : Nat) (sec : Bool) (k : State → State) (hk : ∀ s, islOf (k s) = islOf s) :
    islOf (headWrite s fn h sec k) = islOf s := by simp [headWrite, hk]

@[simp] theorem setLink_isl (s : State) (h : Nat) (link : Nat) (rate : Nat) (lanes : Nat) :
    islOf (setLink s h link rate lanes) = islOf s := rfl

@[simp] theorem showSends_isl (old : State) (s : State) (h : Nat) :
    islOf (showSends old s h) = islOf s := by simp [showSends]

@[simp] theorem linkEvent_isl (s : State) (h : Nat) (cause : Nat) :
    islOf (linkEvent s h cause) = islOf s := by simp [linkEvent]

@[simp] theorem startTiming_isl (s : State) (h : Nat) :
    islOf (startTiming s h) = islOf s := rfl

@[simp] theorem trainingFailed_isl (s : State) (h : Nat) (flight : Option Nat) (attempts : Nat) :
    islOf (trainingFailed s h flight attempts) = islOf s := by
  unfold trainingFailed
  split <;> simp

@[simp] theorem train_isl (s : State) (h : Nat) (cause : Nat) (cands : List (Nat × Nat)) (flight : Option Nat) :
    islOf (train s h cause cands flight) = islOf s := by simp [train]

@[simp] theorem bootTrained_isl (s : State) (h : Nat) (up : Option (Nat × Nat)) :
    islOf (bootTrained s h up) = islOf s := by
  unfold bootTrained
  split <;> simp

@[simp] theorem trainingOver_isl (s : State) (h : Nat) (tr : Training) (attempts : Nat) :
    islOf (trainingOver s h tr attempts) = islOf s := by simp [trainingOver]

@[simp] theorem trainedOn_isl (s : State) (h : Nat) (tr : Training) (c : Nat × Nat) :
    islOf (trainedOn s h tr c) = islOf s := by
  unfold trainedOn; dsimp only
  (repeat' split) <;> simp

@[simp] theorem turnOff_isl (s : State) (h : Nat) :
    islOf (turnOff s h) = islOf s := by
  unfold turnOff
  repeat' first
    | (simp [islView_isl]; done)
    | (simp [foldl_isl, foldl_fst_isl, islView_isl]; done)
    | intro _ _
    | intro _
    | rw [foldl_isl]
    | rw [foldl_fst_isl]
    | split
    | (apply isl_congr <;> simp [islView_isl]; done)
    | (simp; first | rw [foldl_isl] | rw [foldl_fst_isl] | split | (apply isl_congr <;> simp [islView_isl]; done))
    | with_reducible rfl

@[simp] theorem dropSlots_isl (s : State) (h : Nat) :
    islOf (dropSlots s h) = islOf s := by
  unfold dropSlots
  repeat' first
    | (simp [islView_isl]; done)
    | (simp [foldl_isl, foldl_fst_isl, islView_isl]; done)
    | intro _ _
    | intro _
    | rw [foldl_isl]
    | rw [foldl_fst_isl]
    | split
    | (apply isl_congr <;> simp [islView_isl]; done)
    | (simp; first | rw [foldl_isl] | rw [foldl_fst_isl] | split | (apply isl_congr <;> simp [islView_isl]; done))
    | with_reducible rfl

@[simp] theorem applyConfig_isl (s : State) (f : Flight) :
    islOf (applyConfig s f) = islOf s := by simp [applyConfig]

@[simp] theorem pwmEnd_isl (s : State) (h : Nat) :
    islOf (pwmEnd s h) = islOf s := rfl

@[simp] theorem lockEvent_isl (s : State) (h : Nat) (old : Nat) :
    islOf (lockEvent s h old) = islOf s := by simp [lockEvent]

@[simp] theorem lineLock_isl (s : State) (h : Nat) :
    islOf (lineLock s h) = islOf s := by simp [lineLock]

@[simp] theorem camReturns_isl (s : State) (port : Nat) :
    islOf (camReturns s port) = islOf s := by simp [camReturns, foldl_isl]

@[simp] theorem mapChecks_isl (s : State) (h : Nat) (g : Check → Check) :
    islOf (mapChecks s h g) = islOf s := rfl

@[simp] theorem frameStart_isl (s : State) (h : Nat) (loopOk : Bool) :
    islOf (frameStart s h loopOk) = islOf s := by
  unfold frameStart; dsimp only
  split <;> simp

@[simp] theorem completeDone_isl (s : State) (h : Nat) :
    islOf (completeDone s h) = islOf s := by simp [completeDone, foldl_isl]

@[simp] theorem frozenEvent_isl (s : State) (h : Nat) (k : Nat) (d7 : Nat) :
    islOf (frozenEvent s h k d7) = islOf s := by simp [frozenEvent, foldl_isl]

@[simp] theorem State.modCheck_isl (s : State) (h : Nat) (k : Nat) (g : Check → Check) :
    islOf (State.modCheck s h k g) = islOf s := rfl

@[simp] theorem freezeDetect_isl (s : State) (h : Nat) (i : Nat) (k : Check) (crc : Nat) :
    islOf (freezeDetect s h i k crc) = islOf s := by
  unfold freezeDetect
  split <;> simp

@[simp] theorem ckEnd_isl (s : State) (h : Nat) (i : Nat) (k : Check) :
    islOf (ckEnd s h i k) = islOf s := by simp [ckEnd]

@[simp] theorem safetyFrame_isl (s : State) (h : Nat) :
    islOf (safetyFrame s h) = islOf s := by
  unfold safetyFrame
  split <;> simp

@[simp] theorem releaseGroups_isl (s : State) :
    islOf (releaseGroups s) = islOf s := by
  unfold releaseGroups
  repeat' first
    | (simp [foldl_isl, foldl_fst_isl, islView_isl]; done)
    | intro _ _
    | rw [foldl_isl]
    | split

@[simp] theorem disableSlot_isl (s : State) (n : Nat) :
    islOf (disableSlot s n) = islOf s := rfl

@[simp] theorem applyEntry_isl (fn : Nat) (h : Nat) (s : State) (e : Layer) :
    islOf (applyEntry fn h s e) = islOf s := by simp [applyEntry]

@[simp] theorem applyLayers_isl (s : State) (h : Nat) (p : PFlip) :
    islOf (applyLayers s h p) = islOf s := by
  unfold applyLayers
  repeat' first
    | (simp [islView_isl]; done)
    | (simp [foldl_isl, foldl_fst_isl, islView_isl]; done)
    | intro _ _
    | intro _
    | rw [foldl_isl]
    | rw [foldl_fst_isl]
    | split
    | (apply isl_congr <;> simp [islView_isl]; done)
    | (simp; first | rw [foldl_isl] | rw [foldl_fst_isl] | split | (apply isl_congr <;> simp [islView_isl]; done))
    | with_reducible rfl

@[simp] theorem judge_isl (h : Nat) (L : Time) (x2 : State) (x3 : List PFlip) (x4 : List Nat) :
    islOf (judge h L x2 x3 x4) = islOf x2 := by
  induction x3 generalizing x2 x4 with
  | nil => rfl
  | cons p r ih =>
    unfold judge
    dsimp only
    split
    · simp [ih]
    · split <;> simp [ih]

@[simp] theorem applyCommit_isl (s : State) (h : Nat) (L : Time) :
    islOf (applyCommit s h L) = islOf s := by
  unfold applyCommit
  split <;> simp

@[simp] theorem latchRelocated_isl (s : State) (p : Nat) :
    islOf (latchRelocated s p) = islOf s := by simp [latchRelocated, foldl_isl]

@[simp] theorem latchPicture_isl (s : State) (h : Nat) (L : Time) :
    islOf (latchPicture s h L) = islOf s := by simp [latchPicture]

@[simp] theorem takeNight_isl (s : State) (h : Nat) :
    islOf (takeNight s h) = islOf s := rfl

@[simp] theorem latchHead_isl (s : State) (h : Nat) :
    islOf (latchHead s h) = islOf s := by
  unfold latchHead
  repeat' first
    | (simp [islView_isl]; done)
    | (simp [foldl_isl, foldl_fst_isl, islView_isl]; done)
    | intro _ _
    | intro _
    | rw [foldl_isl]
    | rw [foldl_fst_isl]
    | split
    | (apply isl_congr <;> simp [islView_isl]; done)
    | (simp; first | rw [foldl_isl] | rw [foldl_fst_isl] | split | (apply isl_congr <;> simp [islView_isl]; done))
    | with_reducible rfl

/-! ### Watchlamp -/

@[simp] theorem sendGuest_isl (s : State) (evCode : Nat) (d5 : Nat) (d6 : Nat) (d7 : Nat) :
    islOf (sendGuest s evCode d5 d6 d7) = islOf s := by
  unfold sendGuest
  split <;> simp

@[simp] theorem setWlMode_isl (s : State) (mode : Nat) (cause : Nat) :
    islOf (setWlMode s mode cause) = islOf s := by simp [setWlMode]

@[simp] theorem denyCommits_isl (s : State) :
    islOf (denyCommits s) = islOf s := by
  unfold denyCommits
  repeat' first
    | (simp [islView_isl]; done)
    | (simp [foldl_isl, foldl_fst_isl, islView_isl]; done)
    | intro _ _
    | intro _
    | rw [foldl_isl]
    | rw [foldl_fst_isl]
    | split
    | (apply isl_congr <;> simp [islView_isl]; done)
    | (simp; first | rw [foldl_isl] | rw [foldl_fst_isl] | split | (apply isl_congr <;> simp [islView_isl]; done))
    | with_reducible rfl

@[simp] theorem enterAutonomous_isl (s : State) (cause : Nat) (alarm : Bool) :
    islOf (enterAutonomous s cause alarm) = islOf s := by simp [enterAutonomous]

@[simp] theorem guestLost_isl (s : State) (fn : Nat) :
    islOf (guestLost s fn) = islOf s := by simp [guestLost]

@[simp] theorem wlWrite_isl (s : State) (fn : Nat) (k : State → State) (hk : ∀ s, islOf (k s) = islOf s) :
    islOf (wlWrite s fn k) = islOf s := by simp [wlWrite, hk]

@[simp] theorem State.modRule_isl (s : State) (r : Nat) (f : RuleSt → RuleSt) :
    islOf (State.modRule s r f) = islOf s := rfl

@[simp] theorem setRule_isl (s : State) (r : Nat) (rule : AlarmRule) (st : Nat) :
    islOf (setRule s r rule st) = islOf s := by simp [setRule]

@[simp] theorem evalRule_isl (s : State) (r : Nat) (rule : AlarmRule) :
    islOf (evalRule s r rule) = islOf s := by simp [evalRule]

@[simp] theorem evalRules_isl (s : State) (p : AlarmRule → Bool) :
    islOf (evalRules s p) = islOf s := by
  unfold evalRules
  repeat' first
    | (simp [foldl_isl, foldl_fst_isl, islView_isl]; done)
    | split

@[simp] theorem State.modSig_isl (s : State) (n : Nat) (f : Sig → Sig) :
    islOf (State.modSig s n f) = islOf s := rfl

@[simp] theorem acceptTelegram_isl (s : State) (n : Nat) (e : MapEntry) (p : List Byte) (stamp : Time) :
    islOf (acceptTelegram s n e p stamp) = islOf s := by simp [acceptTelegram]

@[simp] theorem noteStale_isl (s : State) (sig : Nat) :
    islOf (noteStale s sig) = islOf s := by
  unfold noteStale; dsimp only
  (repeat' split) <;> simp

@[simp] theorem passTelegram_isl (s : State) (p : MapEntry → Bool) (payload : List Byte) (stamp : Time) :
    islOf (passTelegram s p payload stamp) = islOf s := by
  unfold passTelegram
  split <;> simp

@[simp] theorem ackRule_isl (s : State) (r : Nat) :
    islOf (ackRule s r) = islOf s := by
  unfold ackRule
  split <;> simp

@[simp] theorem State.modPin_isl (s : State) (n : Nat) (f : AckPin → AckPin) :
    islOf (State.modPin s n f) = islOf s := rfl

@[simp] theorem wakeEvent_isl (s : State) :
    islOf (wakeEvent s) = islOf s := rfl

/-! ### Memory -/

@[simp] theorem dropChans_isl (s : State) (c : Nat) (cs : List Nat) :
    islOf (dropChans s c cs) = islOf s := by
  unfold dropChans
  repeat' first
    | (simp [foldl_isl, foldl_fst_isl, islView_isl]; done)
    | intro _ _
    | rw [foldl_isl]
    | split

@[simp] theorem failChan_isl (s : State) (c : Nat) :
    islOf (failChan s c) = islOf s := by simp [failChan]

@[simp] theorem updMemReady_isl (s : State) :
    islOf (updMemReady s) = islOf s := by simp [updMemReady]

@[simp] theorem fillCode_isl (s : State) :
    islOf (fillCode s) = islOf s := by simp [fillCode]

@[simp] theorem markedEvent_isl (c : Nat) (s : State) (e : Nat × Nat × Nat) :
    islOf (markedEvent c s e) = islOf s := by simp [markedEvent]

@[simp] theorem endRecovery_isl (s : State) (c : Nat) :
    islOf (endRecovery s c) = islOf s := by simp [endRecovery, foldl_isl]

@[simp] theorem refillChan_isl (s : State) (c : Nat) :
    islOf (refillChan s c) = islOf s := by
  unfold refillChan
  repeat' first
    | (simp [islView_isl]; done)
    | (simp [foldl_isl, foldl_fst_isl, islView_isl]; done)
    | intro _ _
    | intro _
    | rw [foldl_isl]
    | rw [foldl_fst_isl]
    | split
    | (apply isl_congr <;> simp [islView_isl]; done)
    | (simp; first | rw [foldl_isl] | rw [foldl_fst_isl] | split | (apply isl_congr <;> simp [islView_isl]; done))
    | with_reducible rfl

@[simp] theorem failRecovery_isl (s : State) (c : Nat) :
    islOf (failRecovery s c) = islOf s := by simp [failRecovery, foldl_isl]

@[simp] theorem endWaits_isl (s : State) (p : MemWait → Bool) (status : Nat) :
    islOf (endWaits s p status) = islOf s := by simp [endWaits]

@[simp] theorem clearChan_isl (s : State) (c : Nat) (status : Nat) :
    islOf (clearChan s c status) = islOf s := by
  unfold clearChan
  repeat' first
    | (simp [islView_isl]; done)
    | (simp [foldl_isl, foldl_fst_isl, islView_isl]; done)
    | intro _ _
    | intro _
    | rw [foldl_isl]
    | rw [foldl_fst_isl]
    | split
    | (apply isl_congr <;> simp [islView_isl]; done)
    | (simp; first | rw [foldl_isl] | rw [foldl_fst_isl] | split | (apply isl_congr <;> simp [islView_isl]; done))
    | with_reducible rfl

@[simp] theorem startScrub_isl (s : State) (c : Nat) (x : Scrub) :
    islOf (startScrub s c x) = islOf s := rfl

@[simp] theorem runScrub_isl (s : State) (f : Flight) :
    islOf (runScrub s f) = islOf s := by simp [runScrub]

@[simp] theorem nextScrub_isl (s : State) (c : Nat) (x2 : List Nat) :
    islOf (nextScrub s c x2) = islOf s := by
  induction x2 generalizing s with
  | nil => simp [nextScrub]
  | cons k r ih =>
    unfold nextScrub
    repeat' first
      | (simp [ih]; done)
      | split

@[simp] theorem endScrub_isl (s : State) (c : Nat) (n : Nat) (status : Nat) :
    islOf (endScrub s c n status) = islOf s := by
  unfold endScrub; dsimp only
  (repeat' split) <;> simp

@[simp] theorem dropScrub_isl (s : State) (c : Nat) :
    islOf (dropScrub s c) = islOf s := by
  unfold dropScrub; dsimp only
  (repeat' split) <;> simp

@[simp] theorem stopScrub_isl (s : State) (c : Nat) :
    islOf (stopScrub s c) = islOf s := by
  unfold stopScrub
  split <;> simp

@[simp] theorem stopScrubs_isl (s : State) (c : Nat) :
    islOf (stopScrubs s c) = islOf s := by simp [stopScrubs, foldl_isl]

@[simp] theorem startRecovery_isl (s : State) (c : Nat) :
    islOf (startRecovery s c) = islOf s := by simp [startRecovery]

@[simp] theorem trainDone_isl (s : State) (ch : Nat) (r : TrainResult) :
    islOf (trainDone s ch r) = islOf s := by simp [trainDone]

@[simp] theorem State.modBank_isl (s : State) (c : Nat) (b : Nat) (f : Bank → Bank) :
    islOf (State.modBank s c b f) = islOf s := rfl

@[simp] theorem fillQueues_isl (c : Nat) (s : State) (e : MemReq × Time) :
    islOf (fillQueues c s e) = islOf s := by simp [fillQueues]

@[simp] theorem runPartition_isl (s : State) (f : Flight) :
    islOf (runPartition s f) = islOf s := by
  unfold runPartition; dsimp only
  (repeat' split) <;> simp

@[simp] theorem endFill_isl (s : State) (p : Nat) :
    islOf (endFill s p) = islOf s := by
  unfold endFill; dsimp only
  repeat' first
    | (simp [foldl_isl, islView_isl]; done)
    | split

@[simp] theorem resetMemory_isl (s : State) (isl : Nat) :
    islOf (resetMemory s isl) = islOf s := by simp [resetMemory, foldl_isl]

@[simp] theorem releaseMemory_isl (s : State) (isl : Nat) :
    islOf (releaseMemory s isl) = islOf s := by
  unfold releaseMemory
  repeat' first
    | (simp [islView_isl]; done)
    | (simp [foldl_isl, foldl_fst_isl, islView_isl]; done)
    | intro _ _
    | intro _
    | rw [foldl_isl]
    | rw [foldl_fst_isl]
    | split
    | (apply isl_congr <;> simp [islView_isl]; done)
    | (simp; first | rw [foldl_isl] | rw [foldl_fst_isl] | split | (apply isl_congr <;> simp [islView_isl]; done))
    | with_reducible rfl

@[simp] theorem resetCache_isl (s : State) :
    islOf (resetCache s) = islOf s := by
  have drawn_fold (q : State × List Nat → Nat → List Nat) (l : List Nat) : ∀ acc : State × List Nat,
      islOf (l.foldl (fun (acc : State × List Nat) p => (acc.1.drawn, q acc p)) acc).1 = islOf acc.1 := by
    induction l with
    | nil => intro acc; rfl
    | cons p r ih => intro acc; exact (ih _).trans rfl
  unfold resetCache
  simp [foldl_isl, drawn_fold]

@[simp] theorem endFillOf_isl (s : State) (p : Nat) :
    islOf (endFillOf s p) = islOf s := by simp [endFillOf]

@[simp] theorem endFills_isl (s : State) :
    islOf (endFills s) = islOf s := by simp [endFills, foldl_isl]

/-! ### Fabric -/

@[simp] theorem endPort_isl (s : State) (p : Nat) :
    islOf (endPort s p) = islOf s := by simp [endPort]

@[simp] theorem tearLocks_isl (s : State) (p : Nat → Bool) (cause : Nat) :
    islOf (tearLocks s p cause) = islOf s := by simp [tearLocks, foldl_isl]

/-! ### Media -/

@[simp] theorem signalEvent_isl (s : State) (port : Nat) (x : Csi) (lost : Nat) (frames : Nat) :
    islOf (signalEvent s port x lost frames) = islOf s := by simp [signalEvent, foldl_isl]

@[simp] theorem lineToMem_isl (s : State) (x : Csi) (l : List Byte) :
    islOf (lineToMem s x l) = islOf s := by
  unfold lineToMem
  split <;> simp

@[simp] theorem lineToRing_isl (s : State) (x : Csi) (l : List Byte) :
    islOf (lineToRing s x l) = islOf s := by
  unfold lineToRing; dsimp only
  repeat' first
    | (simp [foldl_isl, islView_isl]; done)
    | split
    | (apply isl_congr <;> simp [islView_isl]; done)

@[simp] theorem runBind_isl (s : State) (f : Flight) :
    islOf (runBind s f) = islOf s := by simp [runBind]

@[simp] theorem State.setSession_isl (s : State) (k : Nat) (x : Session) :
    islOf (State.setSession s k x) = islOf s := rfl

@[simp] theorem State.closeSession_isl (s : State) (k : Nat) :
    islOf (State.closeSession s k) = islOf s := rfl

@[simp] theorem putPicture_isl (s : State) (fn : Nat) (n : Nat) (concealed : Nat) :
    islOf (putPicture s fn n concealed) = islOf s := by
  unfold putPicture; dsimp only
  (repeat' split) <;> simp

@[simp] theorem releaseSlots_isl (s : State) (fn : Nat) (n : Nat) (mask : Nat) :
    islOf (releaseSlots s fn n mask) = islOf s := by
  unfold releaseSlots; dsimp only
  split <;> simp

@[simp] theorem decodeAu_isl (s : State) (f : Flight) :
    islOf (decodeAu s f) = islOf s := by
  unfold decodeAu; dsimp only
  repeat' first
    | (simp [foldl_isl, islView_isl]; done)
    | split

@[simp] theorem runDecode_isl (s : State) (f : Flight) :
    islOf (runDecode s f) = islOf s := by simp [runDecode]

@[simp] theorem runEncode_isl (s : State) (f : Flight) :
    islOf (runEncode s f) = islOf s := by
  unfold runEncode
  repeat' first
    | (simp [islView_isl]; done)
    | (simp [foldl_isl, foldl_fst_isl, islView_isl]; done)
    | intro _ _
    | intro _
    | rw [foldl_isl]
    | rw [foldl_fst_isl]
    | rw [withMem_isl]
    | split
    | (apply isl_congr <;> simp [islView_isl]; done)
    | (simp; first | rw [foldl_isl] | rw [foldl_fst_isl] | rw [withMem_isl] | split | (apply isl_congr <;> simp [islView_isl]; done))
    | with_reducible rfl

@[simp] theorem ringPut_isl (s : State) (fn : Nat) (base : Nat) (n : Nat) (x4 : Nat) (x5 : Nat) (x6 : List Byte) :
    islOf (ringPut s fn base n x4 x5 x6) = islOf s := by
  induction x4 generalizing s x5 x6 with
  | zero => rfl
  | succ k ih =>
    unfold ringPut
    split
    · rfl
    · rw [ih, memWrite_isl]

@[simp] theorem closeSessions_isl (s : State) (fn : Nat) :
    islOf (closeSessions s fn) = islOf s := rfl

@[simp] theorem resetMedia_isl (s : State) :
    islOf (resetMedia s) = islOf s := rfl

/-! ### Network -/

@[simp] theorem dropFrame_isl (s : State) (p : Nat) :
    islOf (dropFrame s p) = islOf s := by simp [dropFrame]

@[simp] theorem driveGates_isl (s : State) (p : Nat) :
    islOf (driveGates s p) = islOf s := rfl

theorem startOne_isl {s s1 : State} {p : Nat} {t : Time} (h : startOne s p t = some s1) : islOf s1 = islOf s := by
  unfold startOne at h
  dsimp only at h
  split at h
  · cases h
  · split at h
    · cases h
    · injection h with h
      rw [← h]
      split <;> simp

@[simp] theorem serveN_isl (p : Nat) (x1 : Nat) (x2 : State) :
    islOf (serveN p x1 x2) = islOf x2 := by
  induction x1 generalizing x2 with
  | zero => rfl
  | succ k ih =>
    unfold serveN
    extract_lets t
    split
    · rename_i h
      rw [ih]
      split at h
      · exact startOne_isl h
      · cases h
    · split
      · rename_i h
        rw [ih, startOne_isl h]
      · rfl

@[simp] theorem serveEgress_isl (s : State) (p : Nat) :
    islOf (serveEgress s p) = islOf s := by simp [serveEgress]

@[simp] theorem sendOut_isl (s : State) (mask : Nat) (f : Frame) :
    islOf (sendOut s mask f) = islOf s := by simp [sendOut, foldl_isl]

@[simp] theorem toHost_isl (s : State) (fn : Nat) (q : Nat) (filter : Nat) (f : Frame) :
    islOf (toHost s fn q filter f) = islOf s := by
  unfold toHost
  split <;> simp

@[simp] theorem toListener_isl (s : State) (payload : List Byte) :
    islOf (toListener s payload) = islOf s := by simp [toListener]

@[simp] theorem filtered_isl (s : State) (i : Nat) (x : StreamFilter) (f : Frame) :
    islOf (filtered s i x f) = islOf s := by simp [filtered]

@[simp] theorem forward_isl (s : State) (f : Frame) :
    islOf (forward s f) = islOf s := by
  unfold forward
  split <;> simp

@[simp] theorem loseSync_isl (s : State) (d : Nat) :
    islOf (loseSync s d) = islOf s := by
  unfold loseSync
  repeat' first
    | (simp [islView_isl]; done)
    | (simp [foldl_isl, foldl_fst_isl, islView_isl]; done)
    | intro _ _
    | intro _
    | rw [foldl_isl]
    | rw [foldl_fst_isl]
    | split
    | (apply isl_congr <;> simp [islView_isl]; done)
    | (simp; first | rw [foldl_isl] | rw [foldl_fst_isl] | split | (apply isl_congr <;> simp [islView_isl]; done))
    | with_reducible rfl

@[simp] theorem netLink_isl (s : State) (p : Nat) :
    islOf (netLink s p) = islOf s := by simp [netLink]

@[simp] theorem runNetTx_isl (s : State) (f : Flight) :
    islOf (runNetTx s f) = islOf s := by simp [runNetTx]

@[simp] theorem canState_isl (s : State) (p : Nat) (new : Nat) :
    islOf (canState s p new) = islOf s := by simp [canState]

@[simp] theorem loadNetwork_isl (s : State) :
    islOf (loadNetwork s) = islOf s := by
  unfold loadNetwork
  split <;> simp

@[simp] theorem resetNetwork_isl (s : State) :
    islOf (resetNetwork s) = islOf s := by simp [resetNetwork]

/-! ### Audio -/

@[simp] theorem runSafeLoad_isl (s : State) (fn : Nat) :
    islOf (runSafeLoad s fn) = islOf s := by
  unfold runSafeLoad
  repeat' first
    | (simp [islView_isl]; done)
    | (simp [foldl_isl, foldl_fst_isl, islView_isl]; done)
    | intro _ _
    | intro _
    | rw [foldl_isl]
    | rw [foldl_fst_isl]
    | split
    | (apply isl_congr <;> simp [islView_isl]; done)
    | (simp; first | rw [foldl_isl] | rw [foldl_fst_isl] | split | (apply isl_congr <;> simp [islView_isl]; done))
    | with_reducible rfl

@[simp] theorem runSwaps_isl (s : State) (b : Time) :
    islOf (runSwaps s b) = islOf s := by simp [runSwaps, foldl_isl]

@[simp] theorem runImms_isl (s : State) :
    islOf (runImms s) = islOf s := by simp [runImms]

@[simp] theorem runBindings_isl (s : State) :
    islOf (runBindings s) = islOf s := by simp [runBindings]

@[simp] theorem takeLoops_isl (s : State) :
    islOf (takeLoops s) = islOf s := rfl

@[simp] theorem playReads_isl (s : State) :
    islOf (playReads s) = islOf s := by simp [playReads, foldl_isl]

@[simp] theorem setTargets_isl (s : State) (o : Nat) :
    islOf (setTargets s o) = islOf s := rfl

@[simp] theorem formOutput_isl (x : Nat → Int) (s : State) (o : Nat) :
    islOf (formOutput x s o) = islOf s := rfl

@[simp] theorem talk_isl (s : State) (key : Nat) (x : AStream) :
    islOf (talk s key x) = islOf s := by simp [talk]

@[simp] theorem moveStream_isl (s : State) (e : Nat × AStream) :
    islOf (moveStream s e) = islOf s := by
  unfold moveStream; dsimp only
  (repeat' split) <;> simp

@[simp] theorem listen_isl (s : State) (b : Time) :
    islOf (listen s b) = islOf s := rfl

@[simp] theorem drivePins_isl (s : State) :
    islOf (drivePins s) = islOf s := rfl

@[simp] theorem runRoute_isl (s : State) (f : Flight) :
    islOf (runRoute s f) = islOf s := by simp [runRoute]

@[simp] theorem loadAudio_isl (s : State) :
    islOf (loadAudio s) = islOf s := by
  unfold loadAudio
  split <;> simp

@[simp] theorem dropStreams_isl (s : State) (fn : Nat) :
    islOf (dropStreams s fn) = islOf s := rfl

@[simp] theorem resetAudio_isl (s : State) :
    islOf (resetAudio s) = islOf s := rfl

/-! ### Faults -/

@[simp] theorem kick_isl (s : State) :
    islOf (kick s) = islOf s := by simp [kick]

/-! ### Lantern -/

@[simp] theorem reply_isl (s : State) (g : LanMsg) (status : Nat) (pay : List Byte) :
    islOf (reply s g status pay) = islOf s := by simp [reply]

@[simp] theorem serveUndefined_isl (s : State) (x1 : List LanMsg) :
    islOf (serveUndefined s x1) = islOf s := by
  induction x1 generalizing s with
  | nil => simp [serveUndefined]
  | cons g r ih =>
    unfold serveUndefined
    split <;> simp [ih]

@[simp] theorem serve_isl (s : State) (m : Nat) (c : Nat) (run : State → LanMsg → State) (hrun : ∀ s a, islOf (run s a) = islOf s) :
    islOf (serve s m c run) = islOf s := by
  unfold serve
  split <;> simp [hrun]

@[simp] theorem dropMail_isl (s : State) (p : Nat → Bool) :
    islOf (dropMail s p) = islOf s := by
  unfold dropMail
  repeat' first
    | (simp [islView_isl]; done)
    | (simp [foldl_isl, foldl_fst_isl, islView_isl]; done)
    | intro _ _
    | intro _
    | rw [foldl_isl]
    | rw [foldl_fst_isl]
    | split
    | (apply isl_congr <;> simp [islView_isl]; done)
    | (simp; first | rw [foldl_isl] | rw [foldl_fst_isl] | split | (apply isl_congr <;> simp [islView_isl]; done))
    | with_reducible rfl

@[simp] theorem issueNonce_isl (s : State) (m : Nat) (tgt : Nat) :
    islOf (issueNonce s m tgt) = islOf s := rfl

@[simp] theorem replyNonce_isl (s : State) (g : LanMsg) :
    islOf (replyNonce s g) = islOf s := by simp [replyNonce]

@[simp] theorem storeR_isl (s : State) (g : LanMsg) :
    islOf (storeR s g) = islOf s := by simp [storeR]

@[simp] theorem freeSlot_isl (s : State) (fn : Nat) :
    islOf (freeSlot s fn) = islOf s := by
  unfold freeSlot
  repeat' first
    | (simp [foldl_isl, foldl_fst_isl, islView_isl]; done)
    | intro _ _
    | rw [foldl_isl]
    | split

@[simp] theorem dropClaims_isl (s : State) (fn : Nat) :
    islOf (dropClaims s fn) = islOf s := rfl

@[simp] theorem authFail_isl (s : State) (fn : Nat) :
    islOf (authFail s fn) = islOf s := by
  unfold authFail
  split <;> simp

@[simp] theorem authPass_isl (s : State) (fn : Nat) :
    islOf (authPass s fn) = islOf s := by
  unfold authPass; dsimp only
  repeat' first
    | (simp [foldl_isl, islView_isl]; done)
    | split

@[simp] theorem endSecure_isl (s : State) (fn : Nat) (portReset : Bool) :
    islOf (endSecure s fn portReset) = islOf s := by simp [endSecure]

/-! ### Layers -/

@[simp] theorem pendFlip_isl (s : State) (f : Flight) :
    islOf (pendFlip s f) = islOf s := by simp [pendFlip]

@[simp] theorem fetchReads_isl (s : State) (m : Mode) (p : PicLayer) :
    islOf (fetchReads s m p) = islOf s := by simp [fetchReads, foldl_isl]

/-! ### Touch -/

@[simp] theorem contactEvent_isl (s : State) (p : Nat) (c : Contact) (what : Nat) (extra : Nat) (peak : Nat) (stamp : Time) :
    islOf (contactEvent s p c what extra peak stamp) = islOf s := by
  unfold contactEvent; dsimp only
  (repeat' split) <;> simp

@[simp] theorem touchLink_isl (s : State) (p : Nat) (lost : Nat) :
    islOf (touchLink s p lost) = islOf s := by simp [touchLink]

@[simp] theorem track_isl (s : State) (p : Nat) (c : TouchCfg) (bs : List Blob) (stamp : Time) :
    islOf (track s p c bs stamp) = islOf s := by
  unfold track
  repeat' first
    | (simp [foldl_isl, foldl_fst_isl, islView_isl]; done)
    | intro _ _
    | rw [foldl_isl]
    | split

@[simp] theorem processFrame_isl (s : State) (p : Nat) (c : TouchCfg) (raw : Nat → Nat) (stamp : Time) :
    islOf (processFrame s p c raw stamp) = islOf s := by simp [processFrame]

@[simp] theorem takeConfig_isl (s : State) (p : Nat) (c : TouchCfg) :
    islOf (takeConfig s p c) = islOf s := by simp [takeConfig]

@[simp] theorem rawFrame_isl (s : State) (p : Nat) (c : TouchCfg) (b : List Byte) (seq : Nat) :
    islOf (rawFrame s p c b seq) = islOf s := by
  unfold rawFrame
  split <;> simp

@[simp] theorem objEvent_isl (s : State) (o : Nat) (what : Nat) (recal : Nat) :
    islOf (objEvent s o what recal) = islOf s := by simp [objEvent]

@[simp] theorem scanObj_isl (raw : Nat → Nat) (s : State) (o : Nat) :
    islOf (scanObj raw s o) = islOf s := by
  unfold scanObj
  extract_lets x0 s0 x nodes setE
  have hset : ∀ s e n, islOf (setE s e n) = islOf s := fun _ _ _ => rfl
  have hs0 : islOf s0 = islOf s := by
    simp only [s0]
    split <;> simp
  split
  · exact hs0
  · split
    · rw [foldl_isl]
      · exact hs0
      · intro s e
        split <;> rfl
    · extract_lets touched released s1 s2
      have hs1 : islOf s1 = islOf s := by
        simp only [s1]
        rw [foldl_isl]
        · exact hs0
        · exact fun _ _ => rfl
      have hs2 : islOf s2 = islOf s := by simp [s2, hs1]
      clear_value s2
      repeat' first
        | (simp [hs2]; done)
        | split

@[simp] theorem releaseTouch_isl (s : State) (fn : Nat) :
    islOf (releaseTouch s fn) = islOf s := rfl

@[simp] theorem loadSense_isl (s : State) :
    islOf (loadSense s) = islOf s := by
  unfold loadSense
  repeat' first
    | (simp [foldl_isl, foldl_fst_isl, islView_isl]; done)
    | intro _ _
    | rw [foldl_isl]
    | split

@[simp] theorem resetSense_isl (s : State) :
    islOf (resetSense s) = islOf s := rfl

/-! ### Lifecycle -/

@[simp] theorem prune_isl (s : State) :
    islOf (prune s) = islOf s := by
  unfold prune
  repeat' first
    | (simp [islView_isl]; done)
    | (simp [foldl_isl, foldl_fst_isl, islView_isl]; done)
    | intro _ _
    | intro _
    | rw [foldl_isl]
    | rw [foldl_fst_isl]
    | split
    | (apply isl_congr <;> simp [islView_isl]; done)
    | (simp; first | rw [foldl_isl] | rw [foldl_fst_isl] | split | (apply isl_congr <;> simp [islView_isl]; done))
    | with_reducible rfl

@[simp] theorem abandonWork_isl (s : State) (fn : Nat) :
    islOf (abandonWork s fn) = islOf s := by simp [abandonWork]

@[simp] theorem leaveActive_isl (s : State) (fn : Nat) :
    islOf (leaveActive s fn) = islOf s := by simp [leaveActive]

@[simp] theorem resetFnRegs_isl (s : State) (fn : Nat) :
    islOf (resetFnRegs s fn) = islOf s := rfl

@[simp] theorem dropLayers_isl (s : State) (fn : Nat) :
    islOf (dropLayers s fn) = islOf s := by simp [dropLayers, foldl_isl]

@[simp] theorem quarantine_isl (s : State) (fn : Nat) (cause : Nat) :
    islOf (quarantine s fn cause) = islOf s := by
  unfold quarantine
  repeat' first
    | (simp [islView_isl]; done)
    | (simp [foldl_isl, foldl_fst_isl, islView_isl]; done)
    | intro _ _
    | intro _
    | rw [foldl_isl]
    | rw [foldl_fst_isl]
    | split
    | (apply isl_congr <;> simp [islView_isl]; done)
    | (simp; first | rw [foldl_isl] | rw [foldl_fst_isl] | split | (apply isl_congr <;> simp [islView_isl]; done))
    | with_reducible rfl

@[simp] theorem runCreate_isl (s : State) (f : Flight) :
    islOf (runCreate s f) = islOf s := by
  have drop_isl : ∀ (s2 : State) (f : Fabric), islOf { s2 with fab := f } = islOf s2 := fun _ _ => rfl
  unfold runCreate
  simp [drop_isl]
  rw [foldl_isl] <;> simp

@[simp] theorem runQuiesce_isl (s : State) (f : Flight) :
    islOf (runQuiesce s f) = islOf s := by simp [runQuiesce]

@[simp] theorem clearEngines_isl (s : State) (fn : Nat) :
    islOf (clearEngines s fn) = islOf s := by
  unfold clearEngines
  apply isl_congr <;> simp [islView_isl]

@[simp] theorem tryLeave_isl (s : State) (fn : Nat) :
    islOf (tryLeave s fn) = islOf s := by
  unfold tryLeave
  repeat' first
    | (simp [islView_isl]; done)
    | (simp [foldl_isl, foldl_fst_isl, islView_isl]; done)
    | intro _ _
    | intro _
    | rw [foldl_isl]
    | rw [foldl_fst_isl]
    | split
    | (apply isl_congr <;> simp [islView_isl]; done)
    | (simp; first | rw [foldl_isl] | rw [foldl_fst_isl] | split | (apply isl_congr <;> simp [islView_isl]; done))
    | with_reducible rfl

@[simp] theorem tryLeaves_isl (s : State) :
    islOf (tryLeaves s) = islOf s := by simp [tryLeaves, foldl_isl]

@[simp] theorem runLeave_isl (release : Bool) (s : State) (f : Flight) :
    islOf (runLeave release s f) = islOf s := by
  unfold runLeave
  repeat' first
    | (simp [islView_isl]; done)
    | (simp [foldl_isl, foldl_fst_isl, islView_isl]; done)
    | intro _ _
    | intro _
    | rw [foldl_isl]
    | rw [foldl_fst_isl]
    | split
    | (apply isl_congr <;> simp [islView_isl]; done)
    | (simp; first | rw [foldl_isl] | rw [foldl_fst_isl] | split | (apply isl_congr <;> simp [islView_isl]; done))
    | with_reducible rfl

@[simp] theorem quarantinePort_isl (s : State) (p : Nat) (cause : Nat) :
    islOf (quarantinePort s p cause) = islOf s := by simp [quarantinePort, foldl_isl]

@[simp] theorem endSriov_isl (s : State) (p : Nat) :
    islOf (endSriov s p) = islOf s := by
  unfold endSriov
  repeat' first
    | (simp [foldl_isl, foldl_fst_isl, islView_isl]; done)
    | intro _ _
    | rw [foldl_isl]
    | split

@[simp] theorem resetPf_isl (s : State) (p : Nat) :
    islOf (resetPf s p) = islOf s := by simp [resetPf, foldl_isl]

/-! ### Time -/

@[simp] theorem setSource_isl (s : State) (src : Nat) :
    islOf (setSource s src) = islOf s := by
  unfold setSource; dsimp only
  split <;> first | rfl | (apply isl_congr <;> simp [islView_isl])

/-! ### Reset -/

@[simp] theorem notice_isl (s : State) (isl : Nat) :
    islOf (notice s isl) = islOf s := by simp [notice, foldl_isl]

@[simp] theorem endFlights_isl (s : State) (isl : Nat) :
    islOf (endFlights s isl) = islOf s := by simp [endFlights]

@[simp] theorem resetHost_isl (s : State) :
    islOf (resetHost s) = islOf s := by
  unfold resetHost
  repeat' first
    | (simp [islView_isl]; done)
    | (simp [foldl_isl, foldl_fst_isl, islView_isl]; done)
    | intro _ _
    | intro _
    | rw [foldl_isl]
    | rw [foldl_fst_isl]
    | split
    | (apply isl_congr <;> simp [islView_isl]; done)
    | (simp; first | rw [foldl_isl] | rw [foldl_fst_isl] | split | (apply isl_congr <;> simp [islView_isl]; done))
    | with_reducible rfl

@[simp] theorem endLeaves_isl (s : State) (status : Nat) :
    islOf (endLeaves s status) = islOf s := by
  unfold endLeaves
  repeat' first
    | (simp [foldl_isl, foldl_fst_isl, islView_isl]; done)
    | intro _ _
    | rw [foldl_isl]
    | split

@[simp] theorem resetFabric_isl (s : State) :
    islOf (resetFabric s) = islOf s := by
  unfold resetFabric
  apply isl_congr <;> simp [islView_isl]

@[simp] theorem resetMantle_isl (s : State) (isl : Nat) (relo : Bool) :
    islOf (resetMantle s isl relo) = islOf s := by
  have mid_isl : ∀ (s1 : State) (l : Tbl Slot) (m : Media), islOf { s1 with slots := l, media := m } = islOf s1 :=
    fun _ _ _ => rfl
  have heads_isl : ∀ (hs : List Nat), islOf (hs.foldl (fun s h => s.modHead h fun d =>
      { hpd := d.hpd, sinkRate := d.sinkRate, sinkLanes := d.sinkLanes }) s) = islOf s :=
    fun hs => by rw [foldl_isl]; exact fun _ _ => rfl
  unfold resetMantle
  dsimp only
  split
  · rw [foldl_isl _ (by simp), foldl_isl _ (by simp), mid_isl, heads_isl]
  · rw [foldl_isl _ (by simp), mid_isl, heads_isl]

@[simp] theorem endBindings_isl (s : State) :
    islOf (endBindings s) = islOf s := by simp [endBindings]

@[simp] theorem chapterReset_isl (s : State) (isl : Nat) (relo : Bool) :
    islOf (chapterReset s isl relo) = islOf s := by simp [chapterReset]

@[simp] theorem chapterRelease_isl (s : State) (isl : Nat) :
    islOf (chapterRelease s isl) = islOf s := by
  unfold chapterRelease
  repeat' first
    | (simp [foldl_isl, foldl_fst_isl, islView_isl]; done)
    | intro _ _
    | rw [foldl_isl]
    | split

@[simp] theorem watchWrite_isl (s : State) (fn : Nat) (k : State → State) (hk : ∀ s, islOf (k s) = islOf s) :
    islOf (watchWrite s fn k) = islOf s := by simp [watchWrite, hk]

/-! ### Power -/

@[simp] theorem powerAnswer_isl (s : State) (fn : Nat) (st : Nat) :
    islOf (powerAnswer s fn st) = islOf s := rfl

@[simp] theorem endRetReq_isl (s : State) (isl : Nat) :
    islOf (endRetReq s isl) = islOf s := by
  unfold endRetReq
  split <;> simp

@[simp] theorem railBad_isl (s : State) (r : Nat) :
    islOf (railBad s r) = islOf s := by simp [railBad]

@[simp] theorem readTemps_isl (s : State) (temps : Vector Int 24) :
    islOf (readTemps s temps) = islOf s := rfl

@[simp] theorem thermalStep_isl (floor : Nat) (s : State) (isl : Nat) :
    islOf (thermalStep floor s isl) = islOf s := by simp [thermalStep]

@[simp] theorem writeRecord_isl (s : State) :
    islOf (writeRecord s) = islOf s := by
  unfold writeRecord
  repeat' first
    | (simp [islView_isl]; done)
    | (simp [foldl_isl, foldl_fst_isl, islView_isl]; done)
    | intro _ _
    | intro _
    | rw [foldl_isl]
    | rw [foldl_fst_isl]
    | split
    | (apply isl_congr <;> simp [islView_isl]; done)
    | (simp; first | rw [foldl_isl] | rw [foldl_fst_isl] | split | (apply isl_congr <;> simp [islView_isl]; done))
    | with_reducible rfl

@[simp] theorem ageStep_isl (delays : List Nat) (s : State) (isl : Nat) :
    islOf (ageStep delays s isl) = islOf s := by simp [ageStep]

@[simp] theorem smbus_isl (s : State) (pecOk : Bool) (cmd : Nat) (k : State → State) (hk : ∀ s, islOf (k s) = islOf s) :
    islOf (smbus s pecOk cmd k) = islOf s := by simp [smbus, hk]

/-! ### Startup -/

@[simp] theorem setupPf_isl (im : Image) (s : State) (pf : Nat) :
    islOf (setupPf im s pf) = islOf s := by simp [setupPf]

@[simp] theorem loadAges_isl (s : State) (ages : Option (Vector AgeRec 16)) :
    islOf (loadAges s ages) = islOf s := by
  unfold loadAges
  repeat' first
    | (simp [islView_isl]; done)
    | (simp [foldl_isl, foldl_fst_isl, islView_isl]; done)
    | intro _ _
    | intro _
    | rw [foldl_isl]
    | rw [foldl_fst_isl]
    | split
    | (apply isl_congr <;> simp [islView_isl]; done)
    | (simp; first | rw [foldl_isl] | rw [foldl_fst_isl] | split | (apply isl_congr <;> simp [islView_isl]; done))
    | with_reducible rfl

@[simp] theorem startSafety_isl (s : State) (x : SafetyHeadCfg) :
    islOf (startSafety s x) = islOf s := by simp [startSafety]

/-! ### Registers -/

@[simp] theorem msixWrite_isl (s : State) (fn : Nat) (v : Nat) (k : Nat) (w : Word) :
    islOf (msixWrite s fn v k w) = islOf s := by simp [msixWrite]

@[simp] theorem safeLoadWrite_isl (s : State) (fn : Nat) (g : SafeLoad → SafeLoad) :
    islOf (safeLoadWrite s fn g) = islOf s := by simp [safeLoadWrite]

theorem mbGate_isl {s s1 : State} {fn m : Nat} (h : s.mbGate fn m = some s1) : islOf s1 = islOf s := by
  unfold State.mbGate at h
  split at h
  · cases h; rfl
  · split at h
    · cases h; rfl
    · split at h
      · cases h; simp
      · cases h

@[simp] theorem mailboxWord_isl (s : State) (fn : Nat) (m : Nat) (k : Nat) (w : Word) :
    islOf (mailboxWord s fn m k w) = islOf s := by
  unfold mailboxWord
  split
  · rename_i h; exact mbGate_isl h
  · split <;> simp

@[simp] theorem pageWrite_isl (s : State) (fn : Nat) (off : Nat) (w : Word) :
    islOf (pageWrite s fn off w) = islOf s := by
  unfold pageWrite; dsimp only
  (repeat' split) <;> simp

@[simp] theorem fabRegWrite_isl (s : State) (off : Nat) (w : Word) :
    islOf (fabRegWrite s off w) = islOf s := by
  unfold fabRegWrite
  repeat' first
    | (simp [islView_isl]; done)
    | split

@[simp] theorem memRegWrite_isl (s : State) (off : Nat) (w : Word) :
    islOf (memRegWrite s off w) = islOf s := by
  unfold memRegWrite
  repeat' first
    | (simp [islView_isl]; done)
    | split

@[simp] theorem chdRegWrite_isl (s : State) (off : Nat) (w : Word) :
    islOf (chdRegWrite s off w) = islOf s := by simp [chdRegWrite]

@[simp] theorem netWrite_isl (s : State) (off : Nat) (w : Word) :
    islOf (netWrite s off w) = islOf s := by
  unfold netWrite
  split <;> simp

@[simp] theorem audWrite_isl (s : State) (off : Nat) (w : Word) :
    islOf (audWrite s off w) = islOf s := by
  unfold audWrite
  repeat' first
    | (simp [islView_isl]; done)
    | split

@[simp] theorem wchWrite_isl (s : State) (off : Nat) (w : Word) :
    islOf (wchWrite s off w) = islOf s := by simp [wchWrite]

@[simp] theorem checkWrite_isl (s : State) (fn : Nat) (h : Nat) (k : Nat) (r : Nat) (w : Word) :
    islOf (checkWrite s fn h k r w) = islOf s := by
  unfold checkWrite; dsimp only
  (repeat' split) <;> simp

@[simp] theorem mntWrite_isl (s : State) (fn : Nat) (off : Nat) (w : Word) :
    islOf (mntWrite s fn off w) = islOf s := by simp [mntWrite]

@[simp] theorem groupWrite_isl (s : State) (fn : Nat) (grp : Nat) (isUp : Bool) (k : State → State) (hk : ∀ s, islOf (k s) = islOf s) :
    islOf (groupWrite s fn grp isUp k) = islOf s := by simp [groupWrite, hk]

@[simp] theorem barWrite_isl (s : State) (fn : Nat) (off : Nat) (w : Word) :
    islOf (barWrite s fn off w) = islOf s := by
  unfold barWrite
  split <;> simp

/-! ### Serve -/

/-- The run of every opcode keeps what operations keep. -/
theorem allSpecs_isl (p : OpSpec) (h : p ∈ allSpecs) (s : State) (f : Flight) : islOf (p.run s f) = islOf s := by
  simp only [allSpecs, List.mem_cons, List.not_mem_nil, or_false] at h
  rcases h with rfl | rfl | rfl | rfl | rfl | rfl | rfl | rfl | rfl | rfl | rfl | rfl | rfl | rfl | rfl | rfl | rfl | rfl |
    rfl | rfl | rfl | rfl | rfl | rfl | rfl | rfl | rfl | rfl | rfl | rfl <;>
    simp [specNop, specFenceSignal, specFenceWait, specGfxSubmit, specComputeSubmit, specPipeline, specCopy, specSparse,
      specFlip, specHeadConfig, specListUpdate, specDecode, specEncode, specCameraBind, specRoute, specSwap,
      specStream, specHapticPlay, specHapticArm, specTouchConfig, specNetTx, specNetRxPost, specCreate, specQuiesce,
      specDestroy, specRelease, specPool, specPartition, specScrub, specSecure] <;>
    (repeat' split) <;> first | rfl | (intro _; simp)

@[simp] theorem serveWait_isl (s : State) (w : MemWait) :
    islOf (serveWait s w) = islOf s := by
  unfold serveWait
  extract_lets s1
  have h1 : islOf s1 = islOf s := by simp [s1]
  clear_value s1
  split
  · exact h1
  · simp [h1]
  · split
    · rw [kickChandelier_isl, foldl_isl _ (by simp), h1]
    · split
      · rename_i h
        rw [allSpecs_isl _ (List.mem_of_find?_eq_some h), h1]
      · exact h1

@[simp] theorem serveWaits_isl (s : State) :
    islOf (serveWaits s) = islOf s := by simp [serveWaits, foldl_isl]

end Sys2Proof.Machine
end

