-- ==== Sys2Proof/Laws/Keep.lean ====
section
/-! SUPPORT. What every operation keeps: the device time, the queue of commands, the lifecycle fuses, the island skews.
One lemma an operation; the operations of PORST_N and of a rejected slot are the exceptions. -/

namespace Sys2Proof.Machine

/-! ### Ops -/

/-- What almost every operation keeps: the device time, the queue of commands, the lifecycle fuses, the island skews. -/
structure Kept where
  dt      : Time
  pending : List Instr
  life    : Nat
  skew    : Tbl Int

/-- The kept part of a state. -/
def kept (s : State) : Kept := ⟨s.dt, s.pending, s.lan.life, s.time.skew⟩

theorem dt_of_keep (s : State) : s.dt = (kept s).dt := rfl
theorem pending_of_keep (s : State) : s.pending = (kept s).pending := rfl
theorem life_of_keep (s : State) : s.lan.life = (kept s).life := rfl
theorem skew_of_keep (s : State) : s.time.skew = (kept s).skew := rfl

theorem keep_congr {a b : State} (h1 : a.dt = b.dt) (h2 : a.pending = b.pending) (h3 : a.lan.life = b.lan.life)
    (h4 : a.time.skew = b.time.skew) : kept a = kept b := by
  unfold kept; rw [h1, h2, h3, h4]

theorem keep_foldl {α : Type} (g : State → α → State) (h : ∀ s x, kept (g s x) = kept s) :
    ∀ (l : List α) (s : State), kept (l.foldl g s) = kept s
  | [], _ => rfl
  | x :: l, s => (keep_foldl g h l (g s x)).trans (h s x)

theorem foldl_fst_keep {α β : Type} (g : State × β → α → State × β) (h : ∀ a x, kept (g a x).1 = kept a.1) :
    ∀ (l : List α) (a : State × β), kept (l.foldl g a).1 = kept a.1
  | [], _ => rfl
  | x :: l, a => (foldl_fst_keep g h l (g a x)).trans (h a x)

@[simp] theorem keep_ite (p : Prop) [Decidable p] (a b : State) : kept (if p then a else b) = if p then kept a else kept b :=
  apply_ite kept p a b

@[simp] theorem State.modLan_keep (s : State) (f : Lantern → Lantern) (h : ∀ l, (f l).life = l.life) :
    kept (s.modLan f) = kept s := keep_congr rfl rfl (h s.lan) rfl

@[simp] theorem State.modTaper_keep (s : State) (k0 : Nat) (f : Taper → Taper) : kept (s.modTaper k0 f) = kept s := rfl
@[simp] theorem State.modIsl_keep (s : State) (k0 : Nat) (f : Island → Island) : kept (s.modIsl k0 f) = kept s := rfl
@[simp] theorem State.modFn_keep (s : State) (k0 : Nat) (f : Func → Func) : kept (s.modFn k0 f) = kept s := rfl
@[simp] theorem State.modQ_keep (s : State) (k0 : Nat) (k1 : Nat) (f : Queue → Queue) : kept (s.modQ k0 k1 f) = kept s := rfl
@[simp] theorem State.modPort_keep (s : State) (k0 : Nat) (f : Port → Port) : kept (s.modPort k0 f) = kept s := rfl
@[simp] theorem State.modHead_keep (s : State) (k0 : Nat) (f : Head → Head) : kept (s.modHead k0 f) = kept s := rfl
@[simp] theorem State.modSlot_keep (s : State) (k0 : Nat) (f : Slot → Slot) : kept (s.modSlot k0 f) = kept s := rfl
@[simp] theorem State.modSafe_keep (s : State) (k0 : Nat) (f : SafeHead → SafeHead) : kept (s.modSafe k0 f) = kept s := rfl
@[simp] theorem State.modPair_keep (s : State) (k0 : Nat) (f : Pair → Pair) : kept (s.modPair k0 f) = kept s := rfl
@[simp] theorem State.modWl_keep (s : State) (f : Watchlamp → Watchlamp) : kept (s.modWl f) = kept s := rfl
@[simp] theorem State.modCtx_keep (s : State) (k0 : Nat) (f : Ctx → Ctx) : kept (s.modCtx k0 f) = kept s := rfl
@[simp] theorem State.modChand_keep (s : State) (f : Chand → Chand) : kept (s.modChand f) = kept s := rfl
@[simp] theorem State.modChan_keep (s : State) (k0 : Nat) (f : Chan → Chan) : kept (s.modChan k0 f) = kept s := rfl
@[simp] theorem State.modMem_keep (s : State) (f : Mem → Mem) : kept (s.modMem f) = kept s := rfl
@[simp] theorem State.modPart_keep (s : State) (k0 : Nat) (f : Part → Part) : kept (s.modPart k0 f) = kept s := rfl
@[simp] theorem State.modFab_keep (s : State) (f : Fabric → Fabric) : kept (s.modFab f) = kept s := rfl
@[simp] theorem State.modTarget_keep (s : State) (k0 : Nat) (f : Target → Target) : kept (s.modTarget k0 f) = kept s := rfl
@[simp] theorem State.modSlotTab_keep (s : State) (k0 : Nat) (f : SlotTable → SlotTable) : kept (s.modSlotTab k0 f) = kept s := rfl
@[simp] theorem State.modLock_keep (s : State) (k0 : Nat) (f : Lock → Lock) : kept (s.modLock k0 f) = kept s := rfl
@[simp] theorem State.modCsi_keep (s : State) (k0 : Nat) (f : Csi → Csi) : kept (s.modCsi k0 f) = kept s := rfl
@[simp] theorem State.modNet_keep (s : State) (f : Net → Net) : kept (s.modNet f) = kept s := rfl
@[simp] theorem State.modPtp_keep (s : State) (k0 : Nat) (f : Ptp → Ptp) : kept (s.modPtp k0 f) = kept s := rfl
@[simp] theorem State.modEport_keep (s : State) (k0 : Nat) (f : EPort → EPort) : kept (s.modEport k0 f) = kept s := rfl
@[simp] theorem State.modGcl_keep (s : State) (k0 : Nat) (f : Gcl → Gcl) : kept (s.modGcl k0 f) = kept s := rfl
@[simp] theorem State.modCan_keep (s : State) (k0 : Nat) (f : Can → Can) : kept (s.modCan k0 f) = kept s := rfl
@[simp] theorem State.modAudio_keep (s : State) (f : Audio → Audio) : kept (s.modAudio f) = kept s := rfl
@[simp] theorem State.modTdm_keep (s : State) (k0 : Nat) (f : Tdm → Tdm) : kept (s.modTdm k0 f) = kept s := rfl
@[simp] theorem State.modSafeLoad_keep (s : State) (k0 : Nat) (f : SafeLoad → SafeLoad) : kept (s.modSafeLoad k0 f) = kept s := rfl
@[simp] theorem State.modPanel_keep (s : State) (k0 : Nat) (f : Panel → Panel) : kept (s.modPanel k0 f) = kept s := rfl
@[simp] theorem State.modObj_keep (s : State) (k0 : Nat) (f : ScObj → ScObj) : kept (s.modObj k0 f) = kept s := rfl
@[simp] theorem State.modHap_keep (s : State) (k0 : Nat) (f : Hap → Hap) : kept (s.modHap k0 f) = kept s := rfl
@[simp] theorem State.modMbox_keep (s : State) (k0 : Nat) (f : Mbox → Mbox) : kept (s.modMbox k0 f) = kept s := rfl
@[simp] theorem State.modFlt_keep (s : State) (f : Faults → Faults) : kept (s.modFlt f) = kept s := rfl
@[simp] theorem State.modPwr_keep (s : State) (f : Power → Power) : kept (s.modPwr f) = kept s := rfl
@[simp] theorem State.modRail_keep (s : State) (k0 : Nat) (f : Rail → Rail) : kept (s.modRail k0 f) = kept s := rfl
@[simp] theorem State.modBoot_keep (s : State) (f : Boot → Boot) : kept (s.modBoot f) = kept s := rfl
@[simp] theorem State.emit_keep (s : State) (o : Output) :
    kept (State.emit s o) = kept s := rfl

@[simp] theorem State.drawn_keep (s : State) :
    kept (State.drawn s) = kept s := rfl

@[simp] theorem sendIrq_keep (s : State) (fn : Nat) (vec : Nat) :
    kept (sendIrq s fn vec) = kept s := by simp [sendIrq]

@[simp] theorem gather_keep (s : State) (fn : Nat) (q : Nat) :
    kept (gather s fn q) = kept s := by simp [gather]

@[simp] theorem writeEntry_keep (s : State) (fn : Nat) (q : Nat) (h : Held) :
    kept (writeEntry s fn q h) = kept s := by simp [writeEntry]

@[simp] theorem postEntry_keep (s : State) (fn : Nat) (q : Nat) (h : Held) :
    kept (postEntry s fn q h) = kept s := by simp [postEntry]

@[simp] theorem flushLost_keep (s : State) (fn : Nat) :
    kept (flushLost s fn) = kept s := by simp [flushLost]

@[simp] theorem sendEventAt_keep (s : State) (fn : Nat) (evCode : Nat) (d5 : Nat) (d6 : Nat) (d7 : Nat) (stamp : Time) :
    kept (sendEventAt s fn evCode d5 d6 d7 stamp) = kept s := by simp [sendEventAt]

@[simp] theorem sendEvent_keep (s : State) (isl : Nat) (fn : Nat) (evCode : Nat) (d5 : Nat) (d6 : Nat) (d7 : Nat) :
    kept (sendEvent s isl fn evCode d5 d6 d7) = kept s := by simp [sendEvent]

@[simp] theorem sendManagers_keep (s : State) (isl : Nat) (evCode : Nat) (d5 : Nat) (d6 : Nat) (d7 : Nat) :
    kept (sendManagers s isl evCode d5 d6 d7) = kept s := by simp [sendManagers]

@[simp] theorem sendTo_keep (s : State) (isl : Nat) (fn : Option Nat) (evCode : Nat) (d5 : Nat) (d6 : Nat) (d7 : Nat) :
    kept (sendTo s isl fn evCode d5 d6 d7) = kept s := by
  unfold sendTo
  split <;> simp

@[simp] theorem flushHeld_keep (s : State) (fn : Nat) (q : Nat) (x3 : Nat) :
    kept (flushHeld s fn q x3) = kept s := by
  induction x3 generalizing s with
  | zero => rfl
  | succ n ih =>
    unfold flushHeld
    split
    · rfl
    · split <;> simp [ih]

@[simp] theorem State.setFence_keep (s : State) (fn : Nat) (n : Nat) (v : Nat) :
    kept (State.setFence s fn n v) = kept s := rfl

@[simp] theorem signalFence_keep (s : State) (fn : Nat) (n : Nat) (v : Nat) :
    kept (signalFence s fn n v) = kept s := by simp [signalFence]

@[simp] theorem finishCmd_keep (s : State) (c : Cmd) (status : Nat) (pay : List Nat) (stamp : Time) :
    kept (finishCmd s c status pay stamp) = kept s := by simp [finishCmd]

@[simp] theorem completeAt_keep (s : State) (id : Nat) (status : Nat) (pay : List Nat) (stamp : Time) :
    kept (completeAt s id status pay stamp) = kept s := by
  unfold completeAt
  repeat' first
    | (simp [dt_of_keep, pending_of_keep, life_of_keep, skew_of_keep]; done)
    | (simp [keep_foldl, foldl_fst_keep, dt_of_keep, pending_of_keep, life_of_keep, skew_of_keep]; done)
    | intro _ _
    | intro _
    | rw [keep_foldl]
    | rw [foldl_fst_keep]
    | split
    | (apply keep_congr <;> simp [dt_of_keep, pending_of_keep, life_of_keep, skew_of_keep]; done)
    | (simp; first | rw [keep_foldl] | rw [foldl_fst_keep] | split | (apply keep_congr <;> simp [dt_of_keep, pending_of_keep, life_of_keep, skew_of_keep]; done))
    | with_reducible rfl

@[simp] theorem complete_keep (s : State) (id : Nat) (status : Nat) (pay : List Nat) :
    kept (complete s id status pay) = kept s := by
  unfold complete
  split <;> simp

@[simp] theorem completeAll_keep (s : State) (ids : List Nat) (status : Nat) (pay : List Nat) :
    kept (completeAll s ids status pay) = kept s := by simp [completeAll, keep_foldl]

@[simp] theorem endAll_keep (s : State) (ids : List Nat) (status : Nat) :
    kept (endAll s ids status) = kept s := by simp [endAll, keep_foldl]

@[simp] theorem State.forget_keep (s : State) (p : Flight → Bool) :
    kept (State.forget s p) = kept s := rfl

@[simp] theorem bumpGen_keep (s : State) :
    kept (bumpGen s) = kept s := rfl

@[simp] theorem updAlmout_keep (s : State) :
    kept (updAlmout s) = kept s := by simp [updAlmout]

@[simp] theorem noteSys_keep (s : State) :
    kept (noteSys s) = kept s := rfl

@[simp] theorem setTone_keep (s : State) (n : Nat) (on : Bool) :
    kept (setTone s n on) = kept s := by simp [setTone]

@[simp] theorem raiseSysAlarm_keep (s : State) :
    kept (raiseSysAlarm s) = kept s := by simp [raiseSysAlarm]

@[simp] theorem fatalResponse_keep (s : State) :
    kept (fatalResponse s) = kept s := by simp [fatalResponse]

@[simp] theorem faultEvents_keep (s : State) (fc : Nat) (cls : Nat) (opn : Nat) (stamp : Time) :
    kept (faultEvents s fc cls opn stamp) = kept s := by
  unfold faultEvents
  split <;> simp

@[simp] theorem countCorrected_keep (s : State) (isl : Nat) :
    kept (countCorrected s isl) = kept s := rfl

@[simp] theorem reportAt_keep (s : State) (isl : Nat) (src : Nat) (loss : Bool) (stamp : Time) :
    kept (reportAt s isl src loss stamp) = kept s := by simp [reportAt]

@[simp] theorem report_keep (s : State) (isl : Nat) (src : Nat) (loss : Bool) :
    kept (report s isl src loss) = kept s := by simp [report]

@[simp] theorem updFaultPin_keep (s : State) :
    kept (updFaultPin s) = kept s := by simp [updFaultPin]

@[simp] theorem closeLoss_keep (s : State) (fc : Nat) :
    kept (closeLoss s fc) = kept s := by simp [closeLoss]

@[simp] theorem closeOneLoss_keep (s : State) (fc : Nat) :
    kept (closeOneLoss s fc) = kept s := by simp [closeOneLoss]

@[simp] theorem ackSysAlarm_keep (s : State) :
    kept (ackSysAlarm s) = kept s := by simp [ackSysAlarm]

@[simp] theorem worldViolation_keep (s : State) (isl : Nat) (ini : Nat) :
    kept (worldViolation s isl ini) = kept s := rfl

@[simp] theorem countRefused_keep (s : State) (ini : Nat) :
    kept (countRefused s ini) = kept s := rfl

@[simp] theorem State.dropGroup_keep (s : State) :
    kept (State.dropGroup s) = kept s := rfl

@[simp] theorem State.dropHead_keep (s : State) :
    kept (State.dropHead s) = kept s := rfl

@[simp] theorem holdPerf_keep (s : State) (i : Nat) (fn : Nat) :
    kept (holdPerf s i fn) = kept s := by
  unfold holdPerf
  repeat' first
    | (simp [keep_foldl, foldl_fst_keep, dt_of_keep, pending_of_keep, life_of_keep, skew_of_keep]; done)
    | intro _ _
    | rw [keep_foldl]
    | split

@[simp] theorem setFnState_keep (s : State) (fn : Nat) (new : Nat) :
    kept (setFnState s fn new) = kept s := by simp [setFnState]

/-! ### Dram -/

@[simp] theorem takeLine_keep (s : State) (line : Nat) (dirty : Bool) :
    kept (takeLine s line dirty) = kept s := by simp [takeLine]

@[simp] theorem waitChan_keep (s : State) (id : Nat) (c : Nat) (put : optParam (Option (Nat × List Byte × List Nat)) none) :
    kept (waitChan s id c put) = kept s := rfl

@[simp] theorem freezeChan_keep (s : State) (c : Nat) (r : MemReq) (syn : Nat) :
    kept (freezeChan s c r syn) = kept s := by simp [freezeChan]

@[simp] theorem readWord_keep (s : State) (fn : Nat) (a : Nat) (merge : Bool) :
    kept (readWord s fn a merge) = kept s := by
  unfold readWord; dsimp only
  (repeat' split) <;> simp

@[simp] theorem readLine_keep (s : State) (fn : Nat) (a : Nat) :
    kept (readLine s fn a) = kept s := by
  unfold readLine
  split <;> simp

@[simp] theorem readRange_keep (s : State) (fn : Nat) (a : Nat) (n : Nat) :
    kept (readRange s fn a n) = kept s := by simp [readRange, keep_foldl]

@[simp] theorem withMem_keep (s : State) (f : Flight) (reads : List (Nat × Nat)) (writes : List (Nat × Nat)) (k : State → State) (hk : ∀ s, kept (k s) = kept s) :
    kept (withMem s f reads writes k) = kept s := by
  unfold withMem
  dsimp only
  split
  · simp
  · split
    · simp
    · split
      · simp [keep_foldl]
      · rw [hk]; simp [keep_foldl]

@[simp] theorem memPut_keep (s : State) (fn : Nat) (a : Nat) (v : Byte) :
    kept (memPut s fn a v) = kept s := by
  unfold memPut
  split <;> simp

@[simp] theorem memPuts_keep (s : State) (fn : Nat) (a : Nat) (x3 : List Byte) :
    kept (memPuts s fn a x3) = kept s := by
  induction x3 generalizing s a with
  | nil => rfl
  | cons v r ih => unfold memPuts; simp [ih]

@[simp] theorem memWrite_keep (s : State) (fn : Nat) (a : Nat) (l : List Byte) :
    kept (memWrite s fn a l) = kept s := by simp [memWrite]

@[simp] theorem withWrite_keep (s : State) (f : Flight) (a : Nat) (l : List Byte) (pay : List Nat) :
    kept (withWrite s f a l pay) = kept s := by
  unfold withWrite; dsimp only
  (repeat' split) <;> simp

@[simp] theorem startFill_keep (s : State) (p : Nat) (after : Nat) (fl : Option Nat) :
    kept (startFill s p after fl) = kept s := rfl

@[simp] theorem markLost_keep (s : State) (p : Nat) (unfilled : Bool) :
    kept (markLost s p unfilled) = kept s := rfl

@[simp] theorem lostEvent_keep (s : State) (p : Nat) (c : Nat) :
    kept (lostEvent s p c) = kept s := by simp [lostEvent]

@[simp] theorem loseParts_keep (s : State) (ps : List Nat) (chan : Nat → Nat) (unfilled : Bool) :
    kept (loseParts s ps chan unfilled) = kept s := by simp [loseParts, keep_foldl]

@[simp] theorem losePipelines_keep (s : State) (c : Nat) :
    kept (losePipelines s c) = kept s := by simp [losePipelines, keep_foldl]

/-! ### Rings -/

@[simp] theorem discardDoorbell_keep (s : State) (fn : Nat) (q : Nat) (cq : Bool) (w : Word) :
    kept (discardDoorbell s fn q cq w) = kept s := by simp [discardDoorbell]

@[simp] theorem countHeld_keep (s : State) (c : Cmd) (st : Nat) :
    kept (countHeld s c st) = kept s := by simp [countHeld]

@[simp] theorem consume_keep (s : State) (c : Cmd) :
    kept (consume s c) = kept s := rfl

@[simp] theorem execute_keep (s : State) (p : OpSpec) (f : Flight) (hp : ∀ s f, kept (p.run s f) = kept s) :
    kept (execute s p f) = kept s := by
  unfold execute
  split
  · simp
  · rw [hp, holdPerf_keep]

@[simp] theorem startCmd_keep (s : State) (p : OpSpec) (c : Cmd) (hp : ∀ s f, kept (p.run s f) = kept s) :
    kept (startCmd s p c) = kept s := by
  unfold startCmd
  repeat' first
    | (simp [dt_of_keep, pending_of_keep, life_of_keep, skew_of_keep, hp]; done)
    | (simp [keep_foldl, foldl_fst_keep, dt_of_keep, pending_of_keep, life_of_keep, skew_of_keep, hp]; done)
    | intro _ _
    | intro _
    | rw [keep_foldl]
    | rw [foldl_fst_keep]
    | rw [execute_keep]
    | split
    | (apply keep_congr <;> simp [dt_of_keep, pending_of_keep, life_of_keep, skew_of_keep, hp]; done)
    | (simp; first | rw [keep_foldl] | rw [foldl_fst_keep] | rw [execute_keep] | split | (apply keep_congr <;> simp [dt_of_keep, pending_of_keep, life_of_keep, skew_of_keep, hp]; done))
    | with_reducible rfl

@[simp] theorem recheck_keep (s : State) (p : OpSpec) (f : Flight) (hp : ∀ s f, kept (p.run s f) = kept s) :
    kept (recheck s p f) = kept s := by
  unfold recheck
  split <;> simp [hp]

@[simp] theorem State.modFlight_keep (s : State) (id : Nat) (g : Flight → Flight) :
    kept (State.modFlight s id g) = kept s := rfl

@[simp] theorem resume_keep (s : State) (p : OpSpec) (f : Flight) (hp : ∀ s f, kept (p.run s f) = kept s) :
    kept (resume s p f) = kept s := by
  unfold resume
  exact (recheck_keep _ p _ hp).trans rfl

/-! ### Plane -/

@[simp] theorem fixStore_keep (s : State) (b : Bool) (ws : List Nat) :
    kept (fixStore s b ws) = kept s := by
  unfold fixStore
  repeat' first
    | (simp [dt_of_keep, pending_of_keep, life_of_keep, skew_of_keep]; done)
    | (simp [keep_foldl, foldl_fst_keep, dt_of_keep, pending_of_keep, life_of_keep, skew_of_keep]; done)
    | intro _ _
    | intro _
    | rw [keep_foldl]
    | rw [foldl_fst_keep]
    | split
    | (apply keep_congr <;> simp [dt_of_keep, pending_of_keep, life_of_keep, skew_of_keep]; done)
    | (simp; first | rw [keep_foldl] | rw [foldl_fst_keep] | split | (apply keep_congr <;> simp [dt_of_keep, pending_of_keep, life_of_keep, skew_of_keep]; done))
    | with_reducible rfl

@[simp] theorem readLists_keep (s : State) (bases : List Nat) :
    kept (readLists s bases) = kept s := by simp [readLists]

/-! ### Relocate -/

@[simp] theorem sendSafety_keep (s : State) (h : Nat) (p : Nat) (d7 : Nat) :
    kept (sendSafety s h p d7) = kept s := by simp [sendSafety, keep_foldl]

@[simp] theorem dropLoss_keep (s : State) (h : Nat) :
    kept (dropLoss s h) = kept s := by simp [dropLoss]

@[simp] theorem relocate_keep (s : State) (h : Nat) (cause : Nat) :
    kept (relocate s h cause) = kept s := by simp [relocate]

@[simp] theorem endRelocation_keep (s : State) (h : Nat) :
    kept (endRelocation s h) = kept s := by simp [endRelocation]

@[simp] theorem linkLost_keep (s : State) (h : Nat) :
    kept (linkLost s h) = kept s := by simp [linkLost]

/-! ### Bins -/

@[simp] theorem touch_keep (s : State) (c : Nat) (a : Nat) (n : Nat) :
    kept (touch s c a n) = kept s := by
  unfold touch; dsimp only
  (repeat' split) <;> simp

@[simp] theorem chdRead_keep (s : State) (c : Nat) (a : Nat) (n : Nat) :
    kept (chdRead s c a n) = kept s := by simp [chdRead]

@[simp] theorem chdWrite_keep (s : State) (c : Nat) (a : Nat) (l : List Byte) :
    kept (chdWrite s c a l) = kept s := by simp [chdWrite]

@[simp] theorem writeBack_keep (s : State) :
    kept (writeBack s) = kept s := by simp [writeBack, keep_foldl]

@[simp] theorem spillTile_keep (c : Nat) (p : Pass) (s : State) (tile : Nat) :
    kept (spillTile c p s tile) = kept s := by simp [spillTile, keep_foldl]

@[simp] theorem partialRender_keep (s : State) (c : Nat) (p : Pass) :
    kept ((partialRender s c p).1) = kept s := by simp [partialRender, keep_foldl]

@[simp] theorem binInto_keep (attrs : Nat) (q : BinPrim) (c : Nat) (a : State × Pass) (tiles : List Nat) :
    kept (binInto attrs q c a tiles).1 = kept a.1 := by
  unfold binInto
  dsimp only
  split <;> simp

@[simp] theorem binPrim_keep (attrs c : Nat) (a : State × Pass) (q : BinPrim) :
    kept (binPrim attrs c a q).1 = kept a.1 := by
  unfold binPrim
  dsimp only
  split
  · simp
  · refine foldl_fst_keep _ (fun b k => ?_) _ _
    split <;> simp

@[simp] theorem binDraw_keep (s : State) (c : Nat) (args : List Nat) :
    kept (binDraw s c args) = kept s := by
  unfold binDraw
  split
  · rfl
  · dsimp only
    rw [State.modCtx_keep, foldl_fst_keep _ (by simp), State.drawn_keep]

@[simp] theorem putElement_keep (c : Nat) (p : Pass) (tile : Nat) (a : Nat) (smp : Nat) (l : List Nat) (s : State) (i : Nat) :
    kept (putElement c p tile a smp l s i) = kept s := by simp [putElement]

@[simp] theorem putBlock_keep (c : Nat) (p : Pass) (tile : Nat) (a : Nat) (smp : Nat) (l : List Nat) (s : State) (k : Nat) :
    kept (putBlock c p tile a smp l s k) = kept s := by simp [putBlock]

@[simp] theorem storePlane_keep (c : Nat) (p : Pass) (tile : Nat) (l : List Nat) (s : State) (e : (Nat × Nat) × Nat) :
    kept (storePlane c p tile l s e) = kept s := by simp [storePlane, keep_foldl]

@[simp] theorem finishTile_keep (c : Nat) (p : Pass) (s : State) (tile : Nat) :
    kept (finishTile c p s tile) = kept s := by simp [finishTile, keep_foldl]

@[simp] theorem endPass_keep (s : State) (c : Nat) :
    kept (endPass s c) = kept s := by
  unfold endPass
  repeat' first
    | (simp [keep_foldl, foldl_fst_keep, dt_of_keep, pending_of_keep, life_of_keep, skew_of_keep]; done)
    | split

@[simp] theorem robust_keep (s : State) :
    kept (robust s) = kept s := rfl

@[simp] theorem sampleSparse_keep (s : State) (c : Nat) (g : SparseImage) (ts : List Texel) :
    kept ((sampleSparse s c g ts).1) = kept s := by simp [sampleSparse, keep_foldl]

@[simp] theorem shaderAccess_keep (s : State) (c : Nat) (q : TaperAccess) :
    kept (shaderAccess s c q).1 = kept s := by
  unfold shaderAccess robust
  cases q <;> dsimp only <;> (try split) <;> simp

@[simp] theorem runShaders_keep (s : State) (c : Nat) (args : List Nat) :
    kept (runShaders s c args) = kept s := by
  unfold runShaders
  dsimp only
  rw [foldl_fst_keep _ (by simp), State.drawn_keep]

@[simp] theorem fillTapers_keep (s : State) (c : Nat) :
    kept (fillTapers s c) = kept s := by
  unfold fillTapers
  repeat' first
    | (simp [keep_foldl, foldl_fst_keep, dt_of_keep, pending_of_keep, life_of_keep, skew_of_keep]; done)
    | intro _ _
    | rw [keep_foldl]
    | split

@[simp] theorem drawOne_keep (s : State) (c : Nat) (args : List Nat) :
    kept (drawOne s c args) = kept s := by simp [drawOne]

@[simp] theorem clampCount_keep (s : State) (n : Nat) : kept (clampCount s n).1 = kept s := by
  unfold clampCount
  split <;> simp

@[simp] theorem indirectArgs_keep (s : State) (c a n : Nat) : kept (indirectArgs s c a n).1 = kept s := by
  unfold indirectArgs
  dsimp only
  split <;> simp

@[simp] theorem runDraw_keep (s : State) (c : Nat) (p : Packet) :
    kept (runDraw s c p) = kept s := by simp [runDraw, keep_foldl]

@[simp] theorem runDispatch_keep (s : State) (c : Nat) (p : Packet) :
    kept (runDispatch s c p) = kept s := by
  unfold runDispatch
  dsimp only
  split
  · simp
  · rw [runShaders_keep, foldl_fst_keep _ (by simp), indirectArgs_keep]

/-! ### Tapers -/

@[simp] theorem runPacket_keep (s : State) (c : Nat) (p : Packet) :
    kept (runPacket s c p) = kept s := by
  unfold runPacket; dsimp only
  (repeat' split) <;> simp

@[simp] theorem releaseTapers_keep (s : State) (c : Nat) :
    kept (releaseTapers s c) = kept s := by
  unfold releaseTapers
  repeat' first
    | (simp [keep_foldl, foldl_fst_keep, dt_of_keep, pending_of_keep, life_of_keep, skew_of_keep]; done)
    | intro _ _
    | rw [keep_foldl]
    | split

@[simp] theorem runPackets_keep (s : State) (c : Nat) (x2 : List Packet) :
    kept (runPackets s c x2) = kept s := by
  induction x2 generalizing s with
  | nil => simp [runPackets]
  | cons p r ih =>
    unfold runPackets
    split
    · simp
    · extract_lets wait s1
      have h1 : kept s1 = kept s := by
        simp only [s1]
        split <;> simp
      clear_value s1
      split
      · simp
      · split
        · simpa using h1
        · split
          · simpa using h1
          · rw [ih, h1]

@[simp] theorem book_keep (s : State) :
    kept (book s) = kept s := by simp [book, keep_foldl]

@[simp] theorem stopTapers_keep (s : State) (c : Nat) (ts : List Nat) :
    kept (stopTapers s c ts) = kept s := by
  unfold stopTapers
  repeat' first
    | (simp [dt_of_keep, pending_of_keep, life_of_keep, skew_of_keep]; done)
    | (simp [keep_foldl, foldl_fst_keep, dt_of_keep, pending_of_keep, life_of_keep, skew_of_keep]; done)
    | intro _ _
    | intro _
    | rw [keep_foldl]
    | rw [foldl_fst_keep]
    | split
    | (apply keep_congr <;> simp [dt_of_keep, pending_of_keep, life_of_keep, skew_of_keep]; done)
    | (simp; first | rw [keep_foldl] | rw [foldl_fst_keep] | split | (apply keep_congr <;> simp [dt_of_keep, pending_of_keep, life_of_keep, skew_of_keep]; done))
    | with_reducible rfl

@[simp] theorem preempt_keep (s : State) (c : Nat) (ts : List Nat) :
    kept (preempt s c ts) = kept s := by simp [preempt]

@[simp] theorem giveTaper_keep (s : State) (t : Nat) (c : Nat) :
    kept (giveTaper s t c) = kept s := by
  unfold giveTaper
  extract_lets x s0 work s1
  have h0 : kept s0 = kept s := by
    simp only [s0]
    split
    · exact chdRead_keep _ _ _ _
    · rfl
  have h1 : kept s1 = kept s := by
    simp only [s1]
    clear_value s0 work
    simpa using h0
  clear_value s1
  split
  · exact (keep_foldl _ (fun _ _ => preempt_keep _ _ _) _ _).trans h1
  · exact h1

@[simp] theorem assignTapers_keep (s : State) :
    kept (assignTapers s) = kept s := by
  unfold assignTapers
  repeat' first
    | (simp [keep_foldl, foldl_fst_keep, dt_of_keep, pending_of_keep, life_of_keep, skew_of_keep]; done)
    | intro _ _
    | rw [keep_foldl]
    | split

@[simp] theorem displace_keep (s : State) :
    kept (displace s) = kept s := by simp [displace, keep_foldl]

@[simp] theorem rebalance_keep (s : State) :
    kept (rebalance s) = kept s := by
  unfold rebalance
  repeat' first
    | (simp [keep_foldl, foldl_fst_keep, dt_of_keep, pending_of_keep, life_of_keep, skew_of_keep]; done)
    | intro _ _
    | rw [keep_foldl]
    | split

@[simp] theorem preemptShort_keep (s : State) :
    kept (preemptShort s) = kept s := by simp [preemptShort, keep_foldl]

@[simp] theorem saveDone_keep (s : State) (c : Nat) :
    kept (saveDone s c) = kept s := by simp [saveDone, keep_foldl]

/-! ### Chandelier -/

@[simp] theorem beginCtx_keep (x0 : Nat) (x1 : State) (x2 : Nat) :
    kept (beginCtx x0 x1 x2) = kept x1 := by
  induction x0 generalizing x1 with
  | zero => rfl
  | succ k ih =>
    unfold beginCtx
    dsimp only
    repeat' first
      | (simp [ih]; done)
      | (simp [ih, keep_foldl]; done)
      | split

@[simp] theorem reapPipelines_keep (s : State) :
    kept (reapPipelines s) = kept s := rfl

@[simp] theorem leaveCtx_keep (s : State) (c : Nat) :
    kept (leaveCtx s c) = kept s := by simp [leaveCtx]

@[simp] theorem finishSub_keep (s : State) (c : Nat) (status : Nat) :
    kept (finishSub s c status) = kept s := by
  unfold finishSub; dsimp only
  (repeat' split) <;> simp

@[simp] theorem chdLoop_keep (x0 : Nat) (x1 : State) :
    kept (chdLoop x0 x1) = kept x1 := by
  induction x0 generalizing x1 with
  | zero => rfl
  | succ k ih =>
    unfold chdLoop
    extract_lets s1 s2 s3 bad s4
    have h1 : kept s1 = kept x1 := by simp [s1, keep_foldl]
    have h2 : kept s2 = kept x1 := by simp [s2, h1]
    have h3 : kept s3 = kept x1 := by simp [s3, keep_foldl, h2]
    have h4 : kept s4 = kept x1 := by simp [s4, keep_foldl, h3]
    clear_value s4
    split
    · rw [ih, h4]
    · exact h4

@[simp] theorem kickChandelier_keep (s : State) :
    kept (kickChandelier s) = kept s := by simp [kickChandelier]

@[simp] theorem runSubmit_keep (s : State) (f : Flight) :
    kept (runSubmit s f) = kept s := by
  unfold runSubmit
  split <;> simp

@[simp] theorem endSubmission_keep (s : State) (c : Nat) (status : Nat) :
    kept (endSubmission s c status) = kept s := by simp [endSubmission]

@[simp] theorem undoPreempt_keep (s : State) (c : Nat) :
    kept (undoPreempt s c) = kept s := by simp [undoPreempt]

@[simp] theorem runPipeline_keep (s : State) (f : Flight) :
    kept (runPipeline s f) = kept s := by
  unfold runPipeline
  repeat' first
    | (simp [dt_of_keep, pending_of_keep, life_of_keep, skew_of_keep]; done)
    | (simp [keep_foldl, foldl_fst_keep, dt_of_keep, pending_of_keep, life_of_keep, skew_of_keep]; done)
    | intro _ _
    | intro _
    | rw [keep_foldl]
    | rw [foldl_fst_keep]
    | rw [withMem_keep]
    | split
    | (apply keep_congr <;> simp [dt_of_keep, pending_of_keep, life_of_keep, skew_of_keep]; done)
    | (simp; first | rw [keep_foldl] | rw [foldl_fst_keep] | rw [withMem_keep] | split | (apply keep_congr <;> simp [dt_of_keep, pending_of_keep, life_of_keep, skew_of_keep]; done))
    | with_reducible rfl

@[simp] theorem runCopy_keep (s : State) (f : Flight) :
    kept (runCopy s f) = kept s := by simp [runCopy]

@[simp] theorem bindPage_keep (fn : Nat) (table : Nat) (map : Nat) (s : State) (e : Nat × Bool × Nat) :
    kept (bindPage fn table map s e) = kept s := by simp [bindPage]

@[simp] theorem runSparse_keep (s : State) (f : Flight) :
    kept (runSparse s f) = kept s := by
  unfold runSparse
  repeat' first
    | (simp [dt_of_keep, pending_of_keep, life_of_keep, skew_of_keep]; done)
    | (simp [keep_foldl, foldl_fst_keep, dt_of_keep, pending_of_keep, life_of_keep, skew_of_keep]; done)
    | intro _ _
    | intro _
    | rw [keep_foldl]
    | rw [foldl_fst_keep]
    | rw [withMem_keep]
    | split
    | (apply keep_congr <;> simp [dt_of_keep, pending_of_keep, life_of_keep, skew_of_keep]; done)
    | (simp; first | rw [keep_foldl] | rw [foldl_fst_keep] | rw [withMem_keep] | split | (apply keep_congr <;> simp [dt_of_keep, pending_of_keep, life_of_keep, skew_of_keep]; done))
    | with_reducible rfl

@[simp] theorem grantCtxs_keep (s : State) (fn : Nat) (n : Nat) :
    kept (grantCtxs s fn n) = kept s := by
  unfold grantCtxs
  repeat' first
    | (simp [keep_foldl, foldl_fst_keep, dt_of_keep, pending_of_keep, life_of_keep, skew_of_keep]; done)
    | intro _ _
    | rw [keep_foldl]
    | split

@[simp] theorem freeCtxs_keep (s : State) (fn : Nat) :
    kept (freeCtxs s fn) = kept s := by
  unfold freeCtxs
  repeat' first
    | (simp [keep_foldl, foldl_fst_keep, dt_of_keep, pending_of_keep, life_of_keep, skew_of_keep]; done)
    | intro _ _
    | rw [keep_foldl]
    | split

@[simp] theorem clearCtxs_keep (s : State) (fn : Nat) :
    kept (clearCtxs s fn) = kept s := by simp [clearCtxs, keep_foldl]

@[simp] theorem pruneCtxs_keep (s : State) :
    kept (pruneCtxs s) = kept s := by simp [pruneCtxs, keep_foldl]

@[simp] theorem dropPipelines_keep (s : State) (fn : Nat) :
    kept (dropPipelines s fn) = kept s := rfl

@[simp] theorem loseCtx_keep (isl : Nat) (s : State) (c : Nat) :
    kept (loseCtx isl s c) = kept s := by
  unfold loseCtx; dsimp only
  (repeat' split) <;> simp

@[simp] theorem resetChandelier_keep (s : State) (isl : Nat) :
    kept (resetChandelier s isl) = kept s := by simp [resetChandelier, keep_foldl]

/-! ### Haptics -/

@[simp] theorem endEffect_keep (s : State) (ch : Nat) (e : Effect) :
    kept (endEffect s ch e) = kept s := by
  unfold endEffect
  split <;> simp

@[simp] theorem endStops_keep (s : State) (ch : Nat) :
    kept (endStops s ch) = kept s := by simp [endStops, keep_foldl]

@[simp] theorem startEffect_keep (s : State) (ch : Nat) (e : Effect) :
    kept (startEffect s ch e) = kept s := rfl

@[simp] theorem brakeNow_keep (s : State) (ch : Nat) (pre : Bool) :
    kept (brakeNow s ch pre) = kept s := by
  unfold brakeNow
  split <;> simp

@[simp] theorem takeOver_keep (s : State) (ch : Nat) (e : Effect) :
    kept (takeOver s ch e) = kept s := by
  unfold takeOver; dsimp only
  split <;> simp

@[simp] theorem requestEffect_keep (s : State) (ch : Nat) (e : Effect) :
    kept (requestEffect s ch e).1 = kept s := by
  unfold requestEffect
  dsimp only
  repeat' first
    | (simp; done)
    | split

@[simp] theorem hapticAlarm_keep (s : State) (ch : Nat) (effect : Nat) :
    kept (hapticAlarm s ch effect) = kept s := by simp [hapticAlarm]

@[simp] theorem playEffect_keep (s : State) (f : Flight) :
    kept (playEffect s f) = kept s := by simp [playEffect]

@[simp] theorem armChannel_keep (s : State) (f : Flight) :
    kept (armChannel s f) = kept s := by simp [armChannel]

@[simp] theorem dropWaiting_keep (s : State) (ch : Nat) (e : Effect) (status : Nat) (pay : List Nat) :
    kept (dropWaiting s ch e status pay) = kept s := by
  unfold dropWaiting
  split <;> simp

@[simp] theorem beginWaiting_keep (s : State) (ch : Nat) (e : Effect) :
    kept (beginWaiting s ch e) = kept s := by
  unfold beginWaiting
  split <;> simp

@[simp] theorem atCrossing_keep (s : State) (ch : Nat) :
    kept (atCrossing s ch) = kept s := by
  unfold atCrossing
  split <;> simp

@[simp] theorem stopEffects_keep (s : State) (p : Effect → Bool) :
    kept (stopEffects s p) = kept s := by
  unfold stopEffects
  repeat' first
    | (simp [keep_foldl, foldl_fst_keep, dt_of_keep, pending_of_keep, life_of_keep, skew_of_keep]; done)
    | intro _ _
    | rw [keep_foldl]
    | split

@[simp] theorem releaseHaptics_keep (s : State) (fn : Nat) :
    kept (releaseHaptics s fn) = kept s := by
  unfold releaseHaptics
  repeat' first
    | (simp [dt_of_keep, pending_of_keep, life_of_keep, skew_of_keep]; done)
    | (simp [keep_foldl, foldl_fst_keep, dt_of_keep, pending_of_keep, life_of_keep, skew_of_keep]; done)
    | intro _ _
    | intro _
    | rw [keep_foldl]
    | rw [foldl_fst_keep]
    | split
    | (apply keep_congr <;> simp [dt_of_keep, pending_of_keep, life_of_keep, skew_of_keep]; done)
    | (simp; first | rw [keep_foldl] | rw [foldl_fst_keep] | split | (apply keep_congr <;> simp [dt_of_keep, pending_of_keep, life_of_keep, skew_of_keep]; done))
    | with_reducible rfl

/-! ### Lists -/

@[simp] theorem fileDirectory_keep (s : State) (h : Nat) :
    kept (fileDirectory s h) = kept s := by
  unfold fileDirectory
  apply keep_congr <;> simp [dt_of_keep, pending_of_keep, life_of_keep, skew_of_keep]

@[simp] theorem writeStore_keep (s : State) (a : Nat) (l : List Byte) :
    kept (writeStore s a l) = kept s := by
  unfold writeStore
  apply keep_congr <;> simp [dt_of_keep, pending_of_keep, life_of_keep, skew_of_keep]

@[simp] theorem applyUpdate_keep (s : State) (f : Flight) :
    kept (applyUpdate s f) = kept s := by
  unfold applyUpdate
  extract_lets c h bank base s0 s1 restore s2
  have hr : ∀ t, kept (restore t) = kept t := fun t => by simp only [restore]; split <;> rfl
  have h0 : kept s0 = kept s := writeStore_keep _ _ _
  clear_value s0
  have h1 : kept s1 = kept s := by
    simp only [s1]
    split
    · exact (fileDirectory_keep _ _).trans h0
    · exact h0
  have h2 : kept s2 = kept s := (readLists_keep _ _).trans h1
  clear_value s1 restore s2
  split
  · split
    · rw [complete_keep, h2]
    · rw [hr, State.modSafe_keep, h2]
  · rw [complete_keep, hr, h1]

@[simp] theorem refreshBank_keep (s : State) (h : Nat) :
    kept (refreshBank s h) = kept s := by
  unfold refreshBank
  extract_lets bank s1 s2
  have h2 : kept s2 = kept s := by simp [s1, s2]
  clear_value s2
  split
  · rfl
  · rw [fileDirectory_keep, State.modSafe_keep]
    exact Eq.trans rfl h2

@[simp] theorem runUpdatesN_keep (s : State) (x1 : Nat) :
    kept (runUpdatesN s x1) = kept s := by
  induction x1 generalizing s with
  | zero => rfl
  | succ n ih =>
    unfold runUpdatesN
    split
    · rfl
    · split
      · rfl
      · dsimp only
        split
        · exact (ih _).trans rfl
        · split
          · rfl
          · exact (ih _).trans ((recheck_keep _ _ _ applyUpdate_keep).trans rfl)

@[simp] theorem runUpdates_keep (s : State) :
    kept (runUpdates s) = kept s := by simp [runUpdates, keep_foldl]

@[simp] theorem unresolved_keep (s : State) (p : Nat) :
    kept (unresolved s p) = kept s := by simp [unresolved, keep_foldl]

@[simp] theorem outOfService_keep (s : State) (p : Nat) (b : Bool) (new : Nat) :
    kept (outOfService s p b new) = kept s := rfl

@[simp] theorem rebuild_keep (s : State) (p : Nat) (b : Bool) :
    kept (rebuild s p b) = kept s := by simp [rebuild]

@[simp] theorem renderLine_keep (s : State) (h : Nat) (y : Nat) (nxt : Bool) (d : PassFault) :
    kept (renderLine s h y nxt d) = kept s := by simp [renderLine]

@[simp] theorem readyRow_keep (s : State) (h : Nat) (y : Nat) :
    kept (readyRow s h y) = kept s := by simp [readyRow]

/-! ### Heads -/

@[simp] theorem headWrite_keep (s : State) (fn : Nat) (h : Nat) (sec : Bool) (k : State → State) (hk : ∀ s, kept (k s) = kept s) :
    kept (headWrite s fn h sec k) = kept s := by simp [headWrite, hk]

@[simp] theorem setLink_keep (s : State) (h : Nat) (link : Nat) (rate : Nat) (lanes : Nat) :
    kept (setLink s h link rate lanes) = kept s := rfl

@[simp] theorem showSends_keep (old : State) (s : State) (h : Nat) :
    kept (showSends old s h) = kept s := by simp [showSends]

@[simp] theorem linkEvent_keep (s : State) (h : Nat) (cause : Nat) :
    kept (linkEvent s h cause) = kept s := by simp [linkEvent]

@[simp] theorem startTiming_keep (s : State) (h : Nat) :
    kept (startTiming s h) = kept s := rfl

@[simp] theorem trainingFailed_keep (s : State) (h : Nat) (flight : Option Nat) (attempts : Nat) :
    kept (trainingFailed s h flight attempts) = kept s := by
  unfold trainingFailed
  split <;> simp

@[simp] theorem train_keep (s : State) (h : Nat) (cause : Nat) (cands : List (Nat × Nat)) (flight : Option Nat) :
    kept (train s h cause cands flight) = kept s := by simp [train]

@[simp] theorem bootTrained_keep (s : State) (h : Nat) (up : Option (Nat × Nat)) :
    kept (bootTrained s h up) = kept s := by
  unfold bootTrained
  split <;> simp

@[simp] theorem trainingOver_keep (s : State) (h : Nat) (tr : Training) (attempts : Nat) :
    kept (trainingOver s h tr attempts) = kept s := by simp [trainingOver]

@[simp] theorem trainedOn_keep (s : State) (h : Nat) (tr : Training) (c : Nat × Nat) :
    kept (trainedOn s h tr c) = kept s := by
  unfold trainedOn; dsimp only
  (repeat' split) <;> simp

@[simp] theorem turnOff_keep (s : State) (h : Nat) :
    kept (turnOff s h) = kept s := by
  unfold turnOff
  repeat' first
    | (simp [dt_of_keep, pending_of_keep, life_of_keep, skew_of_keep]; done)
    | (simp [keep_foldl, foldl_fst_keep, dt_of_keep, pending_of_keep, life_of_keep, skew_of_keep]; done)
    | intro _ _
    | intro _
    | rw [keep_foldl]
    | rw [foldl_fst_keep]
    | split
    | (apply keep_congr <;> simp [dt_of_keep, pending_of_keep, life_of_keep, skew_of_keep]; done)
    | (simp; first | rw [keep_foldl] | rw [foldl_fst_keep] | split | (apply keep_congr <;> simp [dt_of_keep, pending_of_keep, life_of_keep, skew_of_keep]; done))
    | with_reducible rfl

@[simp] theorem dropSlots_keep (s : State) (h : Nat) :
    kept (dropSlots s h) = kept s := by
  unfold dropSlots
  repeat' first
    | (simp [dt_of_keep, pending_of_keep, life_of_keep, skew_of_keep]; done)
    | (simp [keep_foldl, foldl_fst_keep, dt_of_keep, pending_of_keep, life_of_keep, skew_of_keep]; done)
    | intro _ _
    | intro _
    | rw [keep_foldl]
    | rw [foldl_fst_keep]
    | split
    | (apply keep_congr <;> simp [dt_of_keep, pending_of_keep, life_of_keep, skew_of_keep]; done)
    | (simp; first | rw [keep_foldl] | rw [foldl_fst_keep] | split | (apply keep_congr <;> simp [dt_of_keep, pending_of_keep, life_of_keep, skew_of_keep]; done))
    | with_reducible rfl

@[simp] theorem applyConfig_keep (s : State) (f : Flight) :
    kept (applyConfig s f) = kept s := by simp [applyConfig]

@[simp] theorem pwmEnd_keep (s : State) (h : Nat) :
    kept (pwmEnd s h) = kept s := rfl

@[simp] theorem lockEvent_keep (s : State) (h : Nat) (old : Nat) :
    kept (lockEvent s h old) = kept s := by simp [lockEvent]

@[simp] theorem lineLock_keep (s : State) (h : Nat) :
    kept (lineLock s h) = kept s := by simp [lineLock]

@[simp] theorem camReturns_keep (s : State) (port : Nat) :
    kept (camReturns s port) = kept s := by simp [camReturns, keep_foldl]

@[simp] theorem mapChecks_keep (s : State) (h : Nat) (g : Check → Check) :
    kept (mapChecks s h g) = kept s := rfl

@[simp] theorem frameStart_keep (s : State) (h : Nat) (loopOk : Bool) :
    kept (frameStart s h loopOk) = kept s := by
  unfold frameStart
  repeat' first
    | (simp [dt_of_keep, pending_of_keep, life_of_keep, skew_of_keep]; done)
    | (simp [keep_foldl, foldl_fst_keep, dt_of_keep, pending_of_keep, life_of_keep, skew_of_keep]; done)
    | intro _ _
    | intro _
    | rw [keep_foldl]
    | rw [foldl_fst_keep]
    | split
    | (apply keep_congr <;> simp [dt_of_keep, pending_of_keep, life_of_keep, skew_of_keep]; done)
    | (simp; first | rw [keep_foldl] | rw [foldl_fst_keep] | split | (apply keep_congr <;> simp [dt_of_keep, pending_of_keep, life_of_keep, skew_of_keep]; done))
    | with_reducible rfl

@[simp] theorem completeDone_keep (s : State) (h : Nat) :
    kept (completeDone s h) = kept s := by simp [completeDone, keep_foldl]

@[simp] theorem frozenEvent_keep (s : State) (h : Nat) (k : Nat) (d7 : Nat) :
    kept (frozenEvent s h k d7) = kept s := by simp [frozenEvent, keep_foldl]

@[simp] theorem State.modCheck_keep (s : State) (h : Nat) (k : Nat) (g : Check → Check) :
    kept (State.modCheck s h k g) = kept s := rfl

@[simp] theorem freezeDetect_keep (s : State) (h : Nat) (i : Nat) (k : Check) (crc : Nat) :
    kept (freezeDetect s h i k crc) = kept s := by
  unfold freezeDetect
  split <;> simp

@[simp] theorem ckEnd_keep (s : State) (h : Nat) (i : Nat) (k : Check) :
    kept (ckEnd s h i k) = kept s := by simp [ckEnd]

@[simp] theorem safetyFrame_keep (s : State) (h : Nat) :
    kept (safetyFrame s h) = kept s := by
  unfold safetyFrame
  split <;> simp

@[simp] theorem releaseGroups_keep (s : State) :
    kept (releaseGroups s) = kept s := by
  unfold releaseGroups
  repeat' first
    | (simp [keep_foldl, foldl_fst_keep, dt_of_keep, pending_of_keep, life_of_keep, skew_of_keep]; done)
    | intro _ _
    | rw [keep_foldl]
    | split

@[simp] theorem disableSlot_keep (s : State) (n : Nat) :
    kept (disableSlot s n) = kept s := rfl

@[simp] theorem applyEntry_keep (fn : Nat) (h : Nat) (s : State) (e : Layer) :
    kept (applyEntry fn h s e) = kept s := by simp [applyEntry]

@[simp] theorem applyLayers_keep (s : State) (h : Nat) (p : PFlip) :
    kept (applyLayers s h p) = kept s := by
  unfold applyLayers
  repeat' first
    | (simp [dt_of_keep, pending_of_keep, life_of_keep, skew_of_keep]; done)
    | (simp [keep_foldl, foldl_fst_keep, dt_of_keep, pending_of_keep, life_of_keep, skew_of_keep]; done)
    | intro _ _
    | intro _
    | rw [keep_foldl]
    | rw [foldl_fst_keep]
    | split
    | (apply keep_congr <;> simp [dt_of_keep, pending_of_keep, life_of_keep, skew_of_keep]; done)
    | (simp; first | rw [keep_foldl] | rw [foldl_fst_keep] | split | (apply keep_congr <;> simp [dt_of_keep, pending_of_keep, life_of_keep, skew_of_keep]; done))
    | with_reducible rfl

@[simp] theorem judge_keep (h : Nat) (L : Time) (x2 : State) (x3 : List PFlip) (x4 : List Nat) :
    kept (judge h L x2 x3 x4) = kept x2 := by
  induction x3 generalizing x2 x4 with
  | nil => rfl
  | cons p r ih =>
    unfold judge
    dsimp only
    split
    · simp [ih]
    · split <;> simp [ih]

@[simp] theorem applyCommit_keep (s : State) (h : Nat) (L : Time) :
    kept (applyCommit s h L) = kept s := by
  unfold applyCommit
  split <;> simp

@[simp] theorem latchRelocated_keep (s : State) (p : Nat) :
    kept (latchRelocated s p) = kept s := by simp [latchRelocated, keep_foldl]

@[simp] theorem latchPicture_keep (s : State) (h : Nat) (L : Time) :
    kept (latchPicture s h L) = kept s := by simp [latchPicture]

@[simp] theorem takeNight_keep (s : State) (h : Nat) :
    kept (takeNight s h) = kept s := rfl

@[simp] theorem latchHead_keep (s : State) (h : Nat) :
    kept (latchHead s h) = kept s := by
  unfold latchHead
  repeat' first
    | (simp [dt_of_keep, pending_of_keep, life_of_keep, skew_of_keep]; done)
    | (simp [keep_foldl, foldl_fst_keep, dt_of_keep, pending_of_keep, life_of_keep, skew_of_keep]; done)
    | intro _ _
    | intro _
    | rw [keep_foldl]
    | rw [foldl_fst_keep]
    | split
    | (apply keep_congr <;> simp [dt_of_keep, pending_of_keep, life_of_keep, skew_of_keep]; done)
    | (simp; first | rw [keep_foldl] | rw [foldl_fst_keep] | split | (apply keep_congr <;> simp [dt_of_keep, pending_of_keep, life_of_keep, skew_of_keep]; done))
    | with_reducible rfl

/-! ### Watchlamp -/

@[simp] theorem sendGuest_keep (s : State) (evCode : Nat) (d5 : Nat) (d6 : Nat) (d7 : Nat) :
    kept (sendGuest s evCode d5 d6 d7) = kept s := by
  unfold sendGuest
  split <;> simp

@[simp] theorem setWlMode_keep (s : State) (mode : Nat) (cause : Nat) :
    kept (setWlMode s mode cause) = kept s := by simp [setWlMode]

@[simp] theorem denyCommits_keep (s : State) :
    kept (denyCommits s) = kept s := by
  unfold denyCommits
  repeat' first
    | (simp [dt_of_keep, pending_of_keep, life_of_keep, skew_of_keep]; done)
    | (simp [keep_foldl, foldl_fst_keep, dt_of_keep, pending_of_keep, life_of_keep, skew_of_keep]; done)
    | intro _ _
    | intro _
    | rw [keep_foldl]
    | rw [foldl_fst_keep]
    | split
    | (apply keep_congr <;> simp [dt_of_keep, pending_of_keep, life_of_keep, skew_of_keep]; done)
    | (simp; first | rw [keep_foldl] | rw [foldl_fst_keep] | split | (apply keep_congr <;> simp [dt_of_keep, pending_of_keep, life_of_keep, skew_of_keep]; done))
    | with_reducible rfl

@[simp] theorem enterAutonomous_keep (s : State) (cause : Nat) (alarm : Bool) :
    kept (enterAutonomous s cause alarm) = kept s := by simp [enterAutonomous]

@[simp] theorem guestLost_keep (s : State) (fn : Nat) :
    kept (guestLost s fn) = kept s := by simp [guestLost]

@[simp] theorem wlWrite_keep (s : State) (fn : Nat) (k : State → State) (hk : ∀ s, kept (k s) = kept s) :
    kept (wlWrite s fn k) = kept s := by simp [wlWrite, hk]

@[simp] theorem State.modRule_keep (s : State) (r : Nat) (f : RuleSt → RuleSt) :
    kept (State.modRule s r f) = kept s := rfl

@[simp] theorem setRule_keep (s : State) (r : Nat) (rule : AlarmRule) (st : Nat) :
    kept (setRule s r rule st) = kept s := by simp [setRule]

@[simp] theorem evalRule_keep (s : State) (r : Nat) (rule : AlarmRule) :
    kept (evalRule s r rule) = kept s := by simp [evalRule]

@[simp] theorem evalRules_keep (s : State) (p : AlarmRule → Bool) :
    kept (evalRules s p) = kept s := by
  unfold evalRules
  repeat' first
    | (simp [keep_foldl, foldl_fst_keep, dt_of_keep, pending_of_keep, life_of_keep, skew_of_keep]; done)
    | split

@[simp] theorem State.modSig_keep (s : State) (n : Nat) (f : Sig → Sig) :
    kept (State.modSig s n f) = kept s := rfl

@[simp] theorem acceptTelegram_keep (s : State) (n : Nat) (e : MapEntry) (p : List Byte) (stamp : Time) :
    kept (acceptTelegram s n e p stamp) = kept s := by simp [acceptTelegram]

@[simp] theorem noteStale_keep (s : State) (sig : Nat) :
    kept (noteStale s sig) = kept s := by
  unfold noteStale; dsimp only
  (repeat' split) <;> simp

@[simp] theorem passTelegram_keep (s : State) (p : MapEntry → Bool) (payload : List Byte) (stamp : Time) :
    kept (passTelegram s p payload stamp) = kept s := by
  unfold passTelegram
  split <;> simp

@[simp] theorem ackRule_keep (s : State) (r : Nat) :
    kept (ackRule s r) = kept s := by
  unfold ackRule
  split <;> simp

@[simp] theorem State.modPin_keep (s : State) (n : Nat) (f : AckPin → AckPin) :
    kept (State.modPin s n f) = kept s := rfl

@[simp] theorem wakeEvent_keep (s : State) :
    kept (wakeEvent s) = kept s := rfl

/-! ### Memory -/

@[simp] theorem dropChans_keep (s : State) (c : Nat) (cs : List Nat) :
    kept (dropChans s c cs) = kept s := by
  unfold dropChans
  repeat' first
    | (simp [keep_foldl, foldl_fst_keep, dt_of_keep, pending_of_keep, life_of_keep, skew_of_keep]; done)
    | intro _ _
    | rw [keep_foldl]
    | split

@[simp] theorem failChan_keep (s : State) (c : Nat) :
    kept (failChan s c) = kept s := by simp [failChan]

@[simp] theorem updMemReady_keep (s : State) :
    kept (updMemReady s) = kept s := by simp [updMemReady]

@[simp] theorem fillCode_keep (s : State) :
    kept (fillCode s) = kept s := by simp [fillCode]

@[simp] theorem markedEvent_keep (c : Nat) (s : State) (e : Nat × Nat × Nat) :
    kept (markedEvent c s e) = kept s := by simp [markedEvent]

@[simp] theorem endRecovery_keep (s : State) (c : Nat) :
    kept (endRecovery s c) = kept s := by simp [endRecovery, keep_foldl]

@[simp] theorem refillChan_keep (s : State) (c : Nat) :
    kept (refillChan s c) = kept s := by
  unfold refillChan
  repeat' first
    | (simp [dt_of_keep, pending_of_keep, life_of_keep, skew_of_keep]; done)
    | (simp [keep_foldl, foldl_fst_keep, dt_of_keep, pending_of_keep, life_of_keep, skew_of_keep]; done)
    | intro _ _
    | intro _
    | rw [keep_foldl]
    | rw [foldl_fst_keep]
    | split
    | (apply keep_congr <;> simp [dt_of_keep, pending_of_keep, life_of_keep, skew_of_keep]; done)
    | (simp; first | rw [keep_foldl] | rw [foldl_fst_keep] | split | (apply keep_congr <;> simp [dt_of_keep, pending_of_keep, life_of_keep, skew_of_keep]; done))
    | with_reducible rfl

@[simp] theorem failRecovery_keep (s : State) (c : Nat) :
    kept (failRecovery s c) = kept s := by simp [failRecovery, keep_foldl]

@[simp] theorem endWaits_keep (s : State) (p : MemWait → Bool) (status : Nat) :
    kept (endWaits s p status) = kept s := by simp [endWaits]

@[simp] theorem clearChan_keep (s : State) (c : Nat) (status : Nat) :
    kept (clearChan s c status) = kept s := by
  unfold clearChan
  repeat' first
    | (simp [dt_of_keep, pending_of_keep, life_of_keep, skew_of_keep]; done)
    | (simp [keep_foldl, foldl_fst_keep, dt_of_keep, pending_of_keep, life_of_keep, skew_of_keep]; done)
    | intro _ _
    | intro _
    | rw [keep_foldl]
    | rw [foldl_fst_keep]
    | split
    | (apply keep_congr <;> simp [dt_of_keep, pending_of_keep, life_of_keep, skew_of_keep]; done)
    | (simp; first | rw [keep_foldl] | rw [foldl_fst_keep] | split | (apply keep_congr <;> simp [dt_of_keep, pending_of_keep, life_of_keep, skew_of_keep]; done))
    | with_reducible rfl

@[simp] theorem startScrub_keep (s : State) (c : Nat) (x : Scrub) :
    kept (startScrub s c x) = kept s := rfl

@[simp] theorem runScrub_keep (s : State) (f : Flight) :
    kept (runScrub s f) = kept s := by simp [runScrub]

@[simp] theorem nextScrub_keep (s : State) (c : Nat) (x2 : List Nat) :
    kept (nextScrub s c x2) = kept s := by
  induction x2 generalizing s with
  | nil => simp [nextScrub]
  | cons k r ih =>
    unfold nextScrub
    repeat' first
      | (simp [ih]; done)
      | split

@[simp] theorem endScrub_keep (s : State) (c : Nat) (n : Nat) (status : Nat) :
    kept (endScrub s c n status) = kept s := by
  unfold endScrub; dsimp only
  (repeat' split) <;> simp

@[simp] theorem dropScrub_keep (s : State) (c : Nat) :
    kept (dropScrub s c) = kept s := by
  unfold dropScrub; dsimp only
  (repeat' split) <;> simp

@[simp] theorem stopScrub_keep (s : State) (c : Nat) :
    kept (stopScrub s c) = kept s := by
  unfold stopScrub
  split <;> simp

@[simp] theorem stopScrubs_keep (s : State) (c : Nat) :
    kept (stopScrubs s c) = kept s := by simp [stopScrubs, keep_foldl]

@[simp] theorem startRecovery_keep (s : State) (c : Nat) :
    kept (startRecovery s c) = kept s := by simp [startRecovery]

@[simp] theorem trainDone_keep (s : State) (ch : Nat) (r : TrainResult) :
    kept (trainDone s ch r) = kept s := by simp [trainDone]

@[simp] theorem State.modBank_keep (s : State) (c : Nat) (b : Nat) (f : Bank → Bank) :
    kept (State.modBank s c b f) = kept s := rfl

@[simp] theorem fillQueues_keep (c : Nat) (s : State) (e : MemReq × Time) :
    kept (fillQueues c s e) = kept s := by simp [fillQueues]

@[simp] theorem runPartition_keep (s : State) (f : Flight) :
    kept (runPartition s f) = kept s := by
  unfold runPartition; dsimp only
  (repeat' split) <;> simp

@[simp] theorem endFill_keep (s : State) (p : Nat) :
    kept (endFill s p) = kept s := by
  unfold endFill; dsimp only
  repeat' first
    | (simp [keep_foldl, dt_of_keep, pending_of_keep, life_of_keep, skew_of_keep]; done)
    | split

@[simp] theorem resetMemory_keep (s : State) (isl : Nat) :
    kept (resetMemory s isl) = kept s := by simp [resetMemory, keep_foldl]

@[simp] theorem releaseMemory_keep (s : State) (isl : Nat) :
    kept (releaseMemory s isl) = kept s := by
  unfold releaseMemory
  repeat' first
    | (simp [dt_of_keep, pending_of_keep, life_of_keep, skew_of_keep]; done)
    | (simp [keep_foldl, foldl_fst_keep, dt_of_keep, pending_of_keep, life_of_keep, skew_of_keep]; done)
    | intro _ _
    | intro _
    | rw [keep_foldl]
    | rw [foldl_fst_keep]
    | split
    | (apply keep_congr <;> simp [dt_of_keep, pending_of_keep, life_of_keep, skew_of_keep]; done)
    | (simp; first | rw [keep_foldl] | rw [foldl_fst_keep] | split | (apply keep_congr <;> simp [dt_of_keep, pending_of_keep, life_of_keep, skew_of_keep]; done))
    | with_reducible rfl

@[simp] theorem resetCache_keep (s : State) :
    kept (resetCache s) = kept s := by
  have drawn_fold (q : State × List Nat → Nat → List Nat) (l : List Nat) : ∀ acc : State × List Nat,
      kept (l.foldl (fun (acc : State × List Nat) p => (acc.1.drawn, q acc p)) acc).1 = kept acc.1 := by
    induction l with
    | nil => intro acc; rfl
    | cons p r ih => intro acc; exact (ih _).trans rfl
  unfold resetCache
  simp [keep_foldl, drawn_fold]

@[simp] theorem endFillOf_keep (s : State) (p : Nat) :
    kept (endFillOf s p) = kept s := by simp [endFillOf]

@[simp] theorem endFills_keep (s : State) :
    kept (endFills s) = kept s := by simp [endFills, keep_foldl]

/-! ### Fabric -/

@[simp] theorem endPort_keep (s : State) (p : Nat) :
    kept (endPort s p) = kept s := by simp [endPort]

@[simp] theorem tearLocks_keep (s : State) (p : Nat → Bool) (cause : Nat) :
    kept (tearLocks s p cause) = kept s := by simp [tearLocks, keep_foldl]

/-! ### Media -/

@[simp] theorem signalEvent_keep (s : State) (port : Nat) (x : Csi) (lost : Nat) (frames : Nat) :
    kept (signalEvent s port x lost frames) = kept s := by simp [signalEvent, keep_foldl]

@[simp] theorem lineToMem_keep (s : State) (x : Csi) (l : List Byte) :
    kept (lineToMem s x l) = kept s := by
  unfold lineToMem
  split <;> simp

@[simp] theorem lineToRing_keep (s : State) (x : Csi) (l : List Byte) :
    kept (lineToRing s x l) = kept s := by
  unfold lineToRing
  repeat' first
    | (simp [dt_of_keep, pending_of_keep, life_of_keep, skew_of_keep]; done)
    | (simp [keep_foldl, foldl_fst_keep, dt_of_keep, pending_of_keep, life_of_keep, skew_of_keep]; done)
    | intro _ _
    | intro _
    | rw [keep_foldl]
    | rw [foldl_fst_keep]
    | split
    | (apply keep_congr <;> simp [dt_of_keep, pending_of_keep, life_of_keep, skew_of_keep]; done)
    | (simp; first | rw [keep_foldl] | rw [foldl_fst_keep] | split | (apply keep_congr <;> simp [dt_of_keep, pending_of_keep, life_of_keep, skew_of_keep]; done))
    | with_reducible rfl

@[simp] theorem runBind_keep (s : State) (f : Flight) :
    kept (runBind s f) = kept s := by simp [runBind]

@[simp] theorem State.setSession_keep (s : State) (k : Nat) (x : Session) :
    kept (State.setSession s k x) = kept s := rfl

@[simp] theorem State.closeSession_keep (s : State) (k : Nat) :
    kept (State.closeSession s k) = kept s := rfl

@[simp] theorem putPicture_keep (s : State) (fn : Nat) (n : Nat) (concealed : Nat) :
    kept (putPicture s fn n concealed) = kept s := by
  unfold putPicture; dsimp only
  (repeat' split) <;> simp

@[simp] theorem releaseSlots_keep (s : State) (fn : Nat) (n : Nat) (mask : Nat) :
    kept (releaseSlots s fn n mask) = kept s := by
  unfold releaseSlots; dsimp only
  split <;> simp

@[simp] theorem decodeAu_keep (s : State) (f : Flight) :
    kept (decodeAu s f) = kept s := by
  unfold decodeAu; dsimp only
  repeat' first
    | (simp [keep_foldl, dt_of_keep, pending_of_keep, life_of_keep, skew_of_keep]; done)
    | split

@[simp] theorem runDecode_keep (s : State) (f : Flight) :
    kept (runDecode s f) = kept s := by simp [runDecode]

@[simp] theorem runEncode_keep (s : State) (f : Flight) :
    kept (runEncode s f) = kept s := by
  unfold runEncode
  repeat' first
    | (simp [dt_of_keep, pending_of_keep, life_of_keep, skew_of_keep]; done)
    | (simp [keep_foldl, foldl_fst_keep, dt_of_keep, pending_of_keep, life_of_keep, skew_of_keep]; done)
    | intro _ _
    | intro _
    | rw [keep_foldl]
    | rw [foldl_fst_keep]
    | rw [withMem_keep]
    | split
    | (apply keep_congr <;> simp [dt_of_keep, pending_of_keep, life_of_keep, skew_of_keep]; done)
    | (simp; first | rw [keep_foldl] | rw [foldl_fst_keep] | rw [withMem_keep] | split | (apply keep_congr <;> simp [dt_of_keep, pending_of_keep, life_of_keep, skew_of_keep]; done))
    | with_reducible rfl

@[simp] theorem ringPut_keep (s : State) (fn : Nat) (base : Nat) (n : Nat) (x4 : Nat) (x5 : Nat) (x6 : List Byte) :
    kept (ringPut s fn base n x4 x5 x6) = kept s := by
  induction x4 generalizing s x5 x6 with
  | zero => rfl
  | succ k ih =>
    unfold ringPut
    split
    · rfl
    · rw [ih, memWrite_keep]

@[simp] theorem closeSessions_keep (s : State) (fn : Nat) :
    kept (closeSessions s fn) = kept s := rfl

@[simp] theorem resetMedia_keep (s : State) :
    kept (resetMedia s) = kept s := rfl

/-! ### Network -/

@[simp] theorem dropFrame_keep (s : State) (p : Nat) :
    kept (dropFrame s p) = kept s := by simp [dropFrame]

@[simp] theorem driveGates_keep (s : State) (p : Nat) :
    kept (driveGates s p) = kept s := rfl

theorem startOne_keep {s s1 : State} {p : Nat} {t : Time} (h : startOne s p t = some s1) : kept s1 = kept s := by
  unfold startOne at h
  dsimp only at h
  split at h
  · cases h
  · split at h
    · cases h
    · injection h with h
      rw [← h]
      split <;> simp

@[simp] theorem serveN_keep (p : Nat) (x1 : Nat) (x2 : State) :
    kept (serveN p x1 x2) = kept x2 := by
  induction x1 generalizing x2 with
  | zero => rfl
  | succ k ih =>
    unfold serveN
    extract_lets t
    split
    · rename_i h
      rw [ih]
      split at h
      · exact startOne_keep h
      · cases h
    · split
      · rename_i h
        rw [ih, startOne_keep h]
      · rfl

@[simp] theorem serveEgress_keep (s : State) (p : Nat) :
    kept (serveEgress s p) = kept s := by simp [serveEgress]

@[simp] theorem sendOut_keep (s : State) (mask : Nat) (f : Frame) :
    kept (sendOut s mask f) = kept s := by simp [sendOut, keep_foldl]

@[simp] theorem toHost_keep (s : State) (fn : Nat) (q : Nat) (filter : Nat) (f : Frame) :
    kept (toHost s fn q filter f) = kept s := by
  unfold toHost
  split <;> simp

@[simp] theorem toListener_keep (s : State) (payload : List Byte) :
    kept (toListener s payload) = kept s := by simp [toListener]

@[simp] theorem filtered_keep (s : State) (i : Nat) (x : StreamFilter) (f : Frame) :
    kept (filtered s i x f) = kept s := by simp [filtered]

@[simp] theorem forward_keep (s : State) (f : Frame) :
    kept (forward s f) = kept s := by
  unfold forward
  split <;> simp

@[simp] theorem loseSync_keep (s : State) (d : Nat) :
    kept (loseSync s d) = kept s := by
  unfold loseSync
  repeat' first
    | (simp [dt_of_keep, pending_of_keep, life_of_keep, skew_of_keep]; done)
    | (simp [keep_foldl, foldl_fst_keep, dt_of_keep, pending_of_keep, life_of_keep, skew_of_keep]; done)
    | intro _ _
    | intro _
    | rw [keep_foldl]
    | rw [foldl_fst_keep]
    | split
    | (apply keep_congr <;> simp [dt_of_keep, pending_of_keep, life_of_keep, skew_of_keep]; done)
    | (simp; first | rw [keep_foldl] | rw [foldl_fst_keep] | split | (apply keep_congr <;> simp [dt_of_keep, pending_of_keep, life_of_keep, skew_of_keep]; done))
    | with_reducible rfl

@[simp] theorem netLink_keep (s : State) (p : Nat) :
    kept (netLink s p) = kept s := by simp [netLink]

@[simp] theorem runNetTx_keep (s : State) (f : Flight) :
    kept (runNetTx s f) = kept s := by simp [runNetTx]

@[simp] theorem canState_keep (s : State) (p : Nat) (new : Nat) :
    kept (canState s p new) = kept s := by simp [canState]

@[simp] theorem loadNetwork_keep (s : State) :
    kept (loadNetwork s) = kept s := by
  unfold loadNetwork
  split <;> simp

@[simp] theorem resetNetwork_keep (s : State) :
    kept (resetNetwork s) = kept s := by simp [resetNetwork]

/-! ### Audio -/

@[simp] theorem runSafeLoad_keep (s : State) (fn : Nat) :
    kept (runSafeLoad s fn) = kept s := by
  unfold runSafeLoad
  repeat' first
    | (simp [dt_of_keep, pending_of_keep, life_of_keep, skew_of_keep]; done)
    | (simp [keep_foldl, foldl_fst_keep, dt_of_keep, pending_of_keep, life_of_keep, skew_of_keep]; done)
    | intro _ _
    | intro _
    | rw [keep_foldl]
    | rw [foldl_fst_keep]
    | split
    | (apply keep_congr <;> simp [dt_of_keep, pending_of_keep, life_of_keep, skew_of_keep]; done)
    | (simp; first | rw [keep_foldl] | rw [foldl_fst_keep] | split | (apply keep_congr <;> simp [dt_of_keep, pending_of_keep, life_of_keep, skew_of_keep]; done))
    | with_reducible rfl

@[simp] theorem runSwaps_keep (s : State) (b : Time) :
    kept (runSwaps s b) = kept s := by simp [runSwaps, keep_foldl]

@[simp] theorem runImms_keep (s : State) :
    kept (runImms s) = kept s := by simp [runImms]

@[simp] theorem runBindings_keep (s : State) :
    kept (runBindings s) = kept s := by simp [runBindings]

@[simp] theorem takeLoops_keep (s : State) :
    kept (takeLoops s) = kept s := rfl

@[simp] theorem playReads_keep (s : State) :
    kept (playReads s) = kept s := by simp [playReads, keep_foldl]

@[simp] theorem setTargets_keep (s : State) (o : Nat) :
    kept (setTargets s o) = kept s := rfl

@[simp] theorem formOutput_keep (x : Nat → Int) (s : State) (o : Nat) :
    kept (formOutput x s o) = kept s := rfl

@[simp] theorem talk_keep (s : State) (key : Nat) (x : AStream) :
    kept (talk s key x) = kept s := by simp [talk]

@[simp] theorem moveStream_keep (s : State) (e : Nat × AStream) :
    kept (moveStream s e) = kept s := by
  unfold moveStream; dsimp only
  (repeat' split) <;> simp

@[simp] theorem listen_keep (s : State) (b : Time) :
    kept (listen s b) = kept s := rfl

@[simp] theorem drivePins_keep (s : State) :
    kept (drivePins s) = kept s := rfl

@[simp] theorem runRoute_keep (s : State) (f : Flight) :
    kept (runRoute s f) = kept s := by simp [runRoute]

@[simp] theorem loadAudio_keep (s : State) :
    kept (loadAudio s) = kept s := by
  unfold loadAudio
  split <;> simp

@[simp] theorem dropStreams_keep (s : State) (fn : Nat) :
    kept (dropStreams s fn) = kept s := rfl

@[simp] theorem resetAudio_keep (s : State) :
    kept (resetAudio s) = kept s := rfl

/-! ### Faults -/

@[simp] theorem kick_keep (s : State) :
    kept (kick s) = kept s := by simp [kick]

/-! ### Lantern -/

@[simp] theorem reply_keep (s : State) (g : LanMsg) (status : Nat) (pay : List Byte) :
    kept (reply s g status pay) = kept s := by simp [reply]

@[simp] theorem serveUndefined_keep (s : State) (x1 : List LanMsg) :
    kept (serveUndefined s x1) = kept s := by
  induction x1 generalizing s with
  | nil => simp [serveUndefined]
  | cons g r ih =>
    unfold serveUndefined
    split <;> simp [ih]

@[simp] theorem serve_keep (s : State) (m : Nat) (c : Nat) (run : State → LanMsg → State) (hrun : ∀ s a, kept (run s a) = kept s) :
    kept (serve s m c run) = kept s := by
  unfold serve
  split <;> simp [hrun]

@[simp] theorem dropMail_keep (s : State) (p : Nat → Bool) :
    kept (dropMail s p) = kept s := by
  unfold dropMail
  repeat' first
    | (simp [dt_of_keep, pending_of_keep, life_of_keep, skew_of_keep]; done)
    | (simp [keep_foldl, foldl_fst_keep, dt_of_keep, pending_of_keep, life_of_keep, skew_of_keep]; done)
    | intro _ _
    | intro _
    | rw [keep_foldl]
    | rw [foldl_fst_keep]
    | split
    | (apply keep_congr <;> simp [dt_of_keep, pending_of_keep, life_of_keep, skew_of_keep]; done)
    | (simp; first | rw [keep_foldl] | rw [foldl_fst_keep] | split | (apply keep_congr <;> simp [dt_of_keep, pending_of_keep, life_of_keep, skew_of_keep]; done))
    | with_reducible rfl

@[simp] theorem issueNonce_keep (s : State) (m : Nat) (tgt : Nat) :
    kept (issueNonce s m tgt) = kept s := rfl

@[simp] theorem replyNonce_keep (s : State) (g : LanMsg) :
    kept (replyNonce s g) = kept s := by simp [replyNonce]

@[simp] theorem storeR_keep (s : State) (g : LanMsg) :
    kept (storeR s g) = kept s := by simp [storeR]

@[simp] theorem freeSlot_keep (s : State) (fn : Nat) :
    kept (freeSlot s fn) = kept s := by
  unfold freeSlot
  repeat' first
    | (simp [keep_foldl, foldl_fst_keep, dt_of_keep, pending_of_keep, life_of_keep, skew_of_keep]; done)
    | intro _ _
    | rw [keep_foldl]
    | split

@[simp] theorem dropClaims_keep (s : State) (fn : Nat) :
    kept (dropClaims s fn) = kept s := rfl

@[simp] theorem authFail_keep (s : State) (fn : Nat) :
    kept (authFail s fn) = kept s := by
  unfold authFail
  split <;> simp

@[simp] theorem authPass_keep (s : State) (fn : Nat) :
    kept (authPass s fn) = kept s := by
  unfold authPass; dsimp only
  repeat' first
    | (simp [keep_foldl, dt_of_keep, pending_of_keep, life_of_keep, skew_of_keep]; done)
    | split

@[simp] theorem endSecure_keep (s : State) (fn : Nat) (portReset : Bool) :
    kept (endSecure s fn portReset) = kept s := by simp [endSecure]

/-! ### Layers -/

@[simp] theorem pendFlip_keep (s : State) (f : Flight) :
    kept (pendFlip s f) = kept s := by simp [pendFlip]

@[simp] theorem fetchReads_keep (s : State) (m : Mode) (p : PicLayer) :
    kept (fetchReads s m p) = kept s := by simp [fetchReads, keep_foldl]

/-! ### Touch -/

@[simp] theorem contactEvent_keep (s : State) (p : Nat) (c : Contact) (what : Nat) (extra : Nat) (peak : Nat) (stamp : Time) :
    kept (contactEvent s p c what extra peak stamp) = kept s := by
  unfold contactEvent; dsimp only
  (repeat' split) <;> simp

@[simp] theorem touchLink_keep (s : State) (p : Nat) (lost : Nat) :
    kept (touchLink s p lost) = kept s := by simp [touchLink]

@[simp] theorem track_keep (s : State) (p : Nat) (c : TouchCfg) (bs : List Blob) (stamp : Time) :
    kept (track s p c bs stamp) = kept s := by
  unfold track
  repeat' first
    | (simp [keep_foldl, foldl_fst_keep, dt_of_keep, pending_of_keep, life_of_keep, skew_of_keep]; done)
    | intro _ _
    | rw [keep_foldl]
    | split

@[simp] theorem processFrame_keep (s : State) (p : Nat) (c : TouchCfg) (raw : Nat → Nat) (stamp : Time) :
    kept (processFrame s p c raw stamp) = kept s := by simp [processFrame]

@[simp] theorem takeConfig_keep (s : State) (p : Nat) (c : TouchCfg) :
    kept (takeConfig s p c) = kept s := by simp [takeConfig]

@[simp] theorem rawFrame_keep (s : State) (p : Nat) (c : TouchCfg) (b : List Byte) (seq : Nat) :
    kept (rawFrame s p c b seq) = kept s := by
  unfold rawFrame
  split <;> simp

@[simp] theorem objEvent_keep (s : State) (o : Nat) (what : Nat) (recal : Nat) :
    kept (objEvent s o what recal) = kept s := by simp [objEvent]

@[simp] theorem scanObj_keep (raw : Nat → Nat) (s : State) (o : Nat) :
    kept (scanObj raw s o) = kept s := by
  unfold scanObj
  extract_lets x0 s0 x nodes setE
  have hset : ∀ s e n, kept (setE s e n) = kept s := fun _ _ _ => rfl
  have hs0 : kept s0 = kept s := by
    simp only [s0]
    split <;> simp
  split
  · exact hs0
  · split
    · rw [keep_foldl]
      · exact hs0
      · intro s e
        split <;> rfl
    · extract_lets touched released s1 s2
      have hs1 : kept s1 = kept s := by
        simp only [s1]
        rw [keep_foldl]
        · exact hs0
        · exact fun _ _ => rfl
      have hs2 : kept s2 = kept s := by simp [s2, hs1]
      clear_value s2
      repeat' first
        | (simp [hs2]; done)
        | split

@[simp] theorem releaseTouch_keep (s : State) (fn : Nat) :
    kept (releaseTouch s fn) = kept s := rfl

@[simp] theorem loadSense_keep (s : State) :
    kept (loadSense s) = kept s := by
  unfold loadSense
  repeat' first
    | (simp [keep_foldl, foldl_fst_keep, dt_of_keep, pending_of_keep, life_of_keep, skew_of_keep]; done)
    | intro _ _
    | rw [keep_foldl]
    | split

@[simp] theorem resetSense_keep (s : State) :
    kept (resetSense s) = kept s := rfl

/-! ### Lifecycle -/

@[simp] theorem prune_keep (s : State) :
    kept (prune s) = kept s := by
  unfold prune
  repeat' first
    | (simp [dt_of_keep, pending_of_keep, life_of_keep, skew_of_keep]; done)
    | (simp [keep_foldl, foldl_fst_keep, dt_of_keep, pending_of_keep, life_of_keep, skew_of_keep]; done)
    | intro _ _
    | intro _
    | rw [keep_foldl]
    | rw [foldl_fst_keep]
    | split
    | (apply keep_congr <;> simp [dt_of_keep, pending_of_keep, life_of_keep, skew_of_keep]; done)
    | (simp; first | rw [keep_foldl] | rw [foldl_fst_keep] | split | (apply keep_congr <;> simp [dt_of_keep, pending_of_keep, life_of_keep, skew_of_keep]; done))
    | with_reducible rfl

@[simp] theorem abandonWork_keep (s : State) (fn : Nat) :
    kept (abandonWork s fn) = kept s := by simp [abandonWork]

@[simp] theorem leaveActive_keep (s : State) (fn : Nat) :
    kept (leaveActive s fn) = kept s := by simp [leaveActive]

@[simp] theorem resetFnRegs_keep (s : State) (fn : Nat) :
    kept (resetFnRegs s fn) = kept s := rfl

@[simp] theorem dropLayers_keep (s : State) (fn : Nat) :
    kept (dropLayers s fn) = kept s := by simp [dropLayers, keep_foldl]

@[simp] theorem quarantine_keep (s : State) (fn : Nat) (cause : Nat) :
    kept (quarantine s fn cause) = kept s := by
  unfold quarantine
  repeat' first
    | (simp [dt_of_keep, pending_of_keep, life_of_keep, skew_of_keep]; done)
    | (simp [keep_foldl, foldl_fst_keep, dt_of_keep, pending_of_keep, life_of_keep, skew_of_keep]; done)
    | intro _ _
    | intro _
    | rw [keep_foldl]
    | rw [foldl_fst_keep]
    | split
    | (apply keep_congr <;> simp [dt_of_keep, pending_of_keep, life_of_keep, skew_of_keep]; done)
    | (simp; first | rw [keep_foldl] | rw [foldl_fst_keep] | split | (apply keep_congr <;> simp [dt_of_keep, pending_of_keep, life_of_keep, skew_of_keep]; done))
    | with_reducible rfl

@[simp] theorem runCreate_keep (s : State) (f : Flight) :
    kept (runCreate s f) = kept s := by
  have drop_keep : ∀ (s2 : State) (f : Fabric), kept { s2 with fab := f } = kept s2 := fun _ _ => rfl
  unfold runCreate
  simp [drop_keep]
  rw [keep_foldl] <;> simp

@[simp] theorem runQuiesce_keep (s : State) (f : Flight) :
    kept (runQuiesce s f) = kept s := by simp [runQuiesce]

@[simp] theorem clearEngines_keep (s : State) (fn : Nat) :
    kept (clearEngines s fn) = kept s := by
  unfold clearEngines
  apply keep_congr <;> simp [dt_of_keep, pending_of_keep, life_of_keep, skew_of_keep]

@[simp] theorem tryLeave_keep (s : State) (fn : Nat) :
    kept (tryLeave s fn) = kept s := by
  unfold tryLeave
  repeat' first
    | (simp [dt_of_keep, pending_of_keep, life_of_keep, skew_of_keep]; done)
    | (simp [keep_foldl, foldl_fst_keep, dt_of_keep, pending_of_keep, life_of_keep, skew_of_keep]; done)
    | intro _ _
    | intro _
    | rw [keep_foldl]
    | rw [foldl_fst_keep]
    | split
    | (apply keep_congr <;> simp [dt_of_keep, pending_of_keep, life_of_keep, skew_of_keep]; done)
    | (simp; first | rw [keep_foldl] | rw [foldl_fst_keep] | split | (apply keep_congr <;> simp [dt_of_keep, pending_of_keep, life_of_keep, skew_of_keep]; done))
    | with_reducible rfl

@[simp] theorem tryLeaves_keep (s : State) :
    kept (tryLeaves s) = kept s := by simp [tryLeaves, keep_foldl]

@[simp] theorem runLeave_keep (release : Bool) (s : State) (f : Flight) :
    kept (runLeave release s f) = kept s := by
  unfold runLeave
  repeat' first
    | (simp [dt_of_keep, pending_of_keep, life_of_keep, skew_of_keep]; done)
    | (simp [keep_foldl, foldl_fst_keep, dt_of_keep, pending_of_keep, life_of_keep, skew_of_keep]; done)
    | intro _ _
    | intro _
    | rw [keep_foldl]
    | rw [foldl_fst_keep]
    | split
    | (apply keep_congr <;> simp [dt_of_keep, pending_of_keep, life_of_keep, skew_of_keep]; done)
    | (simp; first | rw [keep_foldl] | rw [foldl_fst_keep] | split | (apply keep_congr <;> simp [dt_of_keep, pending_of_keep, life_of_keep, skew_of_keep]; done))
    | with_reducible rfl

@[simp] theorem quarantinePort_keep (s : State) (p : Nat) (cause : Nat) :
    kept (quarantinePort s p cause) = kept s := by simp [quarantinePort, keep_foldl]

@[simp] theorem endSriov_keep (s : State) (p : Nat) :
    kept (endSriov s p) = kept s := by
  unfold endSriov
  repeat' first
    | (simp [keep_foldl, foldl_fst_keep, dt_of_keep, pending_of_keep, life_of_keep, skew_of_keep]; done)
    | intro _ _
    | rw [keep_foldl]
    | split

@[simp] theorem resetPf_keep (s : State) (p : Nat) :
    kept (resetPf s p) = kept s := by simp [resetPf, keep_foldl]

/-! ### Time -/

@[simp] theorem setSource_keep (s : State) (src : Nat) :
    kept (setSource s src) = kept s := by
  unfold setSource; dsimp only
  split <;> first | rfl | (apply keep_congr <;> simp [dt_of_keep, pending_of_keep, life_of_keep, skew_of_keep])

/-! ### Reset -/

@[simp] theorem notice_keep (s : State) (isl : Nat) :
    kept (notice s isl) = kept s := by simp [notice, keep_foldl]

@[simp] theorem endFlights_keep (s : State) (isl : Nat) :
    kept (endFlights s isl) = kept s := by simp [endFlights]

@[simp] theorem resetHost_keep (s : State) :
    kept (resetHost s) = kept s := by
  unfold resetHost
  repeat' first
    | (simp [dt_of_keep, pending_of_keep, life_of_keep, skew_of_keep]; done)
    | (simp [keep_foldl, foldl_fst_keep, dt_of_keep, pending_of_keep, life_of_keep, skew_of_keep]; done)
    | intro _ _
    | intro _
    | rw [keep_foldl]
    | rw [foldl_fst_keep]
    | split
    | (apply keep_congr <;> simp [dt_of_keep, pending_of_keep, life_of_keep, skew_of_keep]; done)
    | (simp; first | rw [keep_foldl] | rw [foldl_fst_keep] | split | (apply keep_congr <;> simp [dt_of_keep, pending_of_keep, life_of_keep, skew_of_keep]; done))
    | with_reducible rfl

@[simp] theorem endLeaves_keep (s : State) (status : Nat) :
    kept (endLeaves s status) = kept s := by
  unfold endLeaves
  repeat' first
    | (simp [keep_foldl, foldl_fst_keep, dt_of_keep, pending_of_keep, life_of_keep, skew_of_keep]; done)
    | intro _ _
    | rw [keep_foldl]
    | split

@[simp] theorem resetFabric_keep (s : State) :
    kept (resetFabric s) = kept s := by
  unfold resetFabric
  apply keep_congr <;> simp [dt_of_keep, pending_of_keep, life_of_keep, skew_of_keep]

@[simp] theorem resetMantle_keep (s : State) (isl : Nat) (relo : Bool) :
    kept (resetMantle s isl relo) = kept s := by
  have mid_keep : ∀ (s1 : State) (l : Tbl Slot) (m : Media), kept { s1 with slots := l, media := m } = kept s1 :=
    fun _ _ _ => rfl
  have heads_keep : ∀ (hs : List Nat), kept (hs.foldl (fun s h => s.modHead h fun d =>
      { hpd := d.hpd, sinkRate := d.sinkRate, sinkLanes := d.sinkLanes }) s) = kept s :=
    fun hs => by rw [keep_foldl]; exact fun _ _ => rfl
  unfold resetMantle
  dsimp only
  split
  · rw [keep_foldl _ (by simp), keep_foldl _ (by simp), mid_keep, heads_keep]
  · rw [keep_foldl _ (by simp), mid_keep, heads_keep]

@[simp] theorem endBindings_keep (s : State) :
    kept (endBindings s) = kept s := by simp [endBindings]

@[simp] theorem chapterReset_keep (s : State) (isl : Nat) (relo : Bool) :
    kept (chapterReset s isl relo) = kept s := by simp [chapterReset]

@[simp] theorem resetStep_keep (s : State) (isl : Nat) (relo : Bool) :
    kept (resetStep s isl relo) = kept s := by simp [resetStep]

@[simp] theorem chapterRelease_keep (s : State) (isl : Nat) :
    kept (chapterRelease s isl) = kept s := by
  unfold chapterRelease
  repeat' first
    | (simp [keep_foldl, foldl_fst_keep, dt_of_keep, pending_of_keep, life_of_keep, skew_of_keep]; done)
    | intro _ _
    | rw [keep_foldl]
    | split

@[simp] theorem release_keep (s : State) (isl : Nat) :
    kept (release s isl) = kept s := by simp [release]

@[simp] theorem watchWrite_keep (s : State) (fn : Nat) (k : State → State) (hk : ∀ s, kept (k s) = kept s) :
    kept (watchWrite s fn k) = kept s := by simp [watchWrite, hk]

/-! ### Power -/

@[simp] theorem powerOff_keep (s : State) (isl : Nat) :
    kept (powerOff s isl) = kept s := by simp [powerOff]

@[simp] theorem allOff_keep (s : State) :
    kept (allOff s) = kept s := by
  unfold allOff
  extract_lets s1 s2
  have h : kept s2 = kept s := by
    simp only [s1, s2]
    rw [keep_foldl _ (by simp), dropMail_keep, keep_foldl _ (by simp)]
  clear_value s2
  exact Eq.trans rfl h

@[simp] theorem powerAnswer_keep (s : State) (fn : Nat) (st : Nat) :
    kept (powerAnswer s fn st) = kept s := rfl

@[simp] theorem endRetReq_keep (s : State) (isl : Nat) :
    kept (endRetReq s isl) = kept s := by
  unfold endRetReq
  split <;> simp

@[simp] theorem setPower_keep (s : State) (fn : Nat) (isl : Nat) (st : Nat) :
    kept (setPower s fn isl st) = kept s := by simp [setPower]

@[simp] theorem enterStandby_keep (s : State) :
    kept (enterStandby s) = kept s := by simp [enterStandby]

@[simp] theorem railBad_keep (s : State) (r : Nat) :
    kept (railBad s r) = kept s := by simp [railBad]

@[simp] theorem readTemps_keep (s : State) (temps : Vector Int 24) :
    kept (readTemps s temps) = kept s := rfl

@[simp] theorem thermalStep_keep (floor : Nat) (s : State) (isl : Nat) :
    kept (thermalStep floor s isl) = kept s := by simp [thermalStep]

@[simp] theorem shutIfHot_keep (s : State) :
    kept (shutIfHot s) = kept s := by
  unfold shutIfHot
  split <;> simp

@[simp] theorem writeRecord_keep (s : State) :
    kept (writeRecord s) = kept s := by
  unfold writeRecord
  repeat' first
    | (simp [dt_of_keep, pending_of_keep, life_of_keep, skew_of_keep]; done)
    | (simp [keep_foldl, foldl_fst_keep, dt_of_keep, pending_of_keep, life_of_keep, skew_of_keep]; done)
    | intro _ _
    | intro _
    | rw [keep_foldl]
    | rw [foldl_fst_keep]
    | split
    | (apply keep_congr <;> simp [dt_of_keep, pending_of_keep, life_of_keep, skew_of_keep]; done)
    | (simp; first | rw [keep_foldl] | rw [foldl_fst_keep] | split | (apply keep_congr <;> simp [dt_of_keep, pending_of_keep, life_of_keep, skew_of_keep]; done))
    | with_reducible rfl

@[simp] theorem ageStep_keep (delays : List Nat) (s : State) (isl : Nat) :
    kept (ageStep delays s isl) = kept s := by simp [ageStep]

@[simp] theorem smbus_keep (s : State) (pecOk : Bool) (cmd : Nat) (k : State → State) (hk : ∀ s, kept (k s) = kept s) :
    kept (smbus s pecOk cmd k) = kept s := by simp [smbus, hk]

/-! ### Startup -/

@[simp] theorem bootFailed_keep (s : State) (err : Nat) :
    kept (bootFailed s err) = kept s := by
  unfold bootFailed
  repeat' first
    | (simp [dt_of_keep, pending_of_keep, life_of_keep, skew_of_keep]; done)
    | (simp [keep_foldl, foldl_fst_keep, dt_of_keep, pending_of_keep, life_of_keep, skew_of_keep]; done)
    | intro _ _
    | intro _
    | rw [keep_foldl]
    | rw [foldl_fst_keep]
    | split
    | (apply keep_congr <;> simp [dt_of_keep, pending_of_keep, life_of_keep, skew_of_keep]; done)
    | (simp; first | rw [keep_foldl] | rw [foldl_fst_keep] | split | (apply keep_congr <;> simp [dt_of_keep, pending_of_keep, life_of_keep, skew_of_keep]; done))
    | with_reducible rfl

@[simp] theorem releaseLantern_keep (s : State) :
    kept (releaseLantern s) = kept s := by
  unfold releaseLantern
  dsimp only
  split
  · rfl
  · split
    · simp
    · split
      · simp
      · rfl

@[simp] theorem setupPf_keep (im : Image) (s : State) (pf : Nat) :
    kept (setupPf im s pf) = kept s := by simp [setupPf]

@[simp] theorem hostRelease_keep (s : State) :
    kept (hostRelease s) = kept s := by
  unfold hostRelease
  repeat' first
    | (simp [dt_of_keep, pending_of_keep, life_of_keep, skew_of_keep]; done)
    | (simp [keep_foldl, foldl_fst_keep, dt_of_keep, pending_of_keep, life_of_keep, skew_of_keep]; done)
    | intro _ _
    | intro _
    | rw [keep_foldl]
    | rw [foldl_fst_keep]
    | split
    | (apply keep_congr <;> simp [dt_of_keep, pending_of_keep, life_of_keep, skew_of_keep]; done)
    | (simp; first | rw [keep_foldl] | rw [foldl_fst_keep] | split | (apply keep_congr <;> simp [dt_of_keep, pending_of_keep, life_of_keep, skew_of_keep]; done))
    | with_reducible rfl

@[simp] theorem tryHostRelease_keep (s : State) :
    kept (tryHostRelease s) = kept s := by simp [tryHostRelease]

@[simp] theorem railReached_keep (s : State) (r : Nat) :
    kept (railReached s r) = kept s := by
  unfold railReached
  repeat' first
    | (simp [dt_of_keep, pending_of_keep, life_of_keep, skew_of_keep]; done)
    | (simp [keep_foldl, foldl_fst_keep, dt_of_keep, pending_of_keep, life_of_keep, skew_of_keep]; done)
    | intro _ _
    | intro _
    | rw [keep_foldl]
    | rw [foldl_fst_keep]
    | split
    | (apply keep_congr <;> simp [dt_of_keep, pending_of_keep, life_of_keep, skew_of_keep]; done)
    | (simp; first | rw [keep_foldl] | rw [foldl_fst_keep] | split | (apply keep_congr <;> simp [dt_of_keep, pending_of_keep, life_of_keep, skew_of_keep]; done))
    | with_reducible rfl

@[simp] theorem loadAges_keep (s : State) (ages : Option (Vector AgeRec 16)) :
    kept (loadAges s ages) = kept s := by
  unfold loadAges
  repeat' first
    | (simp [dt_of_keep, pending_of_keep, life_of_keep, skew_of_keep]; done)
    | (simp [keep_foldl, foldl_fst_keep, dt_of_keep, pending_of_keep, life_of_keep, skew_of_keep]; done)
    | intro _ _
    | intro _
    | rw [keep_foldl]
    | rw [foldl_fst_keep]
    | split
    | (apply keep_congr <;> simp [dt_of_keep, pending_of_keep, life_of_keep, skew_of_keep]; done)
    | (simp; first | rw [keep_foldl] | rw [foldl_fst_keep] | split | (apply keep_congr <;> simp [dt_of_keep, pending_of_keep, life_of_keep, skew_of_keep]; done))
    | with_reducible rfl

@[simp] theorem startSafety_keep (s : State) (x : SafetyHeadCfg) :
    kept (startSafety s x) = kept s := by simp [startSafety]

@[simp] theorem startAlarmPath_keep (im : Image) (s : State) :
    kept (startAlarmPath im s) = kept s := by simp [startAlarmPath, keep_foldl]

/-! ### Registers -/

@[simp] theorem msixWrite_keep (s : State) (fn : Nat) (v : Nat) (k : Nat) (w : Word) :
    kept (msixWrite s fn v k w) = kept s := by simp [msixWrite]

@[simp] theorem safeLoadWrite_keep (s : State) (fn : Nat) (g : SafeLoad → SafeLoad) :
    kept (safeLoadWrite s fn g) = kept s := by simp [safeLoadWrite]

theorem mbGate_keep {s s1 : State} {fn m : Nat} (h : s.mbGate fn m = some s1) : kept s1 = kept s := by
  unfold State.mbGate at h
  split at h
  · cases h; rfl
  · split at h
    · cases h; rfl
    · split at h
      · cases h; simp
      · cases h

@[simp] theorem mailboxWord_keep (s : State) (fn : Nat) (m : Nat) (k : Nat) (w : Word) :
    kept (mailboxWord s fn m k w) = kept s := by
  unfold mailboxWord
  split
  · rename_i h; exact mbGate_keep h
  · split <;> simp

@[simp] theorem pageWrite_keep (s : State) (fn : Nat) (off : Nat) (w : Word) :
    kept (pageWrite s fn off w) = kept s := by
  unfold pageWrite; dsimp only
  (repeat' split) <;> simp

@[simp] theorem fabRegWrite_keep (s : State) (off : Nat) (w : Word) :
    kept (fabRegWrite s off w) = kept s := by
  unfold fabRegWrite
  repeat' first
    | (simp [dt_of_keep, pending_of_keep, life_of_keep, skew_of_keep]; done)
    | split

@[simp] theorem memRegWrite_keep (s : State) (off : Nat) (w : Word) :
    kept (memRegWrite s off w) = kept s := by
  unfold memRegWrite
  repeat' first
    | (simp [dt_of_keep, pending_of_keep, life_of_keep, skew_of_keep]; done)
    | split

@[simp] theorem chdRegWrite_keep (s : State) (off : Nat) (w : Word) :
    kept (chdRegWrite s off w) = kept s := by simp [chdRegWrite]

@[simp] theorem netWrite_keep (s : State) (off : Nat) (w : Word) :
    kept (netWrite s off w) = kept s := by
  unfold netWrite
  split <;> simp

@[simp] theorem audWrite_keep (s : State) (off : Nat) (w : Word) :
    kept (audWrite s off w) = kept s := by
  unfold audWrite
  repeat' first
    | (simp [dt_of_keep, pending_of_keep, life_of_keep, skew_of_keep]; done)
    | split

@[simp] theorem wchWrite_keep (s : State) (off : Nat) (w : Word) :
    kept (wchWrite s off w) = kept s := by simp [wchWrite]

@[simp] theorem checkWrite_keep (s : State) (fn : Nat) (h : Nat) (k : Nat) (r : Nat) (w : Word) :
    kept (checkWrite s fn h k r w) = kept s := by
  unfold checkWrite; dsimp only
  (repeat' split) <;> simp

@[simp] theorem mntWrite_keep (s : State) (fn : Nat) (off : Nat) (w : Word) :
    kept (mntWrite s fn off w) = kept s := by simp [mntWrite]

@[simp] theorem groupWrite_keep (s : State) (fn : Nat) (grp : Nat) (isUp : Bool) (k : State → State) (hk : ∀ s, kept (k s) = kept s) :
    kept (groupWrite s fn grp isUp k) = kept s := by simp [groupWrite, hk]

@[simp] theorem barWrite_keep (s : State) (fn : Nat) (off : Nat) (w : Word) :
    kept (barWrite s fn off w) = kept s := by
  unfold barWrite
  split <;> simp

/-! ### Serve -/

theorem allSpecs_keep (p : OpSpec) (h : p ∈ allSpecs) (s : State) (f : Flight) : kept (p.run s f) = kept s := by
  simp only [allSpecs, List.mem_cons, List.not_mem_nil, or_false] at h
  rcases h with rfl | rfl | rfl | rfl | rfl | rfl | rfl | rfl | rfl | rfl | rfl | rfl | rfl | rfl | rfl | rfl | rfl | rfl |
    rfl | rfl | rfl | rfl | rfl | rfl | rfl | rfl | rfl | rfl | rfl | rfl <;>
    simp [specNop, specFenceSignal, specFenceWait, specGfxSubmit, specComputeSubmit, specPipeline, specCopy, specSparse,
      specFlip, specHeadConfig, specListUpdate, specDecode, specEncode, specCameraBind, specRoute, specSwap,
      specStream, specHapticPlay, specHapticArm, specTouchConfig, specNetTx, specNetRxPost, specCreate, specQuiesce,
      specDestroy, specRelease, specPool, specPartition, specScrub, specSecure] <;>
    (repeat' split) <;> first | rfl | (intro _; simp)

@[simp] theorem serveWait_keep (s : State) (w : MemWait) :
    kept (serveWait s w) = kept s := by
  unfold serveWait
  extract_lets s1
  have h1 : kept s1 = kept s := by simp [s1]
  clear_value s1
  split
  · exact h1
  · simp [h1]
  · split
    · rw [kickChandelier_keep, keep_foldl _ (by simp), h1]
    · split
      · rename_i h
        rw [allSpecs_keep _ (List.mem_of_find?_eq_some h), h1]
      · exact h1

@[simp] theorem serveWaits_keep (s : State) :
    kept (serveWaits s) = kept s := by simp [serveWaits, keep_foldl]

end Sys2Proof.Machine
end

