-- ==== Sys2Proof/Laws/Memory.lean ====
section
/-! SUPPORT. The byte memories (notes/assumptions/8.md): the canonical form, read after write; which operations leave
DRAM and the list store as they are; and that every operation keeps the canonical form. -/

namespace Sys2Proof.Machine

/-! ### One memory -/

/-- The canonical form, for reasoning: no listed byte is zero and every later address is greater. -/
theorem wf_iff (m : List Host.Cell) :
    Memory.wf m = true ↔ (∀ c ∈ m, c.2 ≠ 0) ∧ m.Pairwise fun c d => c.1 < d.1 := by
  induction m with
  | nil => simp [Memory.wf]
  | cons c r ih =>
    match r with
    | [] => obtain ⟨a, v⟩ := c; simp [Memory.wf]
    | (b, w) :: r =>
      obtain ⟨a, v⟩ := c
      simp only [Memory.wf, Bool.and_eq_true, bne_iff_ne, decide_eq_true_eq, ih, List.pairwise_cons, List.mem_cons,
        forall_eq_or_imp]
      constructor
      · rintro ⟨⟨hv, hab⟩, ⟨hw, hr⟩, hb, hp⟩
        exact ⟨⟨hv, hw, hr⟩, ⟨hab, fun d hd => Nat.lt_trans hab (hb d hd)⟩, hb, hp⟩
      · rintro ⟨⟨hv, hw, hr⟩, ⟨hab, -⟩, hb, hp⟩
        exact ⟨⟨hv, hab⟩, ⟨hw, hr⟩, hb, hp⟩

/-- Every address of a written memory is the written one or was listed. -/
theorem mem_writeByte {m : List Host.Cell} {a : Nat} {v : Byte} {c : Host.Cell} (h : c ∈ writeByte m a v) :
    (c = (a, v) ∧ v ≠ 0) ∨ c ∈ m := by
  induction m with
  | nil => unfold writeByte at h; split at h <;> simp_all
  | cons d r ih =>
    obtain ⟨b, w⟩ := d
    unfold writeByte at h
    split at h
    · split at h
      · exact Or.inr h
      · rcases List.mem_cons.1 h with h | h
        · simp_all
        · exact Or.inr h
    · split at h
      · split at h
        · exact Or.inr (List.mem_cons_of_mem _ h)
        · rcases List.mem_cons.1 h with h | h
          · simp_all
          · exact Or.inr (List.mem_cons_of_mem _ h)
      · rcases List.mem_cons.1 h with h | h
        · exact Or.inr (by simp [h])
        · rcases ih h with h | h
          · exact Or.inl h
          · exact Or.inr (List.mem_cons_of_mem _ h)

/-- A write keeps the canonical form. -/
theorem writeByte_wf {m : List Host.Cell} (a : Nat) (v : Byte) (h : Memory.wf m = true) :
    Memory.wf (writeByte m a v) = true := by
  rw [wf_iff] at h ⊢
  obtain ⟨h0, hp⟩ := h
  refine ⟨fun c hc => ?_, ?_⟩
  · rcases mem_writeByte hc with ⟨rfl, hv⟩ | hc
    · exact hv
    · exact h0 c hc
  · induction m with
    | nil => unfold writeByte; split <;> simp
    | cons d r ih =>
      obtain ⟨b, w⟩ := d
      obtain ⟨hb, hr⟩ := List.pairwise_cons.1 hp
      have h0r : ∀ c ∈ r, c.2 ≠ 0 := fun c hc => h0 c (List.mem_cons_of_mem _ hc)
      unfold writeByte
      split
      · rename_i hab
        split
        · exact hp
        · refine List.pairwise_cons.2 ⟨fun c hc => ?_, hp⟩
          rcases List.mem_cons.1 hc with rfl | hc
          · exact hab
          · exact Nat.lt_trans hab (hb c hc)
      · split
        · rename_i hab
          split
          · exact hr
          · exact List.pairwise_cons.2 ⟨fun c hc => hab ▸ hb c hc, hr⟩
        · refine List.pairwise_cons.2 ⟨fun c hc => ?_, ih h0r hr⟩
          rcases mem_writeByte hc with ⟨rfl, -⟩ | hc
          · dsimp only; omega
          · exact hb c hc

/-- Writing a run of bytes keeps the canonical form. -/
theorem writeBytes_wf (l : List Byte) : ∀ {m : List Host.Cell} (a : Nat), Memory.wf m = true → Memory.wf (writeBytes m a l) = true := by
  induction l with
  | nil => intro m a h; exact h
  | cons v r ih => intro m a h; exact ih (a + 1) (writeByte_wf a v h)

/-- Zeroing a range keeps the canonical form. -/
theorem zeroRange_wf {m : List Host.Cell} (a n : Nat) (h : Memory.wf m = true) : Memory.wf (zeroRange m a n) = true := by
  rw [wf_iff] at h ⊢
  exact ⟨fun c hc => h.1 c ((List.mem_filter.1 hc).1), h.2.filter _⟩

/-- A byte that no entry lists reads zero. -/
theorem readByte_unlisted {m : List Host.Cell} {a : Nat} (h : ∀ c ∈ m, c.1 ≠ a) : readByte m a = 0 := by
  induction m with
  | nil => rfl
  | cons d r ih =>
    obtain ⟨b, w⟩ := d
    have hb : b ≠ a := h (b, w) (by simp)
    simp [readByte, hb, ih fun c hc => h c (List.mem_cons_of_mem _ hc)]

/-- Read after write. -/
theorem readByte_writeByte {m : List Host.Cell} (h : Memory.wf m = true) (a b : Nat) (v : Byte) :
    readByte (writeByte m a v) b = if b = a then v else readByte m b := by
  obtain ⟨-, hp⟩ := (wf_iff m).1 h
  clear h
  induction m with
  | nil =>
    unfold writeByte
    split
    · rename_i hv; simp [readByte, hv]
    · by_cases hba : b = a
      · simp [readByte, hba]
      · have : ¬ a = b := fun e => hba e.symm
        simp [readByte, hba, this]
  | cons d r ih =>
    obtain ⟨k, w⟩ := d
    obtain ⟨hk, hr⟩ := List.pairwise_cons.1 hp
    have tail0 : ∀ x, x < k ∨ x = k → readByte r x = 0 := fun x hx =>
      readByte_unlisted fun c hc => by have := hk c hc; dsimp only at this; omega
    unfold writeByte
    split
    · rename_i hak
      have h1 : ¬ k = a := by omega
      split
      · rename_i hv
        by_cases hba : b = a
        · subst hba; simp [readByte, h1, hv, tail0 b (Or.inl hak)]
        · simp [hba]
      · by_cases hba : b = a
        · simp [readByte, hba]
        · have : ¬ a = b := fun e => hba e.symm
          simp [readByte, hba, this]
    · split
      · rename_i hak
        subst hak
        split
        · rename_i hv
          by_cases hba : b = a
          · subst hba; simp [hv, tail0 b (Or.inr rfl)]
          · have : ¬ a = b := fun e => hba e.symm
            simp [readByte, hba, this]
        · by_cases hba : b = a
          · simp [readByte, hba]
          · have : ¬ a = b := fun e => hba e.symm
            simp [readByte, hba, this]
      · rename_i h1 h2
        by_cases hkb : k = b
        · subst hkb
          have : ¬ k = a := fun e => h2 e.symm
          simp [readByte, this]
        · simp [readByte, hkb, ih hr]

/-! ### Operations that store nothing -/

/-! ### Ops -/

/-- The bytes that a state lists: DRAM and the two copies of the list store. -/
def cellsOf (s : State) : List Host.Cell × List Host.Cell × List Host.Cell := (s.mem.dram, s.store.memA, s.store.memB)

theorem dram_of (s : State) : s.mem.dram = (cellsOf s).1 := rfl
theorem memA_of (s : State) : s.store.memA = (cellsOf s).2.1 := rfl
theorem memB_of (s : State) : s.store.memB = (cellsOf s).2.2 := rfl

theorem cells_congr {a b : State} (h1 : a.mem.dram = b.mem.dram) (h2 : a.store.memA = b.store.memA)
    (h3 : a.store.memB = b.store.memB) : cellsOf a = cellsOf b := by
  unfold cellsOf; rw [h1, h2, h3]

theorem foldl_cells {α : Type} (g : State → α → State) (h : ∀ s x, cellsOf (g s x) = cellsOf s) :
    ∀ (l : List α) (s : State), cellsOf (l.foldl g s) = cellsOf s
  | [], _ => rfl
  | x :: l, s => (foldl_cells g h l (g s x)).trans (h s x)

theorem foldl_fst_cells {α β : Type} (g : State × β → α → State × β) (h : ∀ a x, cellsOf (g a x).1 = cellsOf a.1) :
    ∀ (l : List α) (a : State × β), cellsOf (l.foldl g a).1 = cellsOf a.1
  | [], _ => rfl
  | x :: l, a => (foldl_fst_cells g h l (g a x)).trans (h a x)

@[simp] theorem ite_cells (p : Prop) [Decidable p] (a b : State) : cellsOf (if p then a else b) = if p then cellsOf a else cellsOf b :=
  apply_ite cellsOf p a b

@[simp] theorem State.modLan_cells (s : State) (f : Lantern → Lantern) : cellsOf (s.modLan f) = cellsOf s := rfl

@[simp] theorem State.modIsl_cells (s : State) (k0 : Nat) (f : Island → Island) : cellsOf (s.modIsl k0 f) = cellsOf s := rfl
@[simp] theorem State.modFn_cells (s : State) (k0 : Nat) (f : Func → Func) : cellsOf (s.modFn k0 f) = cellsOf s := rfl
@[simp] theorem State.modQ_cells (s : State) (k0 : Nat) (k1 : Nat) (f : Queue → Queue) : cellsOf (s.modQ k0 k1 f) = cellsOf s := rfl
@[simp] theorem State.modPort_cells (s : State) (k0 : Nat) (f : Port → Port) : cellsOf (s.modPort k0 f) = cellsOf s := rfl
@[simp] theorem State.modHead_cells (s : State) (k0 : Nat) (f : Head → Head) : cellsOf (s.modHead k0 f) = cellsOf s := rfl
@[simp] theorem State.modSlot_cells (s : State) (k0 : Nat) (f : Slot → Slot) : cellsOf (s.modSlot k0 f) = cellsOf s := rfl
@[simp] theorem State.modSafe_cells (s : State) (k0 : Nat) (f : SafeHead → SafeHead) : cellsOf (s.modSafe k0 f) = cellsOf s := rfl
@[simp] theorem State.modPair_cells (s : State) (k0 : Nat) (f : Pair → Pair) : cellsOf (s.modPair k0 f) = cellsOf s := rfl
@[simp] theorem State.modWl_cells (s : State) (f : Watchlamp → Watchlamp) : cellsOf (s.modWl f) = cellsOf s := rfl
@[simp] theorem State.modCtx_cells (s : State) (k0 : Nat) (f : Ctx → Ctx) : cellsOf (s.modCtx k0 f) = cellsOf s := rfl
@[simp] theorem State.modChand_cells (s : State) (f : Chand → Chand) : cellsOf (s.modChand f) = cellsOf s := rfl
@[simp] theorem State.modChan_cells (s : State) (k0 : Nat) (f : Chan → Chan) : cellsOf (s.modChan k0 f) = cellsOf s := rfl
@[simp] theorem State.modMem_cells (s : State) (f : Mem → Mem) (h : ∀ m, (f m).dram = m.dram) :
    cellsOf (s.modMem f) = cellsOf s := by
  unfold cellsOf; rw [State.modMem, h]

@[simp] theorem State.modPart_cells (s : State) (k0 : Nat) (f : Part → Part) : cellsOf (s.modPart k0 f) = cellsOf s := rfl
@[simp] theorem State.modFab_cells (s : State) (f : Fabric → Fabric) : cellsOf (s.modFab f) = cellsOf s := rfl
@[simp] theorem State.modTarget_cells (s : State) (k0 : Nat) (f : Target → Target) : cellsOf (s.modTarget k0 f) = cellsOf s := rfl
@[simp] theorem State.modSlotTab_cells (s : State) (k0 : Nat) (f : SlotTable → SlotTable) : cellsOf (s.modSlotTab k0 f) = cellsOf s := rfl
@[simp] theorem State.modLock_cells (s : State) (k0 : Nat) (f : Lock → Lock) : cellsOf (s.modLock k0 f) = cellsOf s := rfl
@[simp] theorem State.modCsi_cells (s : State) (k0 : Nat) (f : Csi → Csi) : cellsOf (s.modCsi k0 f) = cellsOf s := rfl
@[simp] theorem State.modNet_cells (s : State) (f : Net → Net) : cellsOf (s.modNet f) = cellsOf s := rfl
@[simp] theorem State.modPtp_cells (s : State) (k0 : Nat) (f : Ptp → Ptp) : cellsOf (s.modPtp k0 f) = cellsOf s := rfl
@[simp] theorem State.modEport_cells (s : State) (k0 : Nat) (f : EPort → EPort) : cellsOf (s.modEport k0 f) = cellsOf s := rfl
@[simp] theorem State.modGcl_cells (s : State) (k0 : Nat) (f : Gcl → Gcl) : cellsOf (s.modGcl k0 f) = cellsOf s := rfl
@[simp] theorem State.modCan_cells (s : State) (k0 : Nat) (f : Can → Can) : cellsOf (s.modCan k0 f) = cellsOf s := rfl
@[simp] theorem State.modAudio_cells (s : State) (f : Audio → Audio) : cellsOf (s.modAudio f) = cellsOf s := rfl
@[simp] theorem State.modTdm_cells (s : State) (k0 : Nat) (f : Tdm → Tdm) : cellsOf (s.modTdm k0 f) = cellsOf s := rfl
@[simp] theorem State.modSafeLoad_cells (s : State) (k0 : Nat) (f : SafeLoad → SafeLoad) : cellsOf (s.modSafeLoad k0 f) = cellsOf s := rfl
@[simp] theorem State.modPanel_cells (s : State) (k0 : Nat) (f : Panel → Panel) : cellsOf (s.modPanel k0 f) = cellsOf s := rfl
@[simp] theorem State.modObj_cells (s : State) (k0 : Nat) (f : ScObj → ScObj) : cellsOf (s.modObj k0 f) = cellsOf s := rfl
@[simp] theorem State.modHap_cells (s : State) (k0 : Nat) (f : Hap → Hap) : cellsOf (s.modHap k0 f) = cellsOf s := rfl
@[simp] theorem State.modMbox_cells (s : State) (k0 : Nat) (f : Mbox → Mbox) : cellsOf (s.modMbox k0 f) = cellsOf s := rfl
@[simp] theorem State.modFlt_cells (s : State) (f : Faults → Faults) : cellsOf (s.modFlt f) = cellsOf s := rfl
@[simp] theorem State.modPwr_cells (s : State) (f : Power → Power) : cellsOf (s.modPwr f) = cellsOf s := rfl
@[simp] theorem State.modRail_cells (s : State) (k0 : Nat) (f : Rail → Rail) : cellsOf (s.modRail k0 f) = cellsOf s := rfl
@[simp] theorem State.modBoot_cells (s : State) (f : Boot → Boot) : cellsOf (s.modBoot f) = cellsOf s := rfl
@[simp] theorem State.emit_cells (s : State) (o : Output) :
    cellsOf (State.emit s o) = cellsOf s := rfl

@[simp] theorem State.drawn_cells (s : State) :
    cellsOf (State.drawn s) = cellsOf s := rfl

@[simp] theorem sendIrq_cells (s : State) (fn : Nat) (vec : Nat) :
    cellsOf (sendIrq s fn vec) = cellsOf s := by simp [sendIrq]

@[simp] theorem gather_cells (s : State) (fn : Nat) (q : Nat) :
    cellsOf (gather s fn q) = cellsOf s := by simp [gather]

@[simp] theorem writeEntry_cells (s : State) (fn : Nat) (q : Nat) (h : Held) :
    cellsOf (writeEntry s fn q h) = cellsOf s := by simp [writeEntry]

@[simp] theorem postEntry_cells (s : State) (fn : Nat) (q : Nat) (h : Held) :
    cellsOf (postEntry s fn q h) = cellsOf s := by simp [postEntry]

@[simp] theorem flushLost_cells (s : State) (fn : Nat) :
    cellsOf (flushLost s fn) = cellsOf s := by simp [flushLost]

@[simp] theorem sendEventAt_cells (s : State) (fn : Nat) (evCode : Nat) (d5 : Nat) (d6 : Nat) (d7 : Nat) (stamp : Time) :
    cellsOf (sendEventAt s fn evCode d5 d6 d7 stamp) = cellsOf s := by simp [sendEventAt]

@[simp] theorem sendEvent_cells (s : State) (isl : Nat) (fn : Nat) (evCode : Nat) (d5 : Nat) (d6 : Nat) (d7 : Nat) :
    cellsOf (sendEvent s isl fn evCode d5 d6 d7) = cellsOf s := by simp [sendEvent]

@[simp] theorem sendManagers_cells (s : State) (isl : Nat) (evCode : Nat) (d5 : Nat) (d6 : Nat) (d7 : Nat) :
    cellsOf (sendManagers s isl evCode d5 d6 d7) = cellsOf s := by simp [sendManagers]

@[simp] theorem sendTo_cells (s : State) (isl : Nat) (fn : Option Nat) (evCode : Nat) (d5 : Nat) (d6 : Nat) (d7 : Nat) :
    cellsOf (sendTo s isl fn evCode d5 d6 d7) = cellsOf s := by
  unfold sendTo
  split <;> simp

@[simp] theorem flushHeld_cells (s : State) (fn : Nat) (q : Nat) (x3 : Nat) :
    cellsOf (flushHeld s fn q x3) = cellsOf s := by
  induction x3 generalizing s with
  | zero => rfl
  | succ n ih =>
    unfold flushHeld
    split
    · rfl
    · split <;> simp [ih]

@[simp] theorem State.setFence_cells (s : State) (fn : Nat) (n : Nat) (v : Nat) :
    cellsOf (State.setFence s fn n v) = cellsOf s := rfl

@[simp] theorem signalFence_cells (s : State) (fn : Nat) (n : Nat) (v : Nat) :
    cellsOf (signalFence s fn n v) = cellsOf s := by simp [signalFence]

@[simp] theorem finishCmd_cells (s : State) (c : Cmd) (status : Nat) (pay : List Nat) (stamp : Time) :
    cellsOf (finishCmd s c status pay stamp) = cellsOf s := by simp [finishCmd]

@[simp] theorem completeAt_cells (s : State) (id : Nat) (status : Nat) (pay : List Nat) (stamp : Time) :
    cellsOf (completeAt s id status pay stamp) = cellsOf s := by
  unfold completeAt
  repeat' first
    | (simp [dram_of, memA_of, memB_of]; done)
    | (simp [foldl_cells, foldl_fst_cells, dram_of, memA_of, memB_of]; done)
    | intro _ _
    | intro _
    | rw [foldl_cells]
    | rw [foldl_fst_cells]
    | split
    | (apply cells_congr <;> simp [dram_of, memA_of, memB_of]; done)
    | (simp; first | rw [foldl_cells] | rw [foldl_fst_cells] | split | (apply cells_congr <;> simp [dram_of, memA_of, memB_of]; done))
    | with_reducible rfl

@[simp] theorem complete_cells (s : State) (id : Nat) (status : Nat) (pay : List Nat) :
    cellsOf (complete s id status pay) = cellsOf s := by
  unfold complete
  split <;> simp

@[simp] theorem completeAll_cells (s : State) (ids : List Nat) (status : Nat) (pay : List Nat) :
    cellsOf (completeAll s ids status pay) = cellsOf s := by simp [completeAll, foldl_cells]

@[simp] theorem endAll_cells (s : State) (ids : List Nat) (status : Nat) :
    cellsOf (endAll s ids status) = cellsOf s := by simp [endAll, foldl_cells]

@[simp] theorem State.forget_cells (s : State) (p : Flight → Bool) :
    cellsOf (State.forget s p) = cellsOf s := rfl

@[simp] theorem bumpGen_cells (s : State) :
    cellsOf (bumpGen s) = cellsOf s := rfl

@[simp] theorem updAlmout_cells (s : State) :
    cellsOf (updAlmout s) = cellsOf s := by simp [updAlmout]

@[simp] theorem noteSys_cells (s : State) :
    cellsOf (noteSys s) = cellsOf s := rfl

@[simp] theorem setTone_cells (s : State) (n : Nat) (on : Bool) :
    cellsOf (setTone s n on) = cellsOf s := by simp [setTone]

@[simp] theorem raiseSysAlarm_cells (s : State) :
    cellsOf (raiseSysAlarm s) = cellsOf s := by simp [raiseSysAlarm]

@[simp] theorem fatalResponse_cells (s : State) :
    cellsOf (fatalResponse s) = cellsOf s := by simp [fatalResponse]

@[simp] theorem faultEvents_cells (s : State) (fc : Nat) (cls : Nat) (opn : Nat) (stamp : Time) :
    cellsOf (faultEvents s fc cls opn stamp) = cellsOf s := by
  unfold faultEvents
  split <;> simp

@[simp] theorem countCorrected_cells (s : State) (isl : Nat) :
    cellsOf (countCorrected s isl) = cellsOf s := rfl

@[simp] theorem reportAt_cells (s : State) (isl : Nat) (src : Nat) (loss : Bool) (stamp : Time) :
    cellsOf (reportAt s isl src loss stamp) = cellsOf s := by simp [reportAt]

@[simp] theorem report_cells (s : State) (isl : Nat) (src : Nat) (loss : Bool) :
    cellsOf (report s isl src loss) = cellsOf s := by simp [report]

@[simp] theorem updFaultPin_cells (s : State) :
    cellsOf (updFaultPin s) = cellsOf s := by simp [updFaultPin]

@[simp] theorem closeLoss_cells (s : State) (fc : Nat) :
    cellsOf (closeLoss s fc) = cellsOf s := by simp [closeLoss]

@[simp] theorem closeOneLoss_cells (s : State) (fc : Nat) :
    cellsOf (closeOneLoss s fc) = cellsOf s := by simp [closeOneLoss]

@[simp] theorem ackSysAlarm_cells (s : State) :
    cellsOf (ackSysAlarm s) = cellsOf s := by simp [ackSysAlarm]

@[simp] theorem worldViolation_cells (s : State) (isl : Nat) (ini : Nat) :
    cellsOf (worldViolation s isl ini) = cellsOf s := rfl

@[simp] theorem countRefused_cells (s : State) (ini : Nat) :
    cellsOf (countRefused s ini) = cellsOf s := rfl

@[simp] theorem State.dropGroup_cells (s : State) :
    cellsOf (State.dropGroup s) = cellsOf s := rfl

@[simp] theorem State.dropHead_cells (s : State) :
    cellsOf (State.dropHead s) = cellsOf s := rfl

@[simp] theorem holdPerf_cells (s : State) (i : Nat) (fn : Nat) :
    cellsOf (holdPerf s i fn) = cellsOf s := by
  unfold holdPerf
  repeat' first
    | (simp [foldl_cells, foldl_fst_cells, dram_of, memA_of, memB_of]; done)
    | intro _ _
    | rw [foldl_cells]
    | split

@[simp] theorem setFnState_cells (s : State) (fn : Nat) (new : Nat) :
    cellsOf (setFnState s fn new) = cellsOf s := by simp [setFnState]

/-! ### Dram -/

@[simp] theorem takeLine_cells (s : State) (line : Nat) (dirty : Bool) :
    cellsOf (takeLine s line dirty) = cellsOf s := by simp [takeLine]

@[simp] theorem waitChan_cells (s : State) (id : Nat) (c : Nat) (put : optParam (Option (Nat × List Byte × List Nat)) none) :
    cellsOf (waitChan s id c put) = cellsOf s := rfl

@[simp] theorem freezeChan_cells (s : State) (c : Nat) (r : MemReq) (syn : Nat) :
    cellsOf (freezeChan s c r syn) = cellsOf s := by simp [freezeChan]

@[simp] theorem readLine_cells (s : State) (fn : Nat) (a : Nat) :
    cellsOf (readLine s fn a) = cellsOf s := by
  unfold readLine
  split <;> simp

@[simp] theorem markLost_cells (s : State) (p : Nat) (unfilled : Bool) :
    cellsOf (markLost s p unfilled) = cellsOf s := rfl

@[simp] theorem lostEvent_cells (s : State) (p : Nat) (c : Nat) :
    cellsOf (lostEvent s p c) = cellsOf s := by simp [lostEvent]

@[simp] theorem loseParts_cells (s : State) (ps : List Nat) (chan : Nat → Nat) (unfilled : Bool) :
    cellsOf (loseParts s ps chan unfilled) = cellsOf s := by simp [loseParts, foldl_cells]

@[simp] theorem losePipelines_cells (s : State) (c : Nat) :
    cellsOf (losePipelines s c) = cellsOf s := by simp [losePipelines, foldl_cells]

/-! ### Rings -/

@[simp] theorem discardDoorbell_cells (s : State) (fn : Nat) (q : Nat) (cq : Bool) (w : Word) :
    cellsOf (discardDoorbell s fn q cq w) = cellsOf s := by simp [discardDoorbell]

@[simp] theorem countHeld_cells (s : State) (c : Cmd) (st : Nat) :
    cellsOf (countHeld s c st) = cellsOf s := by simp [countHeld]

@[simp] theorem consume_cells (s : State) (c : Cmd) :
    cellsOf (consume s c) = cellsOf s := rfl

@[simp] theorem execute_cells (s : State) (p : OpSpec) (f : Flight) (hp : ∀ s f, cellsOf (p.run s f) = cellsOf s) :
    cellsOf (execute s p f) = cellsOf s := by
  unfold execute
  split
  · simp
  · rw [hp, holdPerf_cells]

@[simp] theorem startCmd_cells (s : State) (p : OpSpec) (c : Cmd) (hp : ∀ s f, cellsOf (p.run s f) = cellsOf s) :
    cellsOf (startCmd s p c) = cellsOf s := by
  unfold startCmd
  repeat' first
    | (simp [dram_of, memA_of, memB_of, hp]; done)
    | (simp [foldl_cells, foldl_fst_cells, dram_of, memA_of, memB_of, hp]; done)
    | intro _ _
    | intro _
    | rw [foldl_cells]
    | rw [foldl_fst_cells]
    | rw [execute_cells]
    | split
    | (apply cells_congr <;> simp [dram_of, memA_of, memB_of, hp]; done)
    | (simp; first | rw [foldl_cells] | rw [foldl_fst_cells] | rw [execute_cells] | split | (apply cells_congr <;> simp [dram_of, memA_of, memB_of, hp]; done))
    | with_reducible rfl

@[simp] theorem recheck_cells (s : State) (p : OpSpec) (f : Flight) (hp : ∀ s f, cellsOf (p.run s f) = cellsOf s) :
    cellsOf (recheck s p f) = cellsOf s := by
  unfold recheck
  split <;> simp [hp]

@[simp] theorem State.modFlight_cells (s : State) (id : Nat) (g : Flight → Flight) :
    cellsOf (State.modFlight s id g) = cellsOf s := rfl

@[simp] theorem resume_cells (s : State) (p : OpSpec) (f : Flight) (hp : ∀ s f, cellsOf (p.run s f) = cellsOf s) :
    cellsOf (resume s p f) = cellsOf s := by
  unfold resume
  exact (recheck_cells _ p _ hp).trans rfl

/-! ### Relocate -/

@[simp] theorem sendSafety_cells (s : State) (h : Nat) (p : Nat) (d7 : Nat) :
    cellsOf (sendSafety s h p d7) = cellsOf s := by simp [sendSafety, foldl_cells]

@[simp] theorem dropLoss_cells (s : State) (h : Nat) :
    cellsOf (dropLoss s h) = cellsOf s := by simp [dropLoss]

@[simp] theorem relocate_cells (s : State) (h : Nat) (cause : Nat) :
    cellsOf (relocate s h cause) = cellsOf s := by simp [relocate]

@[simp] theorem endRelocation_cells (s : State) (h : Nat) :
    cellsOf (endRelocation s h) = cellsOf s := by simp [endRelocation]

@[simp] theorem linkLost_cells (s : State) (h : Nat) :
    cellsOf (linkLost s h) = cellsOf s := by simp [linkLost]

/-! ### Bins -/

@[simp] theorem touch_cells (s : State) (c : Nat) (a : Nat) (n : Nat) :
    cellsOf (touch s c a n) = cellsOf s := by
  unfold touch; dsimp only
  (repeat' split) <;> simp

@[simp] theorem chdWrite_cells (s : State) (c : Nat) (a : Nat) (l : List Byte) :
    cellsOf (chdWrite s c a l) = cellsOf s := by simp [chdWrite]

@[simp] theorem spillTile_cells (c : Nat) (p : Pass) (s : State) (tile : Nat) :
    cellsOf (spillTile c p s tile) = cellsOf s := by simp [spillTile, foldl_cells]

@[simp] theorem partialRender_cells (s : State) (c : Nat) (p : Pass) :
    cellsOf ((partialRender s c p).1) = cellsOf s := by simp [partialRender, foldl_cells]

@[simp] theorem binInto_cells (attrs : Nat) (q : BinPrim) (c : Nat) (a : State × Pass) (tiles : List Nat) :
    cellsOf (binInto attrs q c a tiles).1 = cellsOf a.1 := by
  unfold binInto
  dsimp only
  split <;> simp

@[simp] theorem binPrim_cells (attrs c : Nat) (a : State × Pass) (q : BinPrim) :
    cellsOf (binPrim attrs c a q).1 = cellsOf a.1 := by
  unfold binPrim
  dsimp only
  split
  · simp
  · refine foldl_fst_cells _ (fun b k => ?_) _ _
    split <;> simp

@[simp] theorem binDraw_cells (s : State) (c : Nat) (args : List Nat) :
    cellsOf (binDraw s c args) = cellsOf s := by
  unfold binDraw
  split
  · rfl
  · dsimp only
    rw [State.modCtx_cells, foldl_fst_cells _ (by simp), State.drawn_cells]

@[simp] theorem putElement_cells (c : Nat) (p : Pass) (tile : Nat) (a : Nat) (smp : Nat) (l : List Nat) (s : State) (i : Nat) :
    cellsOf (putElement c p tile a smp l s i) = cellsOf s := by simp [putElement]

@[simp] theorem putBlock_cells (c : Nat) (p : Pass) (tile : Nat) (a : Nat) (smp : Nat) (l : List Nat) (s : State) (k : Nat) :
    cellsOf (putBlock c p tile a smp l s k) = cellsOf s := by simp [putBlock]

@[simp] theorem storePlane_cells (c : Nat) (p : Pass) (tile : Nat) (l : List Nat) (s : State) (e : (Nat × Nat) × Nat) :
    cellsOf (storePlane c p tile l s e) = cellsOf s := by simp [storePlane, foldl_cells]

@[simp] theorem finishTile_cells (c : Nat) (p : Pass) (s : State) (tile : Nat) :
    cellsOf (finishTile c p s tile) = cellsOf s := by simp [finishTile, foldl_cells]

@[simp] theorem endPass_cells (s : State) (c : Nat) :
    cellsOf (endPass s c) = cellsOf s := by
  unfold endPass
  repeat' first
    | (simp [foldl_cells, foldl_fst_cells, dram_of, memA_of, memB_of]; done)
    | split

@[simp] theorem robust_cells (s : State) :
    cellsOf (robust s) = cellsOf s := rfl

@[simp] theorem sampleSparse_cells (s : State) (c : Nat) (g : SparseImage) (ts : List Texel) :
    cellsOf ((sampleSparse s c g ts).1) = cellsOf s := by simp [sampleSparse, foldl_cells]

@[simp] theorem fillTapers_cells (s : State) (c : Nat) :
    cellsOf (fillTapers s c) = cellsOf s := by
  unfold fillTapers
  repeat' first
    | (simp [dram_of, memA_of, memB_of]; done)
    | (simp [foldl_cells, foldl_fst_cells, dram_of, memA_of, memB_of]; done)
    | intro _ _
    | intro _
    | rw [foldl_cells]
    | rw [foldl_fst_cells]
    | split
    | (apply cells_congr <;> simp [dram_of, memA_of, memB_of]; done)
    | (simp; first | rw [foldl_cells] | rw [foldl_fst_cells] | split | (apply cells_congr <;> simp [dram_of, memA_of, memB_of]; done))
    | with_reducible rfl

@[simp] theorem clampCount_cells (s : State) (n : Nat) : cellsOf (clampCount s n).1 = cellsOf s := by
  unfold clampCount
  split <;> simp

/-! ### Tapers -/

@[simp] theorem releaseTapers_cells (s : State) (c : Nat) :
    cellsOf (releaseTapers s c) = cellsOf s := by
  unfold releaseTapers
  repeat' first
    | (simp [dram_of, memA_of, memB_of]; done)
    | (simp [foldl_cells, foldl_fst_cells, dram_of, memA_of, memB_of]; done)
    | intro _ _
    | intro _
    | rw [foldl_cells]
    | rw [foldl_fst_cells]
    | split
    | (apply cells_congr <;> simp [dram_of, memA_of, memB_of]; done)
    | (simp; first | rw [foldl_cells] | rw [foldl_fst_cells] | split | (apply cells_congr <;> simp [dram_of, memA_of, memB_of]; done))
    | with_reducible rfl

@[simp] theorem book_cells (s : State) :
    cellsOf (book s) = cellsOf s := by simp [book, foldl_cells]

@[simp] theorem stopTapers_cells (s : State) (c : Nat) (ts : List Nat) :
    cellsOf (stopTapers s c ts) = cellsOf s := by
  unfold stopTapers
  repeat' first
    | (simp [dram_of, memA_of, memB_of]; done)
    | (simp [foldl_cells, foldl_fst_cells, dram_of, memA_of, memB_of]; done)
    | intro _ _
    | intro _
    | rw [foldl_cells]
    | rw [foldl_fst_cells]
    | split
    | (apply cells_congr <;> simp [dram_of, memA_of, memB_of]; done)
    | (simp; first | rw [foldl_cells] | rw [foldl_fst_cells] | split | (apply cells_congr <;> simp [dram_of, memA_of, memB_of]; done))
    | with_reducible rfl

@[simp] theorem preempt_cells (s : State) (c : Nat) (ts : List Nat) :
    cellsOf (preempt s c ts) = cellsOf s := by simp [preempt]

@[simp] theorem displace_cells (s : State) :
    cellsOf (displace s) = cellsOf s := by simp [displace, foldl_cells]

@[simp] theorem rebalance_cells (s : State) :
    cellsOf (rebalance s) = cellsOf s := by
  unfold rebalance
  repeat' first
    | (simp [dram_of, memA_of, memB_of]; done)
    | (simp [foldl_cells, foldl_fst_cells, dram_of, memA_of, memB_of]; done)
    | intro _ _
    | intro _
    | rw [foldl_cells]
    | rw [foldl_fst_cells]
    | split
    | (apply cells_congr <;> simp [dram_of, memA_of, memB_of]; done)
    | (simp; first | rw [foldl_cells] | rw [foldl_fst_cells] | split | (apply cells_congr <;> simp [dram_of, memA_of, memB_of]; done))
    | with_reducible rfl

@[simp] theorem preemptShort_cells (s : State) :
    cellsOf (preemptShort s) = cellsOf s := by simp [preemptShort, foldl_cells]

@[simp] theorem saveDone_cells (s : State) (c : Nat) :
    cellsOf (saveDone s c) = cellsOf s := by
  unfold saveDone
  repeat' first
    | (simp [dram_of, memA_of, memB_of]; done)
    | (simp [foldl_cells, foldl_fst_cells, dram_of, memA_of, memB_of]; done)
    | intro _ _
    | intro _
    | rw [foldl_cells]
    | rw [foldl_fst_cells]
    | split
    | (apply cells_congr <;> simp [dram_of, memA_of, memB_of]; done)
    | (simp; first | rw [foldl_cells] | rw [foldl_fst_cells] | split | (apply cells_congr <;> simp [dram_of, memA_of, memB_of]; done))
    | with_reducible rfl

/-! ### Chandelier -/

@[simp] theorem reapPipelines_cells (s : State) :
    cellsOf (reapPipelines s) = cellsOf s := rfl

@[simp] theorem leaveCtx_cells (s : State) (c : Nat) :
    cellsOf (leaveCtx s c) = cellsOf s := by simp [leaveCtx]

@[simp] theorem undoPreempt_cells (s : State) (c : Nat) :
    cellsOf (undoPreempt s c) = cellsOf s := by simp [undoPreempt]

@[simp] theorem grantCtxs_cells (s : State) (fn : Nat) (n : Nat) :
    cellsOf (grantCtxs s fn n) = cellsOf s := by
  unfold grantCtxs
  repeat' first
    | (simp [foldl_cells, foldl_fst_cells, dram_of, memA_of, memB_of]; done)
    | intro _ _
    | rw [foldl_cells]
    | split

@[simp] theorem freeCtxs_cells (s : State) (fn : Nat) :
    cellsOf (freeCtxs s fn) = cellsOf s := by
  unfold freeCtxs
  repeat' first
    | (simp [foldl_cells, foldl_fst_cells, dram_of, memA_of, memB_of]; done)
    | intro _ _
    | rw [foldl_cells]
    | split

@[simp] theorem dropPipelines_cells (s : State) (fn : Nat) :
    cellsOf (dropPipelines s fn) = cellsOf s := rfl

@[simp] theorem loseCtx_cells (isl : Nat) (s : State) (c : Nat) :
    cellsOf (loseCtx isl s c) = cellsOf s := by
  unfold loseCtx; dsimp only
  (repeat' split) <;> simp

/-! ### Haptics -/

@[simp] theorem endEffect_cells (s : State) (ch : Nat) (e : Effect) :
    cellsOf (endEffect s ch e) = cellsOf s := by
  unfold endEffect
  split <;> simp

@[simp] theorem endStops_cells (s : State) (ch : Nat) :
    cellsOf (endStops s ch) = cellsOf s := by simp [endStops, foldl_cells]

@[simp] theorem startEffect_cells (s : State) (ch : Nat) (e : Effect) :
    cellsOf (startEffect s ch e) = cellsOf s := rfl

@[simp] theorem brakeNow_cells (s : State) (ch : Nat) (pre : Bool) :
    cellsOf (brakeNow s ch pre) = cellsOf s := by
  unfold brakeNow
  split <;> simp

@[simp] theorem takeOver_cells (s : State) (ch : Nat) (e : Effect) :
    cellsOf (takeOver s ch e) = cellsOf s := by
  unfold takeOver; dsimp only
  split <;> simp

@[simp] theorem requestEffect_cells (s : State) (ch : Nat) (e : Effect) :
    cellsOf (requestEffect s ch e).1 = cellsOf s := by
  unfold requestEffect
  dsimp only
  repeat' first
    | (simp; done)
    | split

@[simp] theorem hapticAlarm_cells (s : State) (ch : Nat) (effect : Nat) :
    cellsOf (hapticAlarm s ch effect) = cellsOf s := by simp [hapticAlarm]

@[simp] theorem playEffect_cells (s : State) (f : Flight) :
    cellsOf (playEffect s f) = cellsOf s := by simp [playEffect]

@[simp] theorem armChannel_cells (s : State) (f : Flight) :
    cellsOf (armChannel s f) = cellsOf s := by simp [armChannel]

@[simp] theorem dropWaiting_cells (s : State) (ch : Nat) (e : Effect) (status : Nat) (pay : List Nat) :
    cellsOf (dropWaiting s ch e status pay) = cellsOf s := by
  unfold dropWaiting
  split <;> simp

@[simp] theorem beginWaiting_cells (s : State) (ch : Nat) (e : Effect) :
    cellsOf (beginWaiting s ch e) = cellsOf s := by
  unfold beginWaiting
  split <;> simp

@[simp] theorem atCrossing_cells (s : State) (ch : Nat) :
    cellsOf (atCrossing s ch) = cellsOf s := by
  unfold atCrossing
  split <;> simp

@[simp] theorem stopEffects_cells (s : State) (p : Effect → Bool) :
    cellsOf (stopEffects s p) = cellsOf s := by
  unfold stopEffects
  repeat' first
    | (simp [foldl_cells, foldl_fst_cells, dram_of, memA_of, memB_of]; done)
    | intro _ _
    | rw [foldl_cells]
    | split

@[simp] theorem releaseHaptics_cells (s : State) (fn : Nat) :
    cellsOf (releaseHaptics s fn) = cellsOf s := by
  unfold releaseHaptics
  repeat' first
    | (simp [dram_of, memA_of, memB_of]; done)
    | (simp [foldl_cells, foldl_fst_cells, dram_of, memA_of, memB_of]; done)
    | intro _ _
    | intro _
    | rw [foldl_cells]
    | rw [foldl_fst_cells]
    | split
    | (apply cells_congr <;> simp [dram_of, memA_of, memB_of]; done)
    | (simp; first | rw [foldl_cells] | rw [foldl_fst_cells] | split | (apply cells_congr <;> simp [dram_of, memA_of, memB_of]; done))
    | with_reducible rfl

/-! ### Lists -/

@[simp] theorem unresolved_cells (s : State) (p : Nat) :
    cellsOf (unresolved s p) = cellsOf s := by simp [unresolved, foldl_cells]

@[simp] theorem outOfService_cells (s : State) (p : Nat) (b : Bool) (new : Nat) :
    cellsOf (outOfService s p b new) = cellsOf s := rfl

@[simp] theorem rebuild_cells (s : State) (p : Nat) (b : Bool) :
    cellsOf (rebuild s p b) = cellsOf s := by simp [rebuild]

/-! ### Heads -/

@[simp] theorem headWrite_cells (s : State) (fn : Nat) (h : Nat) (sec : Bool) (k : State → State) (hk : ∀ s, cellsOf (k s) = cellsOf s) :
    cellsOf (headWrite s fn h sec k) = cellsOf s := by simp [headWrite, hk]

@[simp] theorem setLink_cells (s : State) (h : Nat) (link : Nat) (rate : Nat) (lanes : Nat) :
    cellsOf (setLink s h link rate lanes) = cellsOf s := rfl

@[simp] theorem showSends_cells (old : State) (s : State) (h : Nat) :
    cellsOf (showSends old s h) = cellsOf s := by simp [showSends]

@[simp] theorem linkEvent_cells (s : State) (h : Nat) (cause : Nat) :
    cellsOf (linkEvent s h cause) = cellsOf s := by simp [linkEvent]

@[simp] theorem startTiming_cells (s : State) (h : Nat) :
    cellsOf (startTiming s h) = cellsOf s := rfl

@[simp] theorem trainingFailed_cells (s : State) (h : Nat) (flight : Option Nat) (attempts : Nat) :
    cellsOf (trainingFailed s h flight attempts) = cellsOf s := by
  unfold trainingFailed
  split <;> simp

@[simp] theorem train_cells (s : State) (h : Nat) (cause : Nat) (cands : List (Nat × Nat)) (flight : Option Nat) :
    cellsOf (train s h cause cands flight) = cellsOf s := by simp [train]

@[simp] theorem bootTrained_cells (s : State) (h : Nat) (up : Option (Nat × Nat)) :
    cellsOf (bootTrained s h up) = cellsOf s := by
  unfold bootTrained
  split <;> simp

@[simp] theorem trainingOver_cells (s : State) (h : Nat) (tr : Training) (attempts : Nat) :
    cellsOf (trainingOver s h tr attempts) = cellsOf s := by simp [trainingOver]

@[simp] theorem trainedOn_cells (s : State) (h : Nat) (tr : Training) (c : Nat × Nat) :
    cellsOf (trainedOn s h tr c) = cellsOf s := by
  unfold trainedOn; dsimp only
  (repeat' split) <;> simp

@[simp] theorem turnOff_cells (s : State) (h : Nat) :
    cellsOf (turnOff s h) = cellsOf s := by
  unfold turnOff
  repeat' first
    | (simp [dram_of, memA_of, memB_of]; done)
    | (simp [foldl_cells, foldl_fst_cells, dram_of, memA_of, memB_of]; done)
    | intro _ _
    | intro _
    | rw [foldl_cells]
    | rw [foldl_fst_cells]
    | split
    | (apply cells_congr <;> simp [dram_of, memA_of, memB_of]; done)
    | (simp; first | rw [foldl_cells] | rw [foldl_fst_cells] | split | (apply cells_congr <;> simp [dram_of, memA_of, memB_of]; done))
    | with_reducible rfl

@[simp] theorem dropSlots_cells (s : State) (h : Nat) :
    cellsOf (dropSlots s h) = cellsOf s := by
  unfold dropSlots
  repeat' first
    | (simp [dram_of, memA_of, memB_of]; done)
    | (simp [foldl_cells, foldl_fst_cells, dram_of, memA_of, memB_of]; done)
    | intro _ _
    | intro _
    | rw [foldl_cells]
    | rw [foldl_fst_cells]
    | split
    | (apply cells_congr <;> simp [dram_of, memA_of, memB_of]; done)
    | (simp; first | rw [foldl_cells] | rw [foldl_fst_cells] | split | (apply cells_congr <;> simp [dram_of, memA_of, memB_of]; done))
    | with_reducible rfl

@[simp] theorem applyConfig_cells (s : State) (f : Flight) :
    cellsOf (applyConfig s f) = cellsOf s := by simp [applyConfig]

@[simp] theorem pwmEnd_cells (s : State) (h : Nat) :
    cellsOf (pwmEnd s h) = cellsOf s := rfl

@[simp] theorem lockEvent_cells (s : State) (h : Nat) (old : Nat) :
    cellsOf (lockEvent s h old) = cellsOf s := by simp [lockEvent]

@[simp] theorem lineLock_cells (s : State) (h : Nat) :
    cellsOf (lineLock s h) = cellsOf s := by simp [lineLock]

@[simp] theorem camReturns_cells (s : State) (port : Nat) :
    cellsOf (camReturns s port) = cellsOf s := by simp [camReturns, foldl_cells]

@[simp] theorem mapChecks_cells (s : State) (h : Nat) (g : Check → Check) :
    cellsOf (mapChecks s h g) = cellsOf s := rfl

@[simp] theorem frameStart_cells (s : State) (h : Nat) (loopOk : Bool) :
    cellsOf (frameStart s h loopOk) = cellsOf s := by
  unfold frameStart; dsimp only
  split <;> simp

@[simp] theorem completeDone_cells (s : State) (h : Nat) :
    cellsOf (completeDone s h) = cellsOf s := by simp [completeDone, foldl_cells]

@[simp] theorem frozenEvent_cells (s : State) (h : Nat) (k : Nat) (d7 : Nat) :
    cellsOf (frozenEvent s h k d7) = cellsOf s := by simp [frozenEvent, foldl_cells]

@[simp] theorem State.modCheck_cells (s : State) (h : Nat) (k : Nat) (g : Check → Check) :
    cellsOf (State.modCheck s h k g) = cellsOf s := rfl

@[simp] theorem freezeDetect_cells (s : State) (h : Nat) (i : Nat) (k : Check) (crc : Nat) :
    cellsOf (freezeDetect s h i k crc) = cellsOf s := by
  unfold freezeDetect
  split <;> simp

@[simp] theorem ckEnd_cells (s : State) (h : Nat) (i : Nat) (k : Check) :
    cellsOf (ckEnd s h i k) = cellsOf s := by simp [ckEnd]

@[simp] theorem safetyFrame_cells (s : State) (h : Nat) :
    cellsOf (safetyFrame s h) = cellsOf s := by
  unfold safetyFrame
  split <;> simp

@[simp] theorem releaseGroups_cells (s : State) :
    cellsOf (releaseGroups s) = cellsOf s := by
  unfold releaseGroups
  repeat' first
    | (simp [foldl_cells, foldl_fst_cells, dram_of, memA_of, memB_of]; done)
    | intro _ _
    | rw [foldl_cells]
    | split

@[simp] theorem disableSlot_cells (s : State) (n : Nat) :
    cellsOf (disableSlot s n) = cellsOf s := rfl

@[simp] theorem applyEntry_cells (fn : Nat) (h : Nat) (s : State) (e : Layer) :
    cellsOf (applyEntry fn h s e) = cellsOf s := by simp [applyEntry]

@[simp] theorem applyLayers_cells (s : State) (h : Nat) (p : PFlip) :
    cellsOf (applyLayers s h p) = cellsOf s := by
  unfold applyLayers
  repeat' first
    | (simp [dram_of, memA_of, memB_of]; done)
    | (simp [foldl_cells, foldl_fst_cells, dram_of, memA_of, memB_of]; done)
    | intro _ _
    | intro _
    | rw [foldl_cells]
    | rw [foldl_fst_cells]
    | split
    | (apply cells_congr <;> simp [dram_of, memA_of, memB_of]; done)
    | (simp; first | rw [foldl_cells] | rw [foldl_fst_cells] | split | (apply cells_congr <;> simp [dram_of, memA_of, memB_of]; done))
    | with_reducible rfl

@[simp] theorem judge_cells (h : Nat) (L : Time) (x2 : State) (x3 : List PFlip) (x4 : List Nat) :
    cellsOf (judge h L x2 x3 x4) = cellsOf x2 := by
  induction x3 generalizing x2 x4 with
  | nil => rfl
  | cons p r ih =>
    unfold judge
    dsimp only
    split
    · simp [ih]
    · split <;> simp [ih]

@[simp] theorem latchRelocated_cells (s : State) (p : Nat) :
    cellsOf (latchRelocated s p) = cellsOf s := by simp [latchRelocated, foldl_cells]

@[simp] theorem latchPicture_cells (s : State) (h : Nat) (L : Time) :
    cellsOf (latchPicture s h L) = cellsOf s := by simp [latchPicture]

@[simp] theorem takeNight_cells (s : State) (h : Nat) :
    cellsOf (takeNight s h) = cellsOf s := rfl

/-! ### Watchlamp -/

@[simp] theorem sendGuest_cells (s : State) (evCode : Nat) (d5 : Nat) (d6 : Nat) (d7 : Nat) :
    cellsOf (sendGuest s evCode d5 d6 d7) = cellsOf s := by
  unfold sendGuest
  split <;> simp

@[simp] theorem setWlMode_cells (s : State) (mode : Nat) (cause : Nat) :
    cellsOf (setWlMode s mode cause) = cellsOf s := by simp [setWlMode]

@[simp] theorem wlWrite_cells (s : State) (fn : Nat) (k : State → State) (hk : ∀ s, cellsOf (k s) = cellsOf s) :
    cellsOf (wlWrite s fn k) = cellsOf s := by simp [wlWrite, hk]

@[simp] theorem State.modRule_cells (s : State) (r : Nat) (f : RuleSt → RuleSt) :
    cellsOf (State.modRule s r f) = cellsOf s := rfl

@[simp] theorem setRule_cells (s : State) (r : Nat) (rule : AlarmRule) (st : Nat) :
    cellsOf (setRule s r rule st) = cellsOf s := by simp [setRule]

@[simp] theorem evalRule_cells (s : State) (r : Nat) (rule : AlarmRule) :
    cellsOf (evalRule s r rule) = cellsOf s := by simp [evalRule]

@[simp] theorem evalRules_cells (s : State) (p : AlarmRule → Bool) :
    cellsOf (evalRules s p) = cellsOf s := by
  unfold evalRules
  repeat' first
    | (simp [foldl_cells, foldl_fst_cells, dram_of, memA_of, memB_of]; done)
    | split

@[simp] theorem State.modSig_cells (s : State) (n : Nat) (f : Sig → Sig) :
    cellsOf (State.modSig s n f) = cellsOf s := rfl

@[simp] theorem acceptTelegram_cells (s : State) (n : Nat) (e : MapEntry) (p : List Byte) (stamp : Time) :
    cellsOf (acceptTelegram s n e p stamp) = cellsOf s := by simp [acceptTelegram]

@[simp] theorem noteStale_cells (s : State) (sig : Nat) :
    cellsOf (noteStale s sig) = cellsOf s := by
  unfold noteStale; dsimp only
  (repeat' split) <;> simp

@[simp] theorem passTelegram_cells (s : State) (p : MapEntry → Bool) (payload : List Byte) (stamp : Time) :
    cellsOf (passTelegram s p payload stamp) = cellsOf s := by
  unfold passTelegram
  split <;> simp

@[simp] theorem ackRule_cells (s : State) (r : Nat) :
    cellsOf (ackRule s r) = cellsOf s := by
  unfold ackRule
  split <;> simp

@[simp] theorem State.modPin_cells (s : State) (n : Nat) (f : AckPin → AckPin) :
    cellsOf (State.modPin s n f) = cellsOf s := rfl

@[simp] theorem wakeEvent_cells (s : State) :
    cellsOf (wakeEvent s) = cellsOf s := rfl

/-! ### Memory -/

@[simp] theorem dropChans_cells (s : State) (c : Nat) (cs : List Nat) :
    cellsOf (dropChans s c cs) = cellsOf s := by
  unfold dropChans
  repeat' first
    | (simp [foldl_cells, foldl_fst_cells, dram_of, memA_of, memB_of]; done)
    | intro _ _
    | rw [foldl_cells]
    | split

@[simp] theorem failChan_cells (s : State) (c : Nat) :
    cellsOf (failChan s c) = cellsOf s := by simp [failChan]

@[simp] theorem updMemReady_cells (s : State) :
    cellsOf (updMemReady s) = cellsOf s := by simp [updMemReady]

@[simp] theorem markedEvent_cells (c : Nat) (s : State) (e : Nat × Nat × Nat) :
    cellsOf (markedEvent c s e) = cellsOf s := by simp [markedEvent]

@[simp] theorem failRecovery_cells (s : State) (c : Nat) :
    cellsOf (failRecovery s c) = cellsOf s := by simp [failRecovery, foldl_cells]

@[simp] theorem startScrub_cells (s : State) (c : Nat) (x : Scrub) :
    cellsOf (startScrub s c x) = cellsOf s := rfl

@[simp] theorem runScrub_cells (s : State) (f : Flight) :
    cellsOf (runScrub s f) = cellsOf s := by simp [runScrub]

@[simp] theorem nextScrub_cells (s : State) (c : Nat) (x2 : List Nat) :
    cellsOf (nextScrub s c x2) = cellsOf s := by
  induction x2 generalizing s with
  | nil => simp [nextScrub]
  | cons k r ih =>
    unfold nextScrub
    repeat' first
      | (simp [ih]; done)
      | split

@[simp] theorem endScrub_cells (s : State) (c : Nat) (n : Nat) (status : Nat) :
    cellsOf (endScrub s c n status) = cellsOf s := by
  unfold endScrub; dsimp only
  (repeat' split) <;> simp

@[simp] theorem dropScrub_cells (s : State) (c : Nat) :
    cellsOf (dropScrub s c) = cellsOf s := by
  unfold dropScrub; dsimp only
  (repeat' split) <;> simp

@[simp] theorem stopScrub_cells (s : State) (c : Nat) :
    cellsOf (stopScrub s c) = cellsOf s := by
  unfold stopScrub
  split <;> simp

@[simp] theorem stopScrubs_cells (s : State) (c : Nat) :
    cellsOf (stopScrubs s c) = cellsOf s := by simp [stopScrubs, foldl_cells]

@[simp] theorem State.modBank_cells (s : State) (c : Nat) (b : Nat) (f : Bank → Bank) :
    cellsOf (State.modBank s c b f) = cellsOf s := rfl

@[simp] theorem fillQueues_cells (c : Nat) (s : State) (e : MemReq × Time) :
    cellsOf (fillQueues c s e) = cellsOf s := by simp [fillQueues]

@[simp] theorem endFillOf_cells (s : State) (p : Nat) :
    cellsOf (endFillOf s p) = cellsOf s := by simp [endFillOf]

/-! ### Fabric -/

@[simp] theorem tearLocks_cells (s : State) (p : Nat → Bool) (cause : Nat) :
    cellsOf (tearLocks s p cause) = cellsOf s := by simp [tearLocks, foldl_cells]

/-! ### Media -/

@[simp] theorem signalEvent_cells (s : State) (port : Nat) (x : Csi) (lost : Nat) (frames : Nat) :
    cellsOf (signalEvent s port x lost frames) = cellsOf s := by simp [signalEvent, foldl_cells]

@[simp] theorem lineToRing_cells (s : State) (x : Csi) (l : List Byte) :
    cellsOf (lineToRing s x l) = cellsOf s := by
  unfold lineToRing; dsimp only
  repeat' first
    | (simp [foldl_cells, dram_of, memA_of, memB_of]; done)
    | split
    | (apply cells_congr <;> simp [dram_of, memA_of, memB_of]; done)

@[simp] theorem runBind_cells (s : State) (f : Flight) :
    cellsOf (runBind s f) = cellsOf s := by simp [runBind]

@[simp] theorem State.setSession_cells (s : State) (k : Nat) (x : Session) :
    cellsOf (State.setSession s k x) = cellsOf s := rfl

@[simp] theorem State.closeSession_cells (s : State) (k : Nat) :
    cellsOf (State.closeSession s k) = cellsOf s := rfl

@[simp] theorem releaseSlots_cells (s : State) (fn : Nat) (n : Nat) (mask : Nat) :
    cellsOf (releaseSlots s fn n mask) = cellsOf s := by
  unfold releaseSlots; dsimp only
  split <;> simp

@[simp] theorem closeSessions_cells (s : State) (fn : Nat) :
    cellsOf (closeSessions s fn) = cellsOf s := rfl

@[simp] theorem resetMedia_cells (s : State) :
    cellsOf (resetMedia s) = cellsOf s := rfl

/-! ### Network -/

@[simp] theorem dropFrame_cells (s : State) (p : Nat) :
    cellsOf (dropFrame s p) = cellsOf s := by simp [dropFrame]

@[simp] theorem driveGates_cells (s : State) (p : Nat) :
    cellsOf (driveGates s p) = cellsOf s := rfl

theorem startOne_cells {s s1 : State} {p : Nat} {t : Time} (h : startOne s p t = some s1) : cellsOf s1 = cellsOf s := by
  unfold startOne at h
  dsimp only at h
  split at h
  · cases h
  · split at h
    · cases h
    · injection h with h
      rw [← h]
      split <;> simp

@[simp] theorem serveN_cells (p : Nat) (x1 : Nat) (x2 : State) :
    cellsOf (serveN p x1 x2) = cellsOf x2 := by
  induction x1 generalizing x2 with
  | zero => rfl
  | succ k ih =>
    unfold serveN
    extract_lets t
    split
    · rename_i h
      rw [ih]
      split at h
      · exact startOne_cells h
      · cases h
    · split
      · rename_i h
        rw [ih, startOne_cells h]
      · rfl

@[simp] theorem serveEgress_cells (s : State) (p : Nat) :
    cellsOf (serveEgress s p) = cellsOf s := by simp [serveEgress]

@[simp] theorem sendOut_cells (s : State) (mask : Nat) (f : Frame) :
    cellsOf (sendOut s mask f) = cellsOf s := by simp [sendOut, foldl_cells]

@[simp] theorem toListener_cells (s : State) (payload : List Byte) :
    cellsOf (toListener s payload) = cellsOf s := by simp [toListener]

@[simp] theorem loseSync_cells (s : State) (d : Nat) :
    cellsOf (loseSync s d) = cellsOf s := by
  unfold loseSync
  repeat' first
    | (simp [dram_of, memA_of, memB_of]; done)
    | (simp [foldl_cells, foldl_fst_cells, dram_of, memA_of, memB_of]; done)
    | intro _ _
    | intro _
    | rw [foldl_cells]
    | rw [foldl_fst_cells]
    | split
    | (apply cells_congr <;> simp [dram_of, memA_of, memB_of]; done)
    | (simp; first | rw [foldl_cells] | rw [foldl_fst_cells] | split | (apply cells_congr <;> simp [dram_of, memA_of, memB_of]; done))
    | with_reducible rfl

@[simp] theorem netLink_cells (s : State) (p : Nat) :
    cellsOf (netLink s p) = cellsOf s := by simp [netLink]

@[simp] theorem canState_cells (s : State) (p : Nat) (new : Nat) :
    cellsOf (canState s p new) = cellsOf s := by simp [canState]

@[simp] theorem loadNetwork_cells (s : State) :
    cellsOf (loadNetwork s) = cellsOf s := by
  unfold loadNetwork
  split <;> simp

@[simp] theorem resetNetwork_cells (s : State) :
    cellsOf (resetNetwork s) = cellsOf s := by simp [resetNetwork]

/-! ### Audio -/

@[simp] theorem runSafeLoad_cells (s : State) (fn : Nat) :
    cellsOf (runSafeLoad s fn) = cellsOf s := by
  unfold runSafeLoad
  repeat' first
    | (simp [dram_of, memA_of, memB_of]; done)
    | (simp [foldl_cells, foldl_fst_cells, dram_of, memA_of, memB_of]; done)
    | intro _ _
    | intro _
    | rw [foldl_cells]
    | rw [foldl_fst_cells]
    | split
    | (apply cells_congr <;> simp [dram_of, memA_of, memB_of]; done)
    | (simp; first | rw [foldl_cells] | rw [foldl_fst_cells] | split | (apply cells_congr <;> simp [dram_of, memA_of, memB_of]; done))
    | with_reducible rfl

@[simp] theorem runSwaps_cells (s : State) (b : Time) :
    cellsOf (runSwaps s b) = cellsOf s := by simp [runSwaps, foldl_cells]

@[simp] theorem runImms_cells (s : State) :
    cellsOf (runImms s) = cellsOf s := by simp [runImms]

@[simp] theorem runBindings_cells (s : State) :
    cellsOf (runBindings s) = cellsOf s := by simp [runBindings]

@[simp] theorem takeLoops_cells (s : State) :
    cellsOf (takeLoops s) = cellsOf s := rfl

@[simp] theorem setTargets_cells (s : State) (o : Nat) :
    cellsOf (setTargets s o) = cellsOf s := rfl

@[simp] theorem formOutput_cells (x : Nat → Int) (s : State) (o : Nat) :
    cellsOf (formOutput x s o) = cellsOf s := rfl

@[simp] theorem listen_cells (s : State) (b : Time) :
    cellsOf (listen s b) = cellsOf s := rfl

@[simp] theorem drivePins_cells (s : State) :
    cellsOf (drivePins s) = cellsOf s := rfl

@[simp] theorem loadAudio_cells (s : State) :
    cellsOf (loadAudio s) = cellsOf s := by
  unfold loadAudio
  split <;> simp

@[simp] theorem dropStreams_cells (s : State) (fn : Nat) :
    cellsOf (dropStreams s fn) = cellsOf s := rfl

@[simp] theorem resetAudio_cells (s : State) :
    cellsOf (resetAudio s) = cellsOf s := rfl

/-! ### Faults -/

@[simp] theorem kick_cells (s : State) :
    cellsOf (kick s) = cellsOf s := by simp [kick]

/-! ### Lantern -/

@[simp] theorem reply_cells (s : State) (g : LanMsg) (status : Nat) (pay : List Byte) :
    cellsOf (reply s g status pay) = cellsOf s := by simp [reply]

@[simp] theorem serveUndefined_cells (s : State) (x1 : List LanMsg) :
    cellsOf (serveUndefined s x1) = cellsOf s := by
  induction x1 generalizing s with
  | nil => simp [serveUndefined]
  | cons g r ih =>
    unfold serveUndefined
    split <;> simp [ih]

@[simp] theorem serve_cells (s : State) (m : Nat) (c : Nat) (run : State → LanMsg → State) (hrun : ∀ s a, cellsOf (run s a) = cellsOf s) :
    cellsOf (serve s m c run) = cellsOf s := by
  unfold serve
  split <;> simp [hrun]

@[simp] theorem dropMail_cells (s : State) (p : Nat → Bool) :
    cellsOf (dropMail s p) = cellsOf s := by
  unfold dropMail
  repeat' first
    | (simp [dram_of, memA_of, memB_of]; done)
    | (simp [foldl_cells, foldl_fst_cells, dram_of, memA_of, memB_of]; done)
    | intro _ _
    | intro _
    | rw [foldl_cells]
    | rw [foldl_fst_cells]
    | split
    | (apply cells_congr <;> simp [dram_of, memA_of, memB_of]; done)
    | (simp; first | rw [foldl_cells] | rw [foldl_fst_cells] | split | (apply cells_congr <;> simp [dram_of, memA_of, memB_of]; done))
    | with_reducible rfl

@[simp] theorem issueNonce_cells (s : State) (m : Nat) (tgt : Nat) :
    cellsOf (issueNonce s m tgt) = cellsOf s := rfl

@[simp] theorem replyNonce_cells (s : State) (g : LanMsg) :
    cellsOf (replyNonce s g) = cellsOf s := by simp [replyNonce]

@[simp] theorem storeR_cells (s : State) (g : LanMsg) :
    cellsOf (storeR s g) = cellsOf s := by simp [storeR]

@[simp] theorem freeSlot_cells (s : State) (fn : Nat) :
    cellsOf (freeSlot s fn) = cellsOf s := by
  unfold freeSlot
  repeat' first
    | (simp [foldl_cells, foldl_fst_cells, dram_of, memA_of, memB_of]; done)
    | intro _ _
    | rw [foldl_cells]
    | split

@[simp] theorem dropClaims_cells (s : State) (fn : Nat) :
    cellsOf (dropClaims s fn) = cellsOf s := rfl

@[simp] theorem authFail_cells (s : State) (fn : Nat) :
    cellsOf (authFail s fn) = cellsOf s := by
  unfold authFail
  split <;> simp

@[simp] theorem authPass_cells (s : State) (fn : Nat) :
    cellsOf (authPass s fn) = cellsOf s := by
  unfold authPass; dsimp only
  repeat' first
    | (simp [foldl_cells, dram_of, memA_of, memB_of]; done)
    | split

@[simp] theorem endSecure_cells (s : State) (fn : Nat) (portReset : Bool) :
    cellsOf (endSecure s fn portReset) = cellsOf s := by simp [endSecure]

/-! ### Layers -/

@[simp] theorem pendFlip_cells (s : State) (f : Flight) :
    cellsOf (pendFlip s f) = cellsOf s := by simp [pendFlip]

/-! ### Touch -/

@[simp] theorem contactEvent_cells (s : State) (p : Nat) (c : Contact) (what : Nat) (extra : Nat) (peak : Nat) (stamp : Time) :
    cellsOf (contactEvent s p c what extra peak stamp) = cellsOf s := by
  unfold contactEvent; dsimp only
  (repeat' split) <;> simp

@[simp] theorem touchLink_cells (s : State) (p : Nat) (lost : Nat) :
    cellsOf (touchLink s p lost) = cellsOf s := by simp [touchLink]

@[simp] theorem track_cells (s : State) (p : Nat) (c : TouchCfg) (bs : List Blob) (stamp : Time) :
    cellsOf (track s p c bs stamp) = cellsOf s := by
  unfold track
  repeat' first
    | (simp [foldl_cells, foldl_fst_cells, dram_of, memA_of, memB_of]; done)
    | intro _ _
    | rw [foldl_cells]
    | split

@[simp] theorem processFrame_cells (s : State) (p : Nat) (c : TouchCfg) (raw : Nat → Nat) (stamp : Time) :
    cellsOf (processFrame s p c raw stamp) = cellsOf s := by simp [processFrame]

@[simp] theorem takeConfig_cells (s : State) (p : Nat) (c : TouchCfg) :
    cellsOf (takeConfig s p c) = cellsOf s := by simp [takeConfig]

@[simp] theorem objEvent_cells (s : State) (o : Nat) (what : Nat) (recal : Nat) :
    cellsOf (objEvent s o what recal) = cellsOf s := by simp [objEvent]

@[simp] theorem scanObj_cells (raw : Nat → Nat) (s : State) (o : Nat) :
    cellsOf (scanObj raw s o) = cellsOf s := by
  unfold scanObj
  extract_lets x0 s0 x nodes setE
  have hset : ∀ s e n, cellsOf (setE s e n) = cellsOf s := fun _ _ _ => rfl
  have hs0 : cellsOf s0 = cellsOf s := by
    simp only [s0]
    split <;> simp
  split
  · exact hs0
  · split
    · rw [foldl_cells]
      · exact hs0
      · intro s e
        split <;> rfl
    · extract_lets touched released s1 s2
      have hs1 : cellsOf s1 = cellsOf s := by
        simp only [s1]
        rw [foldl_cells]
        · exact hs0
        · exact fun _ _ => rfl
      have hs2 : cellsOf s2 = cellsOf s := by simp [s2, hs1]
      clear_value s2
      repeat' first
        | (simp [hs2]; done)
        | split

@[simp] theorem releaseTouch_cells (s : State) (fn : Nat) :
    cellsOf (releaseTouch s fn) = cellsOf s := rfl

@[simp] theorem loadSense_cells (s : State) :
    cellsOf (loadSense s) = cellsOf s := by
  unfold loadSense
  repeat' first
    | (simp [foldl_cells, foldl_fst_cells, dram_of, memA_of, memB_of]; done)
    | intro _ _
    | rw [foldl_cells]
    | split

@[simp] theorem resetSense_cells (s : State) :
    cellsOf (resetSense s) = cellsOf s := rfl

/-! ### Lifecycle -/

@[simp] theorem resetFnRegs_cells (s : State) (fn : Nat) :
    cellsOf (resetFnRegs s fn) = cellsOf s := rfl

@[simp] theorem dropLayers_cells (s : State) (fn : Nat) :
    cellsOf (dropLayers s fn) = cellsOf s := by simp [dropLayers, foldl_cells]

@[simp] theorem runCreate_cells (s : State) (f : Flight) :
    cellsOf (runCreate s f) = cellsOf s := by
  have drop_cells : ∀ (s2 : State) (f : Fabric), cellsOf { s2 with fab := f } = cellsOf s2 := fun _ _ => rfl
  unfold runCreate
  simp [drop_cells]
  rw [foldl_cells] <;> simp

@[simp] theorem endSriov_cells (s : State) (p : Nat) :
    cellsOf (endSriov s p) = cellsOf s := by
  unfold endSriov
  repeat' first
    | (simp [foldl_cells, foldl_fst_cells, dram_of, memA_of, memB_of]; done)
    | intro _ _
    | rw [foldl_cells]
    | split

/-! ### Time -/

@[simp] theorem setSource_cells (s : State) (src : Nat) :
    cellsOf (setSource s src) = cellsOf s := by
  unfold setSource; dsimp only
  split <;> first | rfl | (apply cells_congr <;> simp [dram_of, memA_of, memB_of])

/-! ### Reset -/

@[simp] theorem notice_cells (s : State) (isl : Nat) :
    cellsOf (notice s isl) = cellsOf s := by simp [notice, foldl_cells]

@[simp] theorem endLeaves_cells (s : State) (status : Nat) :
    cellsOf (endLeaves s status) = cellsOf s := by
  unfold endLeaves
  repeat' first
    | (simp [foldl_cells, foldl_fst_cells, dram_of, memA_of, memB_of]; done)
    | intro _ _
    | rw [foldl_cells]
    | split

@[simp] theorem resetMantle_cells (s : State) (isl : Nat) (relo : Bool) :
    cellsOf (resetMantle s isl relo) = cellsOf s := by
  have mid_cells : ∀ (s1 : State) (l : Tbl Slot) (m : Media), cellsOf { s1 with slots := l, media := m } = cellsOf s1 :=
    fun _ _ _ => rfl
  have heads_cells : ∀ (hs : List Nat), cellsOf (hs.foldl (fun s h => s.modHead h fun d =>
      { hpd := d.hpd, sinkRate := d.sinkRate, sinkLanes := d.sinkLanes }) s) = cellsOf s :=
    fun hs => by rw [foldl_cells]; exact fun _ _ => rfl
  unfold resetMantle
  dsimp only
  split
  · rw [foldl_cells _ (by simp), foldl_cells _ (by simp), mid_cells, heads_cells]
  · rw [foldl_cells _ (by simp), mid_cells, heads_cells]

@[simp] theorem endBindings_cells (s : State) :
    cellsOf (endBindings s) = cellsOf s := by simp [endBindings]

@[simp] theorem watchWrite_cells (s : State) (fn : Nat) (k : State → State) (hk : ∀ s, cellsOf (k s) = cellsOf s) :
    cellsOf (watchWrite s fn k) = cellsOf s := by simp [watchWrite, hk]

/-! ### Power -/

@[simp] theorem powerAnswer_cells (s : State) (fn : Nat) (st : Nat) :
    cellsOf (powerAnswer s fn st) = cellsOf s := rfl

@[simp] theorem endRetReq_cells (s : State) (isl : Nat) :
    cellsOf (endRetReq s isl) = cellsOf s := by
  unfold endRetReq
  split <;> simp

@[simp] theorem railBad_cells (s : State) (r : Nat) :
    cellsOf (railBad s r) = cellsOf s := by simp [railBad]

@[simp] theorem readTemps_cells (s : State) (temps : Vector Int 24) :
    cellsOf (readTemps s temps) = cellsOf s := rfl

@[simp] theorem thermalStep_cells (floor : Nat) (s : State) (isl : Nat) :
    cellsOf (thermalStep floor s isl) = cellsOf s := by simp [thermalStep]

@[simp] theorem writeRecord_cells (s : State) :
    cellsOf (writeRecord s) = cellsOf s := by
  unfold writeRecord
  repeat' first
    | (simp [dram_of, memA_of, memB_of]; done)
    | (simp [foldl_cells, foldl_fst_cells, dram_of, memA_of, memB_of]; done)
    | intro _ _
    | intro _
    | rw [foldl_cells]
    | rw [foldl_fst_cells]
    | split
    | (apply cells_congr <;> simp [dram_of, memA_of, memB_of]; done)
    | (simp; first | rw [foldl_cells] | rw [foldl_fst_cells] | split | (apply cells_congr <;> simp [dram_of, memA_of, memB_of]; done))
    | with_reducible rfl

@[simp] theorem ageStep_cells (delays : List Nat) (s : State) (isl : Nat) :
    cellsOf (ageStep delays s isl) = cellsOf s := by simp [ageStep]

@[simp] theorem smbus_cells (s : State) (pecOk : Bool) (cmd : Nat) (k : State → State) (hk : ∀ s, cellsOf (k s) = cellsOf s) :
    cellsOf (smbus s pecOk cmd k) = cellsOf s := by simp [smbus, hk]

/-! ### Startup -/

@[simp] theorem setupPf_cells (im : Image) (s : State) (pf : Nat) :
    cellsOf (setupPf im s pf) = cellsOf s := by simp [setupPf]

@[simp] theorem loadAges_cells (s : State) (ages : Option (Vector AgeRec 16)) :
    cellsOf (loadAges s ages) = cellsOf s := by
  unfold loadAges
  repeat' first
    | (simp [dram_of, memA_of, memB_of]; done)
    | (simp [foldl_cells, foldl_fst_cells, dram_of, memA_of, memB_of]; done)
    | intro _ _
    | intro _
    | rw [foldl_cells]
    | rw [foldl_fst_cells]
    | split
    | (apply cells_congr <;> simp [dram_of, memA_of, memB_of]; done)
    | (simp; first | rw [foldl_cells] | rw [foldl_fst_cells] | split | (apply cells_congr <;> simp [dram_of, memA_of, memB_of]; done))
    | with_reducible rfl

/-! ### Registers -/

@[simp] theorem msixWrite_cells (s : State) (fn : Nat) (v : Nat) (k : Nat) (w : Word) :
    cellsOf (msixWrite s fn v k w) = cellsOf s := by simp [msixWrite]

@[simp] theorem safeLoadWrite_cells (s : State) (fn : Nat) (g : SafeLoad → SafeLoad) :
    cellsOf (safeLoadWrite s fn g) = cellsOf s := by simp [safeLoadWrite]

theorem mbGate_cells {s s1 : State} {fn m : Nat} (h : s.mbGate fn m = some s1) : cellsOf s1 = cellsOf s := by
  unfold State.mbGate at h
  split at h
  · cases h; rfl
  · split at h
    · cases h; rfl
    · split at h
      · cases h; simp
      · cases h

@[simp] theorem mailboxWord_cells (s : State) (fn : Nat) (m : Nat) (k : Nat) (w : Word) :
    cellsOf (mailboxWord s fn m k w) = cellsOf s := by
  unfold mailboxWord
  split
  · rename_i h; exact mbGate_cells h
  · split <;> simp

@[simp] theorem pageWrite_cells (s : State) (fn : Nat) (off : Nat) (w : Word) :
    cellsOf (pageWrite s fn off w) = cellsOf s := by
  unfold pageWrite; dsimp only
  (repeat' split) <;> simp

@[simp] theorem fabRegWrite_cells (s : State) (off : Nat) (w : Word) :
    cellsOf (fabRegWrite s off w) = cellsOf s := by
  unfold fabRegWrite
  repeat' first
    | (simp [dram_of, memA_of, memB_of]; done)
    | split

@[simp] theorem memRegWrite_cells (s : State) (off : Nat) (w : Word) :
    cellsOf (memRegWrite s off w) = cellsOf s := by
  unfold memRegWrite
  repeat' first
    | (simp [dram_of, memA_of, memB_of]; done)
    | split

@[simp] theorem chdRegWrite_cells (s : State) (off : Nat) (w : Word) :
    cellsOf (chdRegWrite s off w) = cellsOf s := by simp [chdRegWrite]

@[simp] theorem netWrite_cells (s : State) (off : Nat) (w : Word) :
    cellsOf (netWrite s off w) = cellsOf s := by
  unfold netWrite
  split <;> simp

@[simp] theorem audWrite_cells (s : State) (off : Nat) (w : Word) :
    cellsOf (audWrite s off w) = cellsOf s := by
  unfold audWrite
  repeat' first
    | (simp [dram_of, memA_of, memB_of]; done)
    | split

@[simp] theorem wchWrite_cells (s : State) (off : Nat) (w : Word) :
    cellsOf (wchWrite s off w) = cellsOf s := by simp [wchWrite]

@[simp] theorem checkWrite_cells (s : State) (fn : Nat) (h : Nat) (k : Nat) (r : Nat) (w : Word) :
    cellsOf (checkWrite s fn h k r w) = cellsOf s := by
  unfold checkWrite; dsimp only
  (repeat' split) <;> simp

@[simp] theorem mntWrite_cells (s : State) (fn : Nat) (off : Nat) (w : Word) :
    cellsOf (mntWrite s fn off w) = cellsOf s := by simp [mntWrite]

@[simp] theorem groupWrite_cells (s : State) (fn : Nat) (grp : Nat) (isUp : Bool) (k : State → State) (hk : ∀ s, cellsOf (k s) = cellsOf s) :
    cellsOf (groupWrite s fn grp isUp k) = cellsOf s := by simp [groupWrite, hk]

@[simp] theorem barWrite_cells (s : State) (fn : Nat) (off : Nat) (w : Word) :
    cellsOf (barWrite s fn off w) = cellsOf s := by
  unfold barWrite
  split <;> simp

/-! ### Every operation keeps the form -/

/-- Three memories are each in their one form. -/
def okCells (x : List Host.Cell × List Host.Cell × List Host.Cell) : Prop :=
  Memory.wf x.1 = true ∧ Memory.wf x.2.1 = true ∧ Memory.wf x.2.2 = true

theorem memOk_iff (s : State) : s.memOk = true ↔ okCells (cellsOf s) := by
  simp [State.memOk, okCells, cellsOf, and_assoc]

theorem ok_congr {a : State} (h1 : Memory.wf a.mem.dram = true) (h2 : Memory.wf a.store.memA = true)
    (h3 : Memory.wf a.store.memB = true) : okCells (cellsOf a) := ⟨h1, h2, h3⟩

theorem wf_dram {s : State} (h : okCells (cellsOf s)) : Memory.wf s.mem.dram = true := h.1
theorem wf_memA {s : State} (h : okCells (cellsOf s)) : Memory.wf s.store.memA = true := h.2.1
theorem wf_memB {s : State} (h : okCells (cellsOf s)) : Memory.wf s.store.memB = true := h.2.2

theorem foldl_ok {α : Type} (g : State → α → State) (h : ∀ s x, okCells (cellsOf s) → okCells (cellsOf (g s x))) :
    ∀ (l : List α) (s : State), okCells (cellsOf s) → okCells (cellsOf (l.foldl g s))
  | [], _, hs => hs
  | x :: l, s, hs => foldl_ok g h l (g s x) (h s x hs)

@[simp] theorem ok_ite (p : Prop) [Decidable p] (a b : List Host.Cell × List Host.Cell × List Host.Cell) :
    okCells (if p then a else b) ↔ if p then okCells a else okCells b := by split <;> rfl

theorem writeDev_ok {m : List Host.Cell} (p : Part) (da : Nat) (v : Byte) (h : Memory.wf m = true) :
    Memory.wf (writeDev m p da v) = true := writeByte_wf _ _ (writeByte_wf _ _ h)

theorem fillDram_ok (m : Mem) (p : Part) (h : Memory.wf m.dram = true) : Memory.wf (fillDram m p).dram = true := by
  unfold fillDram
  generalize p.live = l
  induction l generalizing m with
  | nil => exact h
  | cons c r ih => exact ih _ (zeroRange_wf _ _ h)

theorem putWord_ok (st : Store) (b : Bool) (i d : Nat) (h : Memory.wf st.memA = true ∧ Memory.wf st.memB = true) :
    Memory.wf (st.putWord b i d).memA = true ∧ Memory.wf (st.putWord b i d).memB = true := by
  unfold Store.putWord
  split
  · exact ⟨h.1, writeBytes_wf _ _ h.2⟩
  · exact ⟨writeBytes_wf _ _ h.1, h.2⟩

theorem storeWrite_ok (l : List Byte) : ∀ (st : Store) (a : Nat), Memory.wf st.memA = true ∧ Memory.wf st.memB = true →
    Memory.wf (st.write a l).memA = true ∧ Memory.wf (st.write a l).memB = true := by
  induction l with
  | nil => intro st a h; exact h
  | cons v r ih => intro st a h; exact ih _ _ (putWord_ok _ _ _ _ (putWord_ok _ _ _ _ h))

theorem foldl_fst_ok {α β : Type} (g : State × β → α → State × β)
    (h : ∀ a x, okCells (cellsOf a.1) → okCells (cellsOf (g a x).1)) :
    ∀ (l : List α) (a : State × β), okCells (cellsOf a.1) → okCells (cellsOf (l.foldl g a).1)
  | [], _, hs => hs
  | x :: l, a, hs => foldl_fst_ok g h l (g a x) (h a x hs)

theorem storePart_ok {m : List Host.Cell} (p : Part) (da d k : Nat) (h : Memory.wf m = true) :
    Memory.wf (p.store m da d k) = true := writeByte_wf _ _ (writeBytes_wf _ _ h)

@[simp] theorem readWord_ok (s : State) (fn : Nat) (a : Nat) (merge : Bool) (hok : okCells (cellsOf s)) :
    okCells (cellsOf (readWord s fn a merge)) := by
  unfold readWord
  split
  · exact hok
  · extract_lets x da c
    split
    · exact hok
    · split
      · exact hok
      · split
        · exact hok
        · exact ⟨storePart_ok _ _ _ _ hok.1, hok.2⟩
      · rw [freezeChan_cells, State.drawn_cells]
        exact hok

@[simp] theorem readRange_ok (s : State) (fn : Nat) (a : Nat) (n : Nat) (hok : okCells (cellsOf s)) :
    okCells (cellsOf (readRange s fn a n)) := by
  unfold readRange
  repeat' first
    | (simp -implicitDefEqProofs [*, foldl_ok]; done)
    | dsimp only
    | intro _ _ _
    | intro _ _
    | with_reducible refine foldl_ok _ ?_ _ _ ?_
    | split
    | (simp; done)
    | with_reducible assumption
    | (apply ok_congr <;> simp -implicitDefEqProofs [wf_dram, wf_memA, wf_memB, *]; done)
    | rw [readLine_cells]
    | with_reducible refine readWord_ok _ _ _ _ ?_
    | rw [State.drawn_cells]

@[simp] theorem withMem_ok (s : State) (f : Flight) (reads : List (Nat × Nat)) (writes : List (Nat × Nat)) (k : State → State) (hk : ∀ s, okCells (cellsOf s) → okCells (cellsOf (k s))) (hok : okCells (cellsOf s)) :
    okCells (cellsOf (withMem s f reads writes k)) := by
  unfold withMem
  dsimp only
  split
  · simpa using hok
  · split
    · simpa using hok
    · have h1 : okCells (cellsOf (reads.foldl (fun s r => readRange s f.cmd.fn.val r.1 r.2) s)) :=
        foldl_ok _ (fun s r h => readRange_ok _ _ _ _ h) _ _ hok
      split
      · simpa using h1
      · exact hk _ h1

@[simp] theorem memPut_ok (s : State) (fn : Nat) (a : Nat) (v : Byte) (hok : okCells (cellsOf s)) :
    okCells (cellsOf (memPut s fn a v)) := by
  unfold memPut
  split
  · dsimp only
    split
    · rw [takeLine_cells]
      exact ⟨writeDev_ok _ _ _ hok.1, hok.2⟩
    · exact hok
  · exact hok

@[simp] theorem memPuts_ok (s : State) (fn : Nat) (a : Nat) (x3 : List Byte) (hok : okCells (cellsOf s)) :
    okCells (cellsOf (memPuts s fn a x3)) := by
  induction x3 generalizing s a with
  | nil => exact hok
  | cons v r ih => exact ih _ _ (memPut_ok _ _ _ _ hok)

@[simp] theorem memWrite_ok (s : State) (fn : Nat) (a : Nat) (l : List Byte) (hok : okCells (cellsOf s)) :
    okCells (cellsOf (memWrite s fn a l)) := by
  unfold memWrite; dsimp only
  repeat' first
    | (simp -implicitDefEqProofs [*, foldl_ok]; done)
    | with_reducible refine memPuts_ok _ _ _ _ ?_
    | intro _ _ _
    | with_reducible refine foldl_ok _ ?_ _ _ ?_
    | split

@[simp] theorem withWrite_ok (s : State) (f : Flight) (a : Nat) (l : List Byte) (pay : List Nat) (hok : okCells (cellsOf s)) :
    okCells (cellsOf (withWrite s f a l pay)) := by
  unfold withWrite; dsimp only
  repeat' first
    | (simp -implicitDefEqProofs [*, foldl_ok]; done)
    | split

@[simp] theorem startFill_ok (s : State) (p : Nat) (after : Nat) (fl : Option Nat) (hok : okCells (cellsOf s)) :
    okCells (cellsOf (startFill s p after fl)) := by
  unfold startFill
  rw [State.modPart_cells]
  exact ⟨fillDram_ok _ _ hok.1, hok.2⟩

@[simp] theorem execute_ok (s : State) (p : OpSpec) (f : Flight) (hp : ∀ s f, okCells (cellsOf s) → okCells (cellsOf (p.run s f))) (hok : okCells (cellsOf s)) :
    okCells (cellsOf (execute s p f)) := by
  unfold execute; simp -implicitDefEqProofs [*, foldl_ok]

@[simp] theorem startCmd_ok (s : State) (p : OpSpec) (c : Cmd) (hp : ∀ s f, okCells (cellsOf s) → okCells (cellsOf (p.run s f))) (hok : okCells (cellsOf s)) :
    okCells (cellsOf (startCmd s p c)) := by
  unfold startCmd
  dsimp only
  split
  · exact hok
  · split
    · simpa using hok
    · split
      · simpa using hok
      · split
        · refine execute_ok _ _ _ hp ?_
          exact (consume_cells s c).symm ▸ hok
        · exact (consume_cells s c).symm ▸ hok

@[simp] theorem recheck_ok (s : State) (p : OpSpec) (f : Flight) (hp : ∀ s f, okCells (cellsOf s) → okCells (cellsOf (p.run s f))) (hok : okCells (cellsOf s)) :
    okCells (cellsOf (recheck s p f)) := by
  unfold recheck
  split
  · simpa using hok
  · exact execute_ok _ _ _ hp hok

@[simp] theorem resume_ok (s : State) (p : OpSpec) (f : Flight) (hp : ∀ s f, okCells (cellsOf s) → okCells (cellsOf (p.run s f))) (hok : okCells (cellsOf s)) :
    okCells (cellsOf (resume s p f)) := by
  unfold resume
  exact recheck_ok _ _ _ hp hok

@[simp] theorem fixStore_ok (s : State) (b : Bool) (ws : List Nat) (hok : okCells (cellsOf s)) :
    okCells (cellsOf (fixStore s b ws)) := by
  unfold fixStore
  refine foldl_ok _ (fun s i hs => ?_) _ _ hok
  rw [report_cells]
  exact ⟨hs.1, putWord_ok _ _ _ _ hs.2⟩

@[simp] theorem readLists_ok (s : State) (bases : List Nat) (hok : okCells (cellsOf s)) :
    okCells (cellsOf (readLists s bases)) := by
  unfold readLists; simp -implicitDefEqProofs [*, foldl_ok]

@[simp] theorem chdRead_ok (s : State) (c : Nat) (a : Nat) (n : Nat) (hok : okCells (cellsOf s)) :
    okCells (cellsOf (chdRead s c a n)) := by
  unfold chdRead; simp -implicitDefEqProofs [*, foldl_ok]

@[simp] theorem writeBack_ok (s : State) (hok : okCells (cellsOf s)) :
    okCells (cellsOf (writeBack s)) := by
  unfold writeBack
  repeat' first
    | (simp -implicitDefEqProofs [*, foldl_ok]; done)
    | dsimp only
    | intro _ _ _
    | intro _ _
    | with_reducible refine foldl_ok _ ?_ _ _ ?_
    | split
    | (simp; done)
    | with_reducible assumption
    | (apply ok_congr <;> simp -implicitDefEqProofs [wf_dram, wf_memA, wf_memB, *]; done)
    | with_reducible refine memWrite_ok _ _ _ _ ?_
    | rw [State.modChand_cells]
    | rw [State.drawn_cells]

theorem shaderAccess_ok (s : State) (c : Nat) (q : TaperAccess) (hok : okCells (cellsOf s)) :
    okCells (cellsOf (shaderAccess s c q).1) := by
  unfold shaderAccess
  dsimp only
  split
  · split
    · exact chdRead_ok _ _ _ _ hok
    · simpa using hok
  · split <;> simpa using hok
  · simpa using hok

@[simp] theorem runShaders_ok (s : State) (c : Nat) (args : List Nat) (hok : okCells (cellsOf s)) :
    okCells (cellsOf (runShaders s c args)) := by
  unfold runShaders
  dsimp only
  refine foldl_fst_ok _ (fun a _ h => ?_) _ _ ?_
  · exact shaderAccess_ok _ _ _ h
  · simpa using hok

@[simp] theorem drawOne_ok (s : State) (c : Nat) (args : List Nat) (hok : okCells (cellsOf s)) :
    okCells (cellsOf (drawOne s c args)) := by
  unfold drawOne; simp -implicitDefEqProofs [*, foldl_ok]

theorem indirectArgs_ok (s : State) (c a n : Nat) (hok : okCells (cellsOf s)) :
    okCells (cellsOf (indirectArgs s c a n).1) := by
  unfold indirectArgs
  dsimp only
  split
  · exact chdRead_ok _ _ _ _ hok
  · simpa using hok

@[simp] theorem runDraw_ok (s : State) (c : Nat) (p : Packet) (hok : okCells (cellsOf s)) :
    okCells (cellsOf (runDraw s c p)) := by
  unfold runDraw
  dsimp only
  split
  · exact drawOne_ok _ _ _ hok
  · refine foldl_ok _ (fun s i h => drawOne_ok _ _ _ (indirectArgs_ok _ _ _ _ h)) _ _ ?_
    simpa using hok

@[simp] theorem runDispatch_ok (s : State) (c : Nat) (p : Packet) (hok : okCells (cellsOf s)) :
    okCells (cellsOf (runDispatch s c p)) := by
  unfold runDispatch
  dsimp only
  split
  · exact runShaders_ok _ _ _ hok
  · refine runShaders_ok _ _ _ (foldl_fst_ok _ (fun a n h => ?_) _ _ (indirectArgs_ok _ _ _ _ hok))
    simpa using h

@[simp] theorem runPacket_ok (s : State) (c : Nat) (p : Packet) (hok : okCells (cellsOf s)) :
    okCells (cellsOf (runPacket s c p)) := by
  unfold runPacket; dsimp only
  repeat' first
    | (simp -implicitDefEqProofs [*, foldl_ok]; done)
    | split

@[simp] theorem runPackets_ok (s : State) (c : Nat) (x2 : List Packet) (hok : okCells (cellsOf s)) :
    okCells (cellsOf (runPackets s c x2)) := by
  induction x2 generalizing s with
  | nil => simpa [runPackets] using hok
  | cons p r ih =>
    unfold runPackets
    dsimp only
    repeat' first
      | (simp -implicitDefEqProofs [*]; done)
      | split

@[simp] theorem giveTaper_ok (s : State) (t : Nat) (c : Nat) (hok : okCells (cellsOf s)) :
    okCells (cellsOf (giveTaper s t c)) := by
  unfold giveTaper
  repeat' first
    | (simp -implicitDefEqProofs [*, foldl_ok]; done)
    | dsimp only
    | intro _ _ _
    | intro _ _
    | with_reducible refine foldl_ok _ ?_ _ _ ?_
    | split
    | (simp; done)
    | with_reducible assumption
    | (apply ok_congr <;> simp -implicitDefEqProofs [wf_dram, wf_memA, wf_memB, *]; done)
    | with_reducible refine chdRead_ok _ _ _ _ ?_
    | rw [preempt_cells]
    | rw [State.modTaper_cells]
    | rw [State.modCtx_cells]
    | rw [State.drawn_cells]

@[simp] theorem assignTapers_ok (s : State) (hok : okCells (cellsOf s)) :
    okCells (cellsOf (assignTapers s)) := by
  unfold assignTapers
  repeat' first
    | (simp -implicitDefEqProofs [*, foldl_ok]; done)
    | dsimp only
    | intro _ _ _
    | intro _ _
    | with_reducible refine foldl_ok _ ?_ _ _ ?_
    | split
    | (simp; done)
    | with_reducible assumption
    | (apply ok_congr <;> simp -implicitDefEqProofs [wf_dram, wf_memA, wf_memB, *]; done)
    | with_reducible refine giveTaper_ok _ _ _ ?_
    | rw [State.drawn_cells]

@[simp] theorem beginCtx_ok (x0 : Nat) (x1 : State) (x2 : Nat) (hok : okCells (cellsOf x1)) :
    okCells (cellsOf (beginCtx x0 x1 x2)) := by
  induction x0 generalizing x1 with
  | zero => exact hok
  | succ k ih =>
    have hr : ∀ (x : State) (l : List (Nat × Nat)) (fn : Nat), okCells (cellsOf x) →
        okCells (cellsOf (l.foldl (fun s a => readRange s fn a.1 a.2) x)) :=
      fun x l fn hx => foldl_ok _ (fun s r h => readRange_ok _ _ _ _ h) _ _ hx
    unfold beginCtx
    dsimp only
    repeat' first
      | (simp -implicitDefEqProofs [ih, hr, hok]; done)
      | (refine ih _ ?_; simp -implicitDefEqProofs [hr, hok]; done)
      | split

@[simp] theorem finishSub_ok (s : State) (c : Nat) (status : Nat) (hok : okCells (cellsOf s)) :
    okCells (cellsOf (finishSub s c status)) := by
  unfold finishSub; dsimp only
  repeat' first
    | (simp -implicitDefEqProofs [*, foldl_ok]; done)
    | split

@[simp] theorem chdLoop_ok (x0 : Nat) (x1 : State) (hok : okCells (cellsOf x1)) :
    okCells (cellsOf (chdLoop x0 x1)) := by
  induction x0 generalizing x1 with
  | zero => exact hok
  | succ k ih =>
    unfold chdLoop
    extract_lets s1 s2 s3 bad s4
    have h1 : okCells (cellsOf s1) := foldl_ok _ (fun s c h => beginCtx_ok _ _ _ h) _ _ hok
    clear_value s1
    have h2 : okCells (cellsOf s2) := by simp only [s2, displace_cells]; exact assignTapers_ok _ h1
    clear_value s2
    have h3 : okCells (cellsOf s3) := by
      refine foldl_ok _ (fun s c h => ?_) _ _ h2
      split
      · exact runPackets_ok _ _ _ h
      · exact h
    have h4 : okCells (cellsOf s4) := foldl_ok _ (fun s c h => finishSub_ok _ _ _ h) _ _ h3
    clear_value s4
    split
    · exact ih _ h4
    · exact h4

@[simp] theorem kickChandelier_ok (s : State) (hok : okCells (cellsOf s)) :
    okCells (cellsOf (kickChandelier s)) := by
  unfold kickChandelier; simp -implicitDefEqProofs [*, foldl_ok]

@[simp] theorem runSubmit_ok (s : State) (f : Flight) (hok : okCells (cellsOf s)) :
    okCells (cellsOf (runSubmit s f)) := by
  unfold runSubmit
  split <;> simp -implicitDefEqProofs [*, foldl_ok]

@[simp] theorem endSubmission_ok (s : State) (c : Nat) (status : Nat) (hok : okCells (cellsOf s)) :
    okCells (cellsOf (endSubmission s c status)) := by
  unfold endSubmission; simp -implicitDefEqProofs [*, foldl_ok]

@[simp] theorem runPipeline_ok (s : State) (f : Flight) (hok : okCells (cellsOf s)) :
    okCells (cellsOf (runPipeline s f)) := by
  unfold runPipeline
  dsimp only
  split
  · split <;> simpa using hok
  · refine withMem_ok _ _ _ _ _ (fun s h => ?_) hok
    repeat' first
      | (simp -implicitDefEqProofs [*]; done)
      | split

@[simp] theorem runCopy_ok (s : State) (f : Flight) (hok : okCells (cellsOf s)) :
    okCells (cellsOf (runCopy s f)) := by
  unfold runCopy
  refine withMem_ok _ _ _ _ _ (fun s h => ?_) hok
  dsimp only
  rw [complete_cells]
  exact memWrite_ok _ _ _ _ (writeBack_ok _ h)

@[simp] theorem bindPage_ok (fn : Nat) (table : Nat) (map : Nat) (s : State) (e : Nat × Bool × Nat) (hok : okCells (cellsOf s)) :
    okCells (cellsOf (bindPage fn table map s e)) := by
  unfold bindPage; simp -implicitDefEqProofs [*, foldl_ok]

@[simp] theorem runSparse_ok (s : State) (f : Flight) (hok : okCells (cellsOf s)) :
    okCells (cellsOf (runSparse s f)) := by
  unfold runSparse
  refine withMem_ok _ _ _ _ _ (fun s h => ?_) hok
  dsimp only
  split
  · simpa using h
  · refine withMem_ok _ _ _ _ _ (fun s h => ?_) h
    rw [complete_cells]
    exact foldl_ok _ (fun s e h => bindPage_ok _ _ _ _ _ h) _ _ (writeBack_ok _ h)

@[simp] theorem clearCtxs_ok (s : State) (fn : Nat) (hok : okCells (cellsOf s)) :
    okCells (cellsOf (clearCtxs s fn)) := by
  unfold clearCtxs; dsimp only
  repeat' first
    | (simp -implicitDefEqProofs [*, foldl_ok]; done)
    | with_reducible refine kickChandelier_ok _ ?_
    | intro _ _ _
    | with_reducible refine foldl_ok _ ?_ _ _ ?_
    | split

@[simp] theorem pruneCtxs_ok (s : State) (hok : okCells (cellsOf s)) :
    okCells (cellsOf (pruneCtxs s)) := by
  unfold pruneCtxs
  repeat' first
    | (simp -implicitDefEqProofs [*, foldl_ok]; done)
    | dsimp only
    | intro _ _ _
    | intro _ _
    | with_reducible refine foldl_ok _ ?_ _ _ ?_
    | split
    | (simp; done)
    | with_reducible assumption
    | (apply ok_congr <;> simp -implicitDefEqProofs [wf_dram, wf_memA, wf_memB, *]; done)
    | with_reducible refine kickChandelier_ok _ ?_
    | rw [reapPipelines_cells]
    | rw [leaveCtx_cells]
    | with_reducible refine writeBack_ok _ ?_
    | rw [State.drawn_cells]

@[simp] theorem resetChandelier_ok (s : State) (isl : Nat) (hok : okCells (cellsOf s)) :
    okCells (cellsOf (resetChandelier s isl)) := by
  unfold resetChandelier; simp -implicitDefEqProofs [*, foldl_ok]

@[simp] theorem fileDirectory_ok (s : State) (h : Nat) (hok : okCells (cellsOf s)) :
    okCells (cellsOf (fileDirectory s h)) := by
  have hs := storeWrite_ok (s.directoryOf h) s.store (16 * h) hok.2
  unfold fileDirectory
  exact ok_congr hok.1 hs.1 hs.2

@[simp] theorem writeStore_ok (s : State) (a : Nat) (l : List Byte) (hok : okCells (cellsOf s)) :
    okCells (cellsOf (writeStore s a l)) := by
  unfold writeStore
  extract_lets edge s1
  have h1 : okCells (cellsOf s1) := fixStore_ok _ _ _ (fixStore_ok _ _ _ hok)
  clear_value s1
  exact ⟨h1.1, storeWrite_ok _ _ _ h1.2⟩

@[simp] theorem applyUpdate_ok (s : State) (f : Flight) (hok : okCells (cellsOf s)) :
    okCells (cellsOf (applyUpdate s f)) := by
  unfold applyUpdate
  extract_lets c h bank base s0 s1 restore s2
  have hr : ∀ t, cellsOf (restore t) = cellsOf t := fun t => by simp only [restore]; split <;> rfl
  have h0 : okCells (cellsOf s0) := writeStore_ok _ _ _ hok
  clear_value s0
  have h1 : okCells (cellsOf s1) := by
    simp only [s1]
    split
    · exact fileDirectory_ok _ _ h0
    · exact h0
  have h2 : okCells (cellsOf s2) := readLists_ok _ _ h1
  clear_value s1 restore s2
  split
  · split
    · rw [complete_cells]; exact h2
    · rw [hr, State.modSafe_cells]; exact h2
  · rw [complete_cells, hr]; exact h1

theorem copyRange_ok (st : Store) (b : Bool) (src dst n : Nat) (hs : Memory.wf st.memA = true ∧ Memory.wf st.memB = true) :
    Memory.wf (st.copyRange b src dst n).memA = true ∧ Memory.wf (st.copyRange b src dst n).memB = true := by
  have fold : ∀ (l : List Host.Cell) (m : List Host.Cell), Memory.wf m = true →
      Memory.wf (l.foldl (fun m (c : Host.Cell) => writeByte m (dst + (c.1 - src)) c.2) m) = true := by
    intro l
    induction l with
    | nil => intro m h; exact h
    | cons c r ih => intro m h; exact ih _ (writeByte_wf _ _ h)
  unfold Store.copyRange
  dsimp only
  cases b
  · exact ⟨fold _ _ (zeroRange_wf _ _ hs.1), hs.2⟩
  · exact ⟨hs.1, fold _ _ (zeroRange_wf _ _ hs.2)⟩

theorem refreshShadow_ok (st : Store) (h bank : Nat) (hs : Memory.wf st.memA = true ∧ Memory.wf st.memB = true) :
    Memory.wf (st.refreshShadow h bank).memA = true ∧ Memory.wf (st.refreshShadow h bank).memB = true := by
  unfold Store.refreshShadow
  generalize (bankRanges h bank).zip (bankRanges h (1 - bank)) = l
  induction l generalizing st with
  | nil => exact hs
  | cons e r ih => exact ih _ (copyRange_ok _ _ _ _ _ (copyRange_ok _ _ _ _ _ hs))

@[simp] theorem refreshBank_ok (s : State) (h : Nat) (hok : okCells (cellsOf s)) :
    okCells (cellsOf (refreshBank s h)) := by
  unfold refreshBank
  extract_lets bank s1 s2
  have h2 : okCells (cellsOf s2) := fixStore_ok _ _ _ (fixStore_ok _ _ _ hok)
  clear_value s2
  split
  · exact hok
  · refine fileDirectory_ok _ _ ?_
    rw [State.modSafe_cells]
    exact ⟨h2.1, refreshShadow_ok _ _ _ h2.2⟩

@[simp] theorem runUpdatesN_ok (s : State) (x1 : Nat) (hok : okCells (cellsOf s)) :
    okCells (cellsOf (runUpdatesN s x1)) := by
  induction x1 generalizing s with
  | zero => exact hok
  | succ n ih =>
    unfold runUpdatesN
    split
    · exact hok
    · split
      · exact hok
      · dsimp only
        split
        · exact ih _ hok
        · split
          · exact hok
          · exact ih _ (recheck_ok _ _ _ applyUpdate_ok hok)

@[simp] theorem runUpdates_ok (s : State) (hok : okCells (cellsOf s)) :
    okCells (cellsOf (runUpdates s)) := by
  unfold runUpdates; dsimp only
  repeat' first
    | (simp -implicitDefEqProofs [*, foldl_ok]; done)
    | with_reducible refine runUpdatesN_ok _ _ ?_
    | intro _ _ _
    | with_reducible refine foldl_ok _ ?_ _ _ ?_
    | split

@[simp] theorem renderLine_ok (s : State) (h : Nat) (y : Nat) (nxt : Bool) (d : PassFault) (hok : okCells (cellsOf s)) :
    okCells (cellsOf (renderLine s h y nxt d)) := by
  unfold renderLine; simp -implicitDefEqProofs [*, foldl_ok]

@[simp] theorem readyRow_ok (s : State) (h : Nat) (y : Nat) (hok : okCells (cellsOf s)) :
    okCells (cellsOf (readyRow s h y)) := by
  unfold readyRow; simp -implicitDefEqProofs [*, foldl_ok]

@[simp] theorem headWrite_ok (s : State) (fn : Nat) (h : Nat) (sec : Bool) (k : State → State) (hk : ∀ s, okCells (cellsOf s) → okCells (cellsOf (k s))) (hok : okCells (cellsOf s)) :
    okCells (cellsOf (headWrite s fn h sec k)) := by
  unfold headWrite; simp -implicitDefEqProofs [*, foldl_ok]

@[simp] theorem applyCommit_ok (s : State) (h : Nat) (L : Time) (hok : okCells (cellsOf s)) :
    okCells (cellsOf (applyCommit s h L)) := by
  unfold applyCommit
  split
  · split
    · exact hok
    · dsimp only
      rw [State.modHead_cells]
      refine fileDirectory_ok _ _ ?_
      rw [State.modSafe_cells]
      exact hok
  · exact hok

@[simp] theorem latchHead_ok (s : State) (h : Nat) (hok : okCells (cellsOf s)) :
    okCells (cellsOf (latchHead s h)) := by
  unfold latchHead; dsimp only
  repeat' first
    | (simp -implicitDefEqProofs [*, foldl_ok]; done)
    | with_reducible refine runUpdates_ok _ ?_
    | intro _ _ _
    | with_reducible refine foldl_ok _ ?_ _ _ ?_
    | split

@[simp] theorem denyCommits_ok (s : State) (hok : okCells (cellsOf s)) :
    okCells (cellsOf (denyCommits s)) := by
  unfold denyCommits
  repeat' first
    | (simp -implicitDefEqProofs [*, foldl_ok]; done)
    | dsimp only
    | intro _ _ _
    | intro _ _
    | with_reducible refine foldl_ok _ ?_ _ _ ?_
    | split
    | (simp; done)
    | with_reducible assumption
    | (apply ok_congr <;> simp -implicitDefEqProofs [wf_dram, wf_memA, wf_memB, *]; done)
    | with_reducible refine runUpdates_ok _ ?_
    | rw [complete_cells]
    | rw [State.modSafe_cells]
    | rw [State.drawn_cells]

@[simp] theorem enterAutonomous_ok (s : State) (cause : Nat) (alarm : Bool) (hok : okCells (cellsOf s)) :
    okCells (cellsOf (enterAutonomous s cause alarm)) := by
  unfold enterAutonomous; simp -implicitDefEqProofs [*, foldl_ok]

@[simp] theorem guestLost_ok (s : State) (fn : Nat) (hok : okCells (cellsOf s)) :
    okCells (cellsOf (guestLost s fn)) := by
  unfold guestLost; simp -implicitDefEqProofs [*, foldl_ok]

@[simp] theorem wlWrite_ok (s : State) (fn : Nat) (k : State → State) (hk : ∀ s, okCells (cellsOf s) → okCells (cellsOf (k s))) (hok : okCells (cellsOf s)) :
    okCells (cellsOf (wlWrite s fn k)) := by
  unfold wlWrite; simp -implicitDefEqProofs [*, foldl_ok]

@[simp] theorem fillCode_ok (s : State) (hok : okCells (cellsOf s)) :
    okCells (cellsOf (fillCode s)) := by
  unfold fillCode
  split
  · exact hok
  · refine ⟨?_, hok.2⟩
    have : ∀ (l : List Nat) (d : List Host.Cell), Memory.wf d = true →
        Memory.wf (l.foldl (fun d c => zeroRange d (c * 2 ^ 34) unit64) d) = true := by
      intro l
      induction l with
      | nil => intro d h; exact h
      | cons c r ih => intro d h; exact ih _ (zeroRange_wf _ _ h)
    exact this _ _ hok.1

@[simp] theorem endRecovery_ok (s : State) (c : Nat) (hok : okCells (cellsOf s)) :
    okCells (cellsOf (endRecovery s c)) := by
  unfold endRecovery; simp -implicitDefEqProofs [*, foldl_ok]

@[simp] theorem refillChan_ok (s : State) (c : Nat) (hok : okCells (cellsOf s)) :
    okCells (cellsOf (refillChan s c)) := by
  unfold refillChan
  extract_lets ps s0 s1 s2
  have h1 : okCells (cellsOf s1) :=
    foldl_ok _ (fun s p h => startFill_ok _ _ _ _ ((markLost_cells s p false).symm ▸ h)) _ _
      ((State.modChan_cells _ _ _).symm ▸ hok)
  clear_value s1
  have h2 : okCells (cellsOf s2) := by
    simp only [s2]
    split
    · rw [losePipelines_cells]
      exact ⟨zeroRange_wf _ _ h1.1, h1.2⟩
    · exact h1
  clear_value s2
  split
  · exact endRecovery_ok _ _ h2
  · exact h2

@[simp] theorem endWaits_ok (s : State) (p : MemWait → Bool) (status : Nat) (hok : okCells (cellsOf s)) :
    okCells (cellsOf (endWaits s p status)) := by
  unfold endWaits; simp -implicitDefEqProofs [*, foldl_ok]

@[simp] theorem clearChan_ok (s : State) (c : Nat) (status : Nat) (hok : okCells (cellsOf s)) :
    okCells (cellsOf (clearChan s c status)) := by
  unfold clearChan; dsimp only
  repeat' first
    | (simp -implicitDefEqProofs [*, foldl_ok]; done)
    | with_reducible refine endWaits_ok _ _ _ ?_
    | intro _ _ _
    | with_reducible refine foldl_ok _ ?_ _ _ ?_
    | split

@[simp] theorem startRecovery_ok (s : State) (c : Nat) (hok : okCells (cellsOf s)) :
    okCells (cellsOf (startRecovery s c)) := by
  unfold startRecovery; simp -implicitDefEqProofs [*, foldl_ok]

@[simp] theorem trainDone_ok (s : State) (ch : Nat) (r : TrainResult) (hok : okCells (cellsOf s)) :
    okCells (cellsOf (trainDone s ch r)) := by
  unfold trainDone; simp -implicitDefEqProofs [*, foldl_ok]

@[simp] theorem runPartition_ok (s : State) (f : Flight) (hok : okCells (cellsOf s)) :
    okCells (cellsOf (runPartition s f)) := by
  unfold runPartition; dsimp only
  repeat' first
    | (simp -implicitDefEqProofs [*, foldl_ok]; done)
    | split

@[simp] theorem endFill_ok (s : State) (p : Nat) (hok : okCells (cellsOf s)) :
    okCells (cellsOf (endFill s p)) := by
  unfold endFill; dsimp only
  repeat' first
    | (simp -implicitDefEqProofs [*, foldl_ok]; done)
    | intro _ _ _
    | with_reducible refine foldl_ok _ ?_ _ _ ?_
    | split

@[simp] theorem resetMemory_ok (s : State) (isl : Nat) (hok : okCells (cellsOf s)) :
    okCells (cellsOf (resetMemory s isl)) := by
  unfold resetMemory; dsimp only
  repeat' first
    | (simp -implicitDefEqProofs [*, foldl_ok]; done)
    | rw [State.modMem_cells]
    | intro _ _ _
    | with_reducible refine foldl_ok _ ?_ _ _ ?_
    | split

@[simp] theorem releaseMemory_ok (s : State) (isl : Nat) (hok : okCells (cellsOf s)) :
    okCells (cellsOf (releaseMemory s isl)) := by
  unfold releaseMemory
  repeat' first
    | (simp -implicitDefEqProofs [*, foldl_ok]; done)
    | dsimp only
    | intro _ _ _
    | intro _ _
    | with_reducible refine foldl_ok _ ?_ _ _ ?_
    | split
    | (simp; done)
    | with_reducible assumption
    | (apply ok_congr <;> simp -implicitDefEqProofs [wf_dram, wf_memA, wf_memB, *]; done)
    | with_reducible refine startFill_ok _ _ _ _ ?_
    | rw [loseParts_cells]
    | rw [losePipelines_cells]
    | rw [State.modChan_cells]
    | rw [State.modMem_cells]
    | rw [State.drawn_cells]

@[simp] theorem resetCache_ok (s : State) (hok : okCells (cellsOf s)) :
    okCells (cellsOf (resetCache s)) := by
  have mem_same (x : State) : cellsOf (x.modMem fun m => { m with lines := [], reqs := [] }) = cellsOf x := rfl
  unfold resetCache
  dsimp only
  refine foldl_ok _ (fun s c h => ?_) _ _ (endWaits_ok _ _ _ ?_)
  · rw [dropScrub_cells]; exact h
  · rw [loseParts_cells, mem_same]
    refine foldl_fst_ok _ (fun a p h => ?_) _ _ hok
    simpa using h

@[simp] theorem endFills_ok (s : State) (hok : okCells (cellsOf s)) :
    okCells (cellsOf (endFills s)) := by
  unfold endFills
  repeat' first
    | (simp -implicitDefEqProofs [*, foldl_ok]; done)
    | dsimp only
    | intro _ _ _
    | intro _ _
    | with_reducible refine foldl_ok _ ?_ _ _ ?_
    | split
    | (simp; done)
    | with_reducible assumption
    | (apply ok_congr <;> simp -implicitDefEqProofs [wf_dram, wf_memA, wf_memB, *]; done)
    | with_reducible refine endRecovery_ok _ _ ?_
    | rw [endFillOf_cells]
    | rw [State.drawn_cells]

@[simp] theorem endPort_ok (s : State) (p : Nat) (hok : okCells (cellsOf s)) :
    okCells (cellsOf (endPort s p)) := by
  unfold endPort; simp -implicitDefEqProofs [*, foldl_ok]

@[simp] theorem lineToMem_ok (s : State) (x : Csi) (l : List Byte) (hok : okCells (cellsOf s)) :
    okCells (cellsOf (lineToMem s x l)) := by
  unfold lineToMem
  split <;> simp -implicitDefEqProofs [*, foldl_ok]

@[simp] theorem putPicture_ok (s : State) (fn : Nat) (n : Nat) (concealed : Nat) (hok : okCells (cellsOf s)) :
    okCells (cellsOf (putPicture s fn n concealed)) := by
  unfold putPicture; dsimp only
  repeat' first
    | (simp -implicitDefEqProofs [*, foldl_ok]; done)
    | split

@[simp] theorem decodeAu_ok (s : State) (f : Flight) (hok : okCells (cellsOf s)) :
    okCells (cellsOf (decodeAu s f)) := by
  unfold decodeAu
  dsimp only
  split
  · rw [complete_cells, releaseSlots_cells]; exact hok
  · split
    · rw [complete_cells, completeAll_cells, State.closeSession_cells]
      refine foldl_ok (fun s x => putPicture s.drawn (f.cmd.fn) (f.cmd.f 10 0 4) (s.free % 2 * (s.free % 2 ^ 32)))
        (fun s _ h => putPicture_ok s.drawn _ _ _ h) _ _ ?_
      rw [State.drawn_cells, releaseSlots_cells]; exact hok
    · split
      · rw [State.modFlight_cells, State.setSession_cells, releaseSlots_cells]; exact hok
      · rw [complete_cells, releaseSlots_cells]; exact hok

@[simp] theorem runDecode_ok (s : State) (f : Flight) (hok : okCells (cellsOf s)) :
    okCells (cellsOf (runDecode s f)) := by
  unfold runDecode
  refine withMem_ok _ _ _ _ _ (fun s h => ?_) hok
  refine decodeAu_ok _ _ ?_
  split
  · rw [State.setSession_cells]; exact h
  · exact h

@[simp] theorem runEncode_ok (s : State) (f : Flight) (hok : okCells (cellsOf s)) :
    okCells (cellsOf (runEncode s f)) := by
  unfold runEncode
  extract_lets c k go
  have hg : ∀ s, okCells (cellsOf s) → okCells (cellsOf (go s)) := by
    intro s h
    simp only [go]
    repeat' first
      | (simp -implicitDefEqProofs [*]; done)
      | split
  clear_value go
  split
  · exact hg _ hok
  · exact withMem_ok _ _ _ _ _ hg hok

@[simp] theorem ringPut_ok (s : State) (fn : Nat) (base : Nat) (n : Nat) (x4 : Nat) (x5 : Nat) (x6 : List Byte) (hok : okCells (cellsOf s)) :
    okCells (cellsOf (ringPut s fn base n x4 x5 x6)) := by
  induction x4 generalizing s x5 x6 with
  | zero => exact hok
  | succ k ih =>
    unfold ringPut
    split
    · exact hok
    · exact ih _ _ _ (memWrite_ok _ _ _ _ hok)

@[simp] theorem toHost_ok (s : State) (fn : Nat) (q : Nat) (filter : Nat) (f : Frame) (hok : okCells (cellsOf s)) :
    okCells (cellsOf (toHost s fn q filter f)) := by
  unfold toHost
  split <;> simp -implicitDefEqProofs [*, foldl_ok]

@[simp] theorem filtered_ok (s : State) (i : Nat) (x : StreamFilter) (f : Frame) (hok : okCells (cellsOf s)) :
    okCells (cellsOf (filtered s i x f)) := by
  unfold filtered; simp -implicitDefEqProofs [*, foldl_ok]

@[simp] theorem forward_ok (s : State) (f : Frame) (hok : okCells (cellsOf s)) :
    okCells (cellsOf (forward s f)) := by
  unfold forward
  split <;> simp -implicitDefEqProofs [*, foldl_ok]

@[simp] theorem runNetTx_ok (s : State) (f : Flight) (hok : okCells (cellsOf s)) :
    okCells (cellsOf (runNetTx s f)) := by
  unfold runNetTx
  refine withMem_ok _ _ _ _ _ (fun s h => ?_) hok
  dsimp only
  rw [complete_cells]
  exact forward_ok _ _ ((State.drawn_cells _).symm ▸ h)

@[simp] theorem playReads_ok (s : State) (hok : okCells (cellsOf s)) :
    okCells (cellsOf (playReads s)) := by
  unfold playReads
  repeat' first
    | (simp -implicitDefEqProofs [*, foldl_ok]; done)
    | dsimp only
    | intro _ _ _
    | intro _ _
    | with_reducible refine foldl_ok _ ?_ _ _ ?_
    | split
    | (simp; done)
    | with_reducible assumption
    | (apply ok_congr <;> simp -implicitDefEqProofs [wf_dram, wf_memA, wf_memB, *]; done)
    | with_reducible refine readRange_ok _ _ _ _ ?_
    | rw [State.drawn_cells]

@[simp] theorem talk_ok (s : State) (key : Nat) (x : AStream) (hok : okCells (cellsOf s)) :
    okCells (cellsOf (talk s key x)) := by
  unfold talk; simp -implicitDefEqProofs [*, foldl_ok]

@[simp] theorem moveStream_ok (s : State) (e : Nat × AStream) (hok : okCells (cellsOf s)) :
    okCells (cellsOf (moveStream s e)) := by
  unfold moveStream; dsimp only
  repeat' first
    | (simp -implicitDefEqProofs [*, foldl_ok]; done)
    | split

@[simp] theorem runRoute_ok (s : State) (f : Flight) (hok : okCells (cellsOf s)) :
    okCells (cellsOf (runRoute s f)) := by
  unfold runRoute; simp -implicitDefEqProofs [*, foldl_ok]

@[simp] theorem serve_ok (s : State) (m : Nat) (c : Nat) (run : State → LanMsg → State) (hrun : ∀ s a, okCells (cellsOf s) → okCells (cellsOf (run s a))) (hok : okCells (cellsOf s)) :
    okCells (cellsOf (serve s m c run)) := by
  unfold serve
  split <;> simp -implicitDefEqProofs [*, foldl_ok]

@[simp] theorem fetchReads_ok (s : State) (m : Mode) (p : PicLayer) (hok : okCells (cellsOf s)) :
    okCells (cellsOf (fetchReads s m p)) := by
  unfold fetchReads
  repeat' first
    | (simp -implicitDefEqProofs [*, foldl_ok]; done)
    | dsimp only
    | intro _ _ _
    | intro _ _
    | with_reducible refine foldl_ok _ ?_ _ _ ?_
    | split
    | (simp; done)
    | with_reducible assumption
    | (apply ok_congr <;> simp -implicitDefEqProofs [wf_dram, wf_memA, wf_memB, *]; done)
    | with_reducible refine readRange_ok _ _ _ _ ?_
    | rw [State.drawn_cells]

@[simp] theorem rawFrame_ok (s : State) (p : Nat) (c : TouchCfg) (b : List Byte) (seq : Nat) (hok : okCells (cellsOf s)) :
    okCells (cellsOf (rawFrame s p c b seq)) := by
  unfold rawFrame
  split <;> simp -implicitDefEqProofs [*, foldl_ok]

@[simp] theorem prune_ok (s : State) (hok : okCells (cellsOf s)) :
    okCells (cellsOf (prune s)) := by
  unfold prune
  repeat' first
    | (simp -implicitDefEqProofs [*, foldl_ok]; done)
    | dsimp only
    | intro _ _ _
    | intro _ _
    | with_reducible refine foldl_ok _ ?_ _ _ ?_
    | split
    | (simp; done)
    | with_reducible assumption
    | (apply ok_congr <;> simp -implicitDefEqProofs [wf_dram, wf_memA, wf_memB, *]; done)
    | with_reducible refine pruneCtxs_ok _ ?_
    | rw [State.drawn_cells]

@[simp] theorem abandonWork_ok (s : State) (fn : Nat) (hok : okCells (cellsOf s)) :
    okCells (cellsOf (abandonWork s fn)) := by
  unfold abandonWork; simp -implicitDefEqProofs [*, foldl_ok]

@[simp] theorem leaveActive_ok (s : State) (fn : Nat) (hok : okCells (cellsOf s)) :
    okCells (cellsOf (leaveActive s fn)) := by
  unfold leaveActive; simp -implicitDefEqProofs [*, foldl_ok]

@[simp] theorem quarantine_ok (s : State) (fn : Nat) (cause : Nat) (hok : okCells (cellsOf s)) :
    okCells (cellsOf (quarantine s fn cause)) := by
  unfold quarantine
  repeat' first
    | (simp -implicitDefEqProofs [*, foldl_ok]; done)
    | dsimp only
    | intro _ _ _
    | intro _ _
    | with_reducible refine foldl_ok _ ?_ _ _ ?_
    | split
    | (simp; done)
    | with_reducible assumption
    | (apply ok_congr <;> simp -implicitDefEqProofs [wf_dram, wf_memA, wf_memB, *]; done)
    | rw [complete_cells]
    | with_reducible refine prune_ok _ ?_
    | with_reducible refine leaveActive_ok _ _ ?_
    | rw [endSecure_cells]
    | rw [setFnState_cells]
    | rw [dropLayers_cells]
    | rw [dropStreams_cells]
    | rw [closeSessions_cells]
    | with_reducible refine clearCtxs_ok _ _ ?_
    | rw [tearLocks_cells]
    | rw [resetFnRegs_cells]
    | rw [sendEvent_cells]
    | rw [State.modFn_cells]
    | rw [State.modPart_cells]
    | rw [State.drawn_cells]

@[simp] theorem runQuiesce_ok (s : State) (f : Flight) (hok : okCells (cellsOf s)) :
    okCells (cellsOf (runQuiesce s f)) := by
  unfold runQuiesce; simp -implicitDefEqProofs [*, foldl_ok]

@[simp] theorem clearEngines_ok (s : State) (fn : Nat) (hok : okCells (cellsOf s)) :
    okCells (cellsOf (clearEngines s fn)) := by
  unfold clearEngines
  repeat' first
    | (simp -implicitDefEqProofs [*, foldl_ok]; done)
    | dsimp only
    | intro _ _ _
    | intro _ _
    | with_reducible refine foldl_ok _ ?_ _ _ ?_
    | split
    | (simp; done)
    | with_reducible assumption
    | (apply ok_congr <;> simp -implicitDefEqProofs [wf_dram, wf_memA, wf_memB, *]; done)
    | rw [dropPipelines_cells]
    | rw [freeCtxs_cells]
    | with_reducible refine clearCtxs_ok _ _ ?_
    | rw [dropStreams_cells]
    | rw [closeSessions_cells]
    | rw [State.drawn_cells]

@[simp] theorem tryLeave_ok (s : State) (fn : Nat) (hok : okCells (cellsOf s)) :
    okCells (cellsOf (tryLeave s fn)) := by
  unfold tryLeave
  repeat' first
    | (simp -implicitDefEqProofs [*, foldl_ok]; done)
    | dsimp only
    | intro _ _ _
    | intro _ _
    | with_reducible refine foldl_ok _ ?_ _ _ ?_
    | split
    | (simp; done)
    | with_reducible assumption
    | (apply ok_congr <;> simp -implicitDefEqProofs [wf_dram, wf_memA, wf_memB, *]; done)
    | rw [disableSlot_cells]
    | rw [resetFnRegs_cells]
    | rw [endSecure_cells]
    | with_reducible refine clearEngines_ok _ _ ?_
    | rw [setFnState_cells]
    | rw [complete_cells]
    | rw [State.modPart_cells]
    | rw [State.modFn_cells]
    | rw [State.drawn_cells]

@[simp] theorem tryLeaves_ok (s : State) (hok : okCells (cellsOf s)) :
    okCells (cellsOf (tryLeaves s)) := by
  unfold tryLeaves
  repeat' first
    | (simp -implicitDefEqProofs [*, foldl_ok]; done)
    | dsimp only
    | intro _ _ _
    | intro _ _
    | with_reducible refine foldl_ok _ ?_ _ _ ?_
    | split
    | (simp; done)
    | with_reducible assumption
    | (apply ok_congr <;> simp -implicitDefEqProofs [wf_dram, wf_memA, wf_memB, *]; done)
    | with_reducible refine tryLeave_ok _ _ ?_
    | rw [State.drawn_cells]

@[simp] theorem runLeave_ok (release : Bool) (s : State) (f : Flight) (hok : okCells (cellsOf s)) :
    okCells (cellsOf (runLeave release s f)) := by
  unfold runLeave; dsimp only
  repeat' first
    | (simp -implicitDefEqProofs [*, foldl_ok]; done)
    | with_reducible refine tryLeave_ok _ _ ?_
    | intro _ _ _
    | with_reducible refine foldl_ok _ ?_ _ _ ?_
    | split

@[simp] theorem quarantinePort_ok (s : State) (p : Nat) (cause : Nat) (hok : okCells (cellsOf s)) :
    okCells (cellsOf (quarantinePort s p cause)) := by
  unfold quarantinePort
  repeat' first
    | (simp -implicitDefEqProofs [*, foldl_ok]; done)
    | dsimp only
    | intro _ _ _
    | intro _ _
    | with_reducible refine foldl_ok _ ?_ _ _ ?_
    | split
    | (simp; done)
    | with_reducible assumption
    | (apply ok_congr <;> simp -implicitDefEqProofs [wf_dram, wf_memA, wf_memB, *]; done)
    | with_reducible refine quarantine_ok _ _ _ ?_
    | rw [State.drawn_cells]

@[simp] theorem resetPf_ok (s : State) (p : Nat) (hok : okCells (cellsOf s)) :
    okCells (cellsOf (resetPf s p)) := by
  unfold resetPf
  repeat' first
    | (simp -implicitDefEqProofs [*, foldl_ok]; done)
    | dsimp only
    | intro _ _ _
    | intro _ _
    | with_reducible refine foldl_ok _ ?_ _ _ ?_
    | split
    | (simp; done)
    | with_reducible assumption
    | (apply ok_congr <;> simp -implicitDefEqProofs [wf_dram, wf_memA, wf_memB, *]; done)
    | with_reducible refine abandonWork_ok _ _ ?_
    | with_reducible refine quarantinePort_ok _ _ _ ?_
    | rw [endSecure_cells]
    | rw [tearLocks_cells]
    | rw [endSriov_cells]
    | rw [resetFnRegs_cells]
    | rw [dropMail_cells]
    | rw [State.drawn_cells]

@[simp] theorem endFlights_ok (s : State) (isl : Nat) (hok : okCells (cellsOf s)) :
    okCells (cellsOf (endFlights s isl)) := by
  unfold endFlights; simp -implicitDefEqProofs [*, foldl_ok]

@[simp] theorem resetHost_ok (s : State) (hok : okCells (cellsOf s)) :
    okCells (cellsOf (resetHost s)) := by
  unfold resetHost
  repeat' first
    | (simp -implicitDefEqProofs [*, foldl_ok]; done)
    | dsimp only
    | intro _ _ _
    | intro _ _
    | with_reducible refine foldl_ok _ ?_ _ _ ?_
    | split
    | (simp; done)
    | with_reducible assumption
    | (apply ok_congr <;> simp -implicitDefEqProofs [wf_dram, wf_memA, wf_memB, *]; done)
    | with_reducible refine enterAutonomous_ok _ _ _ ?_
    | rw [stopEffects_cells]
    | with_reducible refine clearCtxs_ok _ _ ?_
    | with_reducible refine prune_ok _ ?_
    | rw [State.drawn_cells]

@[simp] theorem resetFabric_ok (s : State) (hok : okCells (cellsOf s)) :
    okCells (cellsOf (resetFabric s)) := by
  unfold resetFabric
  extract_lets s1
  have h1 : okCells (cellsOf s1) := by
    simp only [s1]
    rw [tearLocks_cells, endLeaves_cells]
    exact endFills_ok _ (resetCache_ok _ hok)
  clear_value s1
  exact h1

@[simp] theorem chapterReset_ok (s : State) (isl : Nat) (relo : Bool) (hok : okCells (cellsOf s)) :
    okCells (cellsOf (chapterReset s isl relo)) := by
  unfold chapterReset; simp -implicitDefEqProofs [*, foldl_ok]

@[simp] theorem resetStep_ok (s : State) (isl : Nat) (relo : Bool) (hok : okCells (cellsOf s)) :
    okCells (cellsOf (resetStep s isl relo)) := by
  unfold resetStep; simp -implicitDefEqProofs [*, foldl_ok]

@[simp] theorem chapterRelease_ok (s : State) (isl : Nat) (hok : okCells (cellsOf s)) :
    okCells (cellsOf (chapterRelease s isl)) := by
  unfold chapterRelease; simp -implicitDefEqProofs [*, foldl_ok]

@[simp] theorem release_ok (s : State) (isl : Nat) (hok : okCells (cellsOf s)) :
    okCells (cellsOf (release s isl)) := by
  unfold release; simp -implicitDefEqProofs [*, foldl_ok]

@[simp] theorem watchWrite_ok (s : State) (fn : Nat) (k : State → State) (hk : ∀ s, okCells (cellsOf s) → okCells (cellsOf (k s))) (hok : okCells (cellsOf s)) :
    okCells (cellsOf (watchWrite s fn k)) := by
  unfold watchWrite; simp -implicitDefEqProofs [*, foldl_ok]

@[simp] theorem powerOff_ok (s : State) (isl : Nat) (hok : okCells (cellsOf s)) :
    okCells (cellsOf (powerOff s isl)) := by
  unfold powerOff; simp -implicitDefEqProofs [*, foldl_ok]

@[simp] theorem allOff_ok (s : State) (hok : okCells (cellsOf s)) :
    okCells (cellsOf (allOff s)) := by
  unfold allOff
  extract_lets s1 s2
  have h1 : okCells (cellsOf s1) := foldl_ok _ (fun s fn h => by rw [endSecure_cells]; exact h) _ _ hok
  have h2 : okCells (cellsOf s2) := foldl_ok _ (fun s i h => powerOff_ok _ _ h) _ _ (by rw [dropMail_cells]; exact h1)
  clear_value s2
  exact ⟨rfl, h2.2⟩

@[simp] theorem setPower_ok (s : State) (fn : Nat) (isl : Nat) (st : Nat) (hok : okCells (cellsOf s)) :
    okCells (cellsOf (setPower s fn isl st)) := by
  unfold setPower; simp -implicitDefEqProofs [*, foldl_ok]

@[simp] theorem enterStandby_ok (s : State) (hok : okCells (cellsOf s)) :
    okCells (cellsOf (enterStandby s)) := by
  unfold enterStandby; simp -implicitDefEqProofs [*, foldl_ok]

@[simp] theorem shutIfHot_ok (s : State) (hok : okCells (cellsOf s)) :
    okCells (cellsOf (shutIfHot s)) := by
  unfold shutIfHot
  split <;> simp -implicitDefEqProofs [*, foldl_ok]

@[simp] theorem smbus_ok (s : State) (pecOk : Bool) (cmd : Nat) (k : State → State) (hk : ∀ s, okCells (cellsOf s) → okCells (cellsOf (k s))) (hok : okCells (cellsOf s)) :
    okCells (cellsOf (smbus s pecOk cmd k)) := by
  unfold smbus; simp -implicitDefEqProofs [*, foldl_ok]

@[simp] theorem bootFailed_ok (s : State) (err : Nat) (hok : okCells (cellsOf s)) :
    okCells (cellsOf (bootFailed s err)) := by
  unfold bootFailed
  repeat' first
    | (simp -implicitDefEqProofs [*, foldl_ok]; done)
    | dsimp only
    | intro _ _ _
    | intro _ _
    | with_reducible refine foldl_ok _ ?_ _ _ ?_
    | split
    | (simp; done)
    | with_reducible assumption
    | (apply ok_congr <;> simp -implicitDefEqProofs [wf_dram, wf_memA, wf_memB, *]; done)
    | with_reducible refine powerOff_ok _ _ ?_
    | rw [State.modBoot_cells]
    | rw [State.modIsl_cells]
    | rw [State.drawn_cells]

@[simp] theorem releaseLantern_ok (s : State) (hok : okCells (cellsOf s)) :
    okCells (cellsOf (releaseLantern s)) := by
  unfold releaseLantern; simp -implicitDefEqProofs [*, foldl_ok]

@[simp] theorem hostRelease_ok (s : State) (hok : okCells (cellsOf s)) :
    okCells (cellsOf (hostRelease s)) := by
  unfold hostRelease
  repeat' first
    | (simp -implicitDefEqProofs [*, foldl_ok]; done)
    | dsimp only
    | intro _ _ _
    | intro _ _
    | with_reducible refine foldl_ok _ ?_ _ _ ?_
    | split
    | (simp; done)
    | with_reducible assumption
    | (apply ok_congr <;> simp -implicitDefEqProofs [wf_dram, wf_memA, wf_memB, *]; done)
    | rw [setupPf_cells]
    | with_reducible refine releaseMemory_ok _ _ ?_
    | rw [State.modIsl_cells]
    | rw [State.modIsl_cells]
    | rw [State.modBoot_cells]
    | rw [State.modPort_cells]
    | rw [State.modPort_cells]
    | rw [State.drawn_cells]

@[simp] theorem tryHostRelease_ok (s : State) (hok : okCells (cellsOf s)) :
    okCells (cellsOf (tryHostRelease s)) := by
  unfold tryHostRelease; simp -implicitDefEqProofs [*, foldl_ok]

@[simp] theorem railReached_ok (s : State) (r : Nat) (hok : okCells (cellsOf s)) :
    okCells (cellsOf (railReached s r)) := by
  unfold railReached; simp -implicitDefEqProofs [*, foldl_ok]

@[simp] theorem startSafety_ok (s : State) (x : SafetyHeadCfg) (hok : okCells (cellsOf s)) :
    okCells (cellsOf (startSafety s x)) := by
  unfold startSafety; simp -implicitDefEqProofs [*, foldl_ok]

@[simp] theorem startAlarmPath_ok (im : Image) (s : State) (hok : okCells (cellsOf s)) :
    okCells (cellsOf (startAlarmPath im s)) := by
  unfold startAlarmPath; dsimp only
  repeat' first
    | (simp -implicitDefEqProofs [*, foldl_ok]; done)
    | intro _ _ _
    | with_reducible refine foldl_ok _ ?_ _ _ ?_
    | split

@[simp] theorem groupWrite_ok (s : State) (fn : Nat) (grp : Nat) (isUp : Bool) (k : State → State) (hk : ∀ s, okCells (cellsOf s) → okCells (cellsOf (k s))) (hok : okCells (cellsOf s)) :
    okCells (cellsOf (groupWrite s fn grp isUp k)) := by
  unfold groupWrite; simp -implicitDefEqProofs [*, foldl_ok]

theorem allSpecs_ok (p : OpSpec) (h : p ∈ allSpecs) (s : State) (f : Flight) (hok : okCells (cellsOf s)) :
    okCells (cellsOf (p.run s f)) := by
  simp only [allSpecs, List.mem_cons, List.not_mem_nil, or_false] at h
  rcases h with rfl | rfl | rfl | rfl | rfl | rfl | rfl | rfl | rfl | rfl | rfl | rfl | rfl | rfl | rfl | rfl | rfl |
    rfl | rfl | rfl | rfl | rfl | rfl | rfl | rfl | rfl | rfl | rfl | rfl | rfl <;>
    simp only [specNop, specFenceSignal, specFenceWait, specGfxSubmit, specComputeSubmit, specPipeline, specCopy,
      specSparse, specFlip, specHeadConfig, specListUpdate, specDecode, specEncode, specCameraBind, specRoute,
      specSwap, specStream, specHapticPlay, specHapticArm, specTouchConfig, specNetTx, specNetRxPost,
      specCreate, specQuiesce, specDestroy, specRelease, specPool, specPartition, specScrub, specSecure] <;> first
    | with_reducible exact runSubmit_ok _ _ hok
    | with_reducible exact runPipeline_ok _ _ hok
    | with_reducible exact runCopy_ok _ _ hok
    | with_reducible exact runSparse_ok _ _ hok
    | with_reducible exact runDecode_ok _ _ hok
    | with_reducible exact runEncode_ok _ _ hok
    | with_reducible exact runRoute_ok _ _ hok
    | with_reducible exact runNetTx_ok _ _ hok
    | with_reducible exact runQuiesce_ok _ _ hok
    | with_reducible exact runLeave_ok _ _ _ hok
    | with_reducible exact runPartition_ok _ _ hok
    | ((repeat' split) <;> first | simpa using hok | exact hok)

@[simp] theorem serveWait_ok (s : State) (w : MemWait) (hok : okCells (cellsOf s)) :
    okCells (cellsOf (serveWait s w)) := by
  unfold serveWait
  extract_lets s1
  have h1 : okCells (cellsOf s1) := hok
  clear_value s1
  split
  · exact h1
  · exact withWrite_ok _ _ _ _ _ h1
  · split
    · refine kickChandelier_ok _ (foldl_ok _ (fun s c h => ?_) _ _ h1)
      simpa using h
    · split
      · rename_i h
        exact allSpecs_ok _ (List.mem_of_find?_eq_some h) _ _ h1
      · exact h1

@[simp] theorem serveWaits_ok (s : State) (hok : okCells (cellsOf s)) :
    okCells (cellsOf (serveWaits s)) := by
  unfold serveWaits
  repeat' first
    | (simp -implicitDefEqProofs [*, foldl_ok]; done)
    | dsimp only
    | intro _ _ _
    | intro _ _
    | with_reducible refine foldl_ok _ ?_ _ _ ?_
    | split
    | (simp; done)
    | with_reducible assumption
    | (apply ok_congr <;> simp -implicitDefEqProofs [wf_dram, wf_memA, wf_memB, *]; done)
    | with_reducible refine serveWait_ok _ _ ?_
    | rw [State.drawn_cells]

/-- The memories after reset are in their one form. -/
theorem reset_memOk : State.reset.memOk = true := rfl

end Sys2Proof.Machine
end

