-- ==== Sys2Proof/Laws/Ops.lean ====
section
/-! SUPPORT. For each shared operation of Machine/Ops.lean and Machine/Rings.lean, one lemma that says what it can do:
events and completions only send messages, and a ring command that runs starts exactly its execution. -/

namespace Sys2Proof.Machine

set_option linter.all false

/-! ### Messages -/

theorem onlyMessages_refl (s : State) : onlyMessages s s :=
  ⟨rfl, fun _ => rfl, fun _ _ => rfl, [], by simp⟩

theorem onlyMessages_trans {a b c : State} (h : onlyMessages a b) (k : onlyMessages b c) : onlyMessages a c := by
  obtain ⟨h1, h2, h3, o, h4⟩ := h
  obtain ⟨k1, k2, k3, p, k4⟩ := k
  refine ⟨?_, fun i => (k2 i).trans (h2 i), fun i q => (k3 i q).trans (h3 i q), o ++ p, by rw [k4, h4, List.append_assoc]⟩
  rw [k1, h1]

theorem qkey_inj {a b c d : Nat} (hb : b < 16) (hd : d < 16) (h : qkey a b = qkey c d) : a = c ∧ b = d := by
  unfold qkey at h; omega

theorem modFn_onlyMessages (s : State) (fn : Nat) (f : Func → Func) (h : (f (s.fnc fn)).quiet = (s.fnc fn).quiet) :
    onlyMessages s (s.modFn fn f) := by
  refine ⟨rfl, fun i => ?_, fun _ _ => rfl, [], by simp⟩
  by_cases e : i = fn
  · subst e; simpa using h
  · rw [modFn_fnc_ne _ _ _ e]

theorem modQ_que_if (s : State) (fn q : Nat) (f : Queue → Queue) (i j : Nat) :
    (s.modQ fn q f).que i j = if qkey i j = qkey fn q then f (s.que fn q) else s.que i j := by
  unfold State.que State.modQ
  exact look_put_if _ _ _ _ _

theorem modQ_onlyMessages (s : State) (fn q : Nat) (f : Queue → Queue) (h : (f (s.que fn q)).quiet = (s.que fn q).quiet) :
    onlyMessages s (s.modQ fn q f) := by
  refine ⟨rfl, fun _ => rfl, fun i j => ?_, [], by simp⟩
  rw [modQ_que_if]
  split
  · next e => rw [h]; unfold State.que; rw [e]
  · rfl

theorem emit_onlyMessages (s : State) (o : Output) : onlyMessages s (s.emit o) :=
  ⟨rfl, fun _ => rfl, fun _ _ => rfl, [o], rfl⟩

theorem sendIrq_onlyMessages (s : State) (fn vec : Nat) : onlyMessages s (sendIrq s fn vec) := by
  unfold sendIrq
  split
  · exact modFn_onlyMessages _ _ _ rfl
  · exact emit_onlyMessages _ _

theorem gather_onlyMessages (s : State) (fn q : Nat) : onlyMessages s (gather s fn q) := by
  unfold gather
  dsimp only
  split
  · exact onlyMessages_trans (modQ_onlyMessages _ _ _ _ rfl) (sendIrq_onlyMessages _ _ _)
  · exact modQ_onlyMessages _ _ _ _ rfl

theorem writeEntry_onlyMessages (s : State) (fn q : Nat) (h : Held) : onlyMessages s (writeEntry s fn q h) := by
  unfold writeEntry
  dsimp only
  have k : ∀ f : Queue → Queue, (f (s.que fn q)).quiet = (s.que fn q).quiet → ∀ o, onlyMessages s ((s.modQ fn q f).emit o) :=
    fun f e o => onlyMessages_trans (modQ_onlyMessages _ _ _ _ e) (emit_onlyMessages _ _)
  split
  · exact k _ rfl _
  · exact onlyMessages_trans (k _ rfl _) (gather_onlyMessages _ _ _)

theorem postEntry_onlyMessages (s : State) (fn q : Nat) (h : Held) : onlyMessages s (postEntry s fn q h) := by
  unfold postEntry
  split
  · exact modQ_onlyMessages _ _ _ _ rfl
  · exact writeEntry_onlyMessages _ _ _ _

theorem flushLost_onlyMessages (s : State) (fn : Nat) : onlyMessages s (flushLost s fn) := by
  unfold flushLost
  dsimp only
  split
  · exact onlyMessages_refl _
  · exact onlyMessages_trans (modFn_onlyMessages _ _ _ rfl) (writeEntry_onlyMessages _ _ _ _)

theorem sendEventAt_onlyMessages (s : State) (fn ev a b c : Nat) (stamp : Time) :
    onlyMessages s (sendEventAt s fn ev a b c stamp) := by
  unfold sendEventAt
  dsimp only
  split
  · exact onlyMessages_refl _
  · refine onlyMessages_trans (flushLost_onlyMessages s fn) ?_
    split
    · exact modFn_onlyMessages _ _ _ rfl
    · exact writeEntry_onlyMessages _ _ _ _

theorem sendEvent_onlyMessages (s : State) (isl fn ev a b c : Nat) : onlyMessages s (sendEvent s isl fn ev a b c) :=
  sendEventAt_onlyMessages _ _ _ _ _ _ _

theorem sendManagers_onlyMessages (s : State) (isl ev a b c : Nat) : onlyMessages s (sendManagers s isl ev a b c) :=
  onlyMessages_trans (sendEvent_onlyMessages _ _ _ _ _ _ _) (sendEvent_onlyMessages _ _ _ _ _ _ _)

theorem sendTo_onlyMessages (s : State) (isl : Nat) (fn : Option Nat) (ev a b c : Nat) :
    onlyMessages s (sendTo s isl fn ev a b c) := by
  unfold sendTo
  split
  · exact sendEvent_onlyMessages _ _ _ _ _ _ _
  · exact onlyMessages_refl _

theorem flushHeld_onlyMessages (s : State) (fn q n : Nat) : onlyMessages s (flushHeld s fn q n) := by
  induction n generalizing s with
  | zero => exact onlyMessages_refl _
  | succ n ih =>
    unfold flushHeld
    split
    · exact onlyMessages_refl _
    · split
      · exact onlyMessages_refl _
      · refine onlyMessages_trans (onlyMessages_trans ?_ (writeEntry_onlyMessages _ _ _ _)) (ih _)
        exact modQ_onlyMessages _ _ _ _ rfl

theorem faultEvents_onlyMessages (s : State) (fc cls opn : Nat) (stamp : Time) :
    onlyMessages s (faultEvents s fc cls opn stamp) := by
  have h : onlyMessages s (sendEventAt (sendEventAt s 0 0x0F84 fc cls opn stamp) 1 0x0F84 fc cls opn stamp) :=
    onlyMessages_trans (sendEventAt_onlyMessages _ _ _ _ _ _ _) (sendEventAt_onlyMessages _ _ _ _ _ _ _)
  unfold faultEvents
  dsimp only
  split
  · exact onlyMessages_trans h (sendEventAt_onlyMessages _ _ _ _ _ _ _)
  · exact h

/-- A command that ends without a signal only sends messages (R74, R76, R101). -/
theorem finishCmd_onlyMessages (s : State) (c : Cmd) (st : Nat) (pay : List Nat) (stamp : Time) (h : s.signalOk c = false) :
    onlyMessages s (finishCmd s c st pay stamp) := by
  unfold finishCmd
  dsimp only
  rw [h]
  simp only [Bool.and_false, Bool.false_eq_true, if_false]
  split
  · exact onlyMessages_refl _
  · refine onlyMessages_trans ?_ (modFn_onlyMessages _ _ _ rfl)
    split
    · exact onlyMessages_refl _
    · exact postEntry_onlyMessages _ _ _ _

/-! ### Register writes that take effect -/

theorem watchWrite_open (s : State) (t : Time) (fn : Nat) (k : State → State) (h : s.watchOpen fn = true) :
    watchWrite (s.at t) fn k = k (s.at t) := by
  simp only [State.watchOpen, Bool.and_eq_true, decide_eq_true_eq] at h
  obtain ⟨⟨⟨⟨h1, h2⟩, h3⟩, h4⟩, h5⟩ := h
  have h2' : (s.at t).reach fn = true := h2
  have h3' : (s.at t).up 1 = true := h3
  have h4' : (s.at t).mayWrite fn 9 = true := h4
  have h5' : (s.at t).watchUp = true := h5
  have : ¬ fn ≥ 2 := by omega
  simp [watchWrite, this, h2', h3', h4', h5']

theorem headWrite_open (s : State) (t : Time) (fn h : Nat) (sec : Bool) (k : State → State) (o : s.headOpen fn h sec = true) :
    headWrite (s.at t) fn h sec k = k (s.at t) := by
  simp only [State.headOpen, Bool.and_eq_true] at o
  obtain ⟨h2, o⟩ := o
  have h2' : (s.at t).up (mantleOf h) = true := h2
  unfold headWrite
  by_cases c : fn ≥ 64
  · simp only [c, if_true, Bool.and_eq_true, decide_eq_true_eq] at o
    obtain ⟨h1, h3⟩ := o
    have h3' : (s.at t).watchUp = true := h3
    simp [h1, h2', h3']
  · simp only [c, if_false, Bool.and_eq_true, Bool.or_eq_true, decide_eq_true_eq] at o
    obtain ⟨⟨⟨h1, h3⟩, h4⟩, h5⟩ := o
    have h1' : (s.at t).reach fn = true := h1
    have h4' : (sec && ((s.at t).safeOf h).safety && !(s.at t).isSecure fn) = false := by
      have e : (sec && ((s.at t).safeOf h).safety && !(s.at t).isSecure fn) = (sec && (s.safeOf h).safety && !s.isSecure fn) := rfl
      rw [e]; revert h4; cases sec <;> cases (s.safeOf h).safety <;> cases s.isSecure fn <;> simp
    have h5' : (s.at t).ownsHead fn h = true := h5
    have h3' : (decide (fn < 2) && !(s.at t).mayWrite fn 4) = false := by
      rcases h3 with h3 | h3
      · simp [Nat.not_lt.mpr h3]
      · have : (s.at t).mayWrite fn 4 = true := h3
        simp [this]
    rw [if_neg c, h1', h2', h3', h4', h5']
    simp

theorem wlWrite_open (s : State) (t : Time) (fn : Nat) (k : State → State) (o : s.guestOpen fn = true) :
    wlWrite (s.at t) fn k = k (s.at t) := by
  simp only [State.guestOpen, Bool.and_eq_true, decide_eq_true_eq] at o
  obtain ⟨⟨⟨⟨⟨h1, h2⟩, h3⟩, h4⟩, h5⟩, h6⟩ := o
  have h1' : (s.at t).reach fn = true := h1
  have h2' : (s.at t).isSafety fn = true := h2
  have h3' : (s.at t).isSecure fn = true := h3
  have h5' : (s.at t).accepts fn 11 = true := h5
  have h6' : (s.at t).watchUp = true := h6
  simp [wlWrite, h1', h2', h3', h4, h5', h6']

theorem smbus_open (s : State) (t : Time) (cmd : Nat) (k : State → State) (o : s.smbOpen = true) :
    smbus (s.at t) true cmd k = k (s.at t) := by
  simp only [State.smbOpen, Bool.and_eq_true, Bool.not_eq_true'] at o
  simp [smbus, o.1, o.2]

/-! ### Ring commands that run -/

/-- A command that runs starts its execution in the state in which it is launched (R68, R69, R80, R85). -/
theorem startCmd_runs (s : State) (p : OpSpec) (c : Cmd) (h : s.runs p c = true) :
    startCmd s p c = p.run (s.launched p c) (flightOf s p c) := by
  simp only [State.runs, Bool.and_eq_true, decide_eq_true_eq, Bool.not_eq_true'] at h
  obtain ⟨⟨⟨⟨⟨⟨h1, h2⟩, h3⟩, h4⟩, h5⟩, h6⟩, h7⟩ := h
  have h8 : s.fenceMet c = (consume s c).fenceMet c := rfl
  unfold startCmd
  simp only [h1, h2, h3, h4, h5, execute]
  have e6 : ∀ x, ({ consume s c with flights := x, nextId := (consume s c).nextId + 1 } : State).island (p.isl (consume s c) c) =
    (consume s c).island (p.isl (consume s c) c) := fun _ => rfl
  simp [e6, h6, h7, State.launched, flightOf]
  rfl

theorem holdPerf_only (s : State) (i fn : Nat) : holdPerf s i fn = { s with isl := (holdPerf s i fn).isl } := by
  have h : ∀ (l : List Nat) (s : State),
      l.foldl (fun s k => s.modIsl k fun x => { x with perfHold := true }) s =
        { s with isl := (l.foldl (fun s k => s.modIsl k fun x => { x with perfHold := true }) s).isl } := by
    intro l
    induction l with
    | nil => intro s; rfl
    | cons a l ih => intro s; exact ih (s.modIsl a fun x => { x with perfHold := true })
  unfold holdPerf
  split
  · exact h _ _
  · rfl

/-- Launching a command consumes its slots, lists it in flight and may hold performance counters; nothing else changes. -/
theorem launched_only (s : State) (p : OpSpec) (c : Cmd) :
    s.launched p c = { s with queues := (consume s c).queues, flights := s.flights ++ [flightOf s p c],
                              nextId := s.nextId + 1, isl := (s.launched p c).isl } :=
  holdPerf_only _ _ _

@[simp] theorem launched_fnc (s : State) (p : OpSpec) (c : Cmd) (i : Nat) : (s.launched p c).fnc i = s.fnc i := by
  rw [launched_only]; rfl
@[simp] theorem launched_part (s : State) (p : OpSpec) (c : Cmd) (i : Nat) : (s.launched p c).part i = s.part i := by
  rw [launched_only]; rfl
@[simp] theorem launched_dt (s : State) (p : OpSpec) (c : Cmd) : (s.launched p c).dt = s.dt := by
  rw [launched_only]
@[simp] theorem launched_flights (s : State) (p : OpSpec) (c : Cmd) :
    (s.launched p c).flights = s.flights ++ [flightOf s p c] := by
  rw [launched_only]

end Sys2Proof.Machine
end

