-- ==== Sys2Proof/Laws/Secure.lean ====
section
/-! SUPPORT. Which operations leave the secure world as it is (R519): one lemma for each operation that changes no function's world. -/

namespace Sys2Proof.Machine

/-! ### Ops -/

/-- Which functions are in the secure world. -/
def secOf (s : State) : Nat → Bool := fun i => (s.fnc i).secure

/-- The same, of the table of functions. -/
def secView (t : Tbl Func) : Nat → Bool := fun i => (look t i (Func.init i)).secure

theorem secView_fns (s : State) : secView s.fns = secOf s := rfl

theorem sec_congr {a b : State} (h : secView a.fns = secView b.fns) : secOf a = secOf b := h

theorem foldl_sec {α : Type} (g : State → α → State) (h : ∀ s x, secOf (g s x) = secOf s) :
    ∀ (l : List α) (s : State), secOf (l.foldl g s) = secOf s
  | [], _ => rfl
  | x :: l, s => (foldl_sec g h l (g s x)).trans (h s x)

theorem foldl_fst_sec {α β : Type} (g : State × β → α → State × β) (h : ∀ a x, secOf (g a x).1 = secOf a.1) :
    ∀ (l : List α) (a : State × β), secOf (l.foldl g a).1 = secOf a.1
  | [], _ => rfl
  | x :: l, a => (foldl_fst_sec g h l (g a x)).trans (h a x)

@[simp] theorem ite_sec (p : Prop) [Decidable p] (a b : State) : secOf (if p then a else b) = if p then secOf a else secOf b :=
  apply_ite secOf p a b

@[simp] theorem State.modLan_sec (s : State) (f : Lantern → Lantern) : secOf (s.modLan f) = secOf s := rfl

@[simp] theorem State.modIsl_sec (s : State) (k0 : Nat) (f : Island → Island) : secOf (s.modIsl k0 f) = secOf s := rfl
@[simp] theorem State.modFn_sec (s : State) (k : Nat) (f : Func → Func) (h : ∀ x, (f x).secure = x.secure) :
    secOf (s.modFn k f) = secOf s := by
  funext i
  by_cases hi : i = k
  · subst hi; simp [secOf, h]
  · simp [secOf, State.modFn, State.fnc, look_put_ne _ _ _ hi]

@[simp] theorem State.modQ_sec (s : State) (k0 : Nat) (k1 : Nat) (f : Queue → Queue) : secOf (s.modQ k0 k1 f) = secOf s := rfl
@[simp] theorem State.modPort_sec (s : State) (k0 : Nat) (f : Port → Port) : secOf (s.modPort k0 f) = secOf s := rfl
@[simp] theorem State.modHead_sec (s : State) (k0 : Nat) (f : Head → Head) : secOf (s.modHead k0 f) = secOf s := rfl
@[simp] theorem State.modSlot_sec (s : State) (k0 : Nat) (f : Slot → Slot) : secOf (s.modSlot k0 f) = secOf s := rfl
@[simp] theorem State.modSafe_sec (s : State) (k0 : Nat) (f : SafeHead → SafeHead) : secOf (s.modSafe k0 f) = secOf s := rfl
@[simp] theorem State.modPair_sec (s : State) (k0 : Nat) (f : Pair → Pair) : secOf (s.modPair k0 f) = secOf s := rfl
@[simp] theorem State.modWl_sec (s : State) (f : Watchlamp → Watchlamp) : secOf (s.modWl f) = secOf s := rfl
@[simp] theorem State.modCtx_sec (s : State) (k0 : Nat) (f : Ctx → Ctx) : secOf (s.modCtx k0 f) = secOf s := rfl
@[simp] theorem State.modChand_sec (s : State) (f : Chand → Chand) : secOf (s.modChand f) = secOf s := rfl
@[simp] theorem State.modChan_sec (s : State) (k0 : Nat) (f : Chan → Chan) : secOf (s.modChan k0 f) = secOf s := rfl
@[simp] theorem State.modMem_sec (s : State) (f : Mem → Mem) : secOf (s.modMem f) = secOf s := rfl
@[simp] theorem State.modPart_sec (s : State) (k0 : Nat) (f : Part → Part) : secOf (s.modPart k0 f) = secOf s := rfl
@[simp] theorem State.modFab_sec (s : State) (f : Fabric → Fabric) : secOf (s.modFab f) = secOf s := rfl
@[simp] theorem State.modTarget_sec (s : State) (k0 : Nat) (f : Target → Target) : secOf (s.modTarget k0 f) = secOf s := rfl
@[simp] theorem State.modSlotTab_sec (s : State) (k0 : Nat) (f : SlotTable → SlotTable) : secOf (s.modSlotTab k0 f) = secOf s := rfl
@[simp] theorem State.modLock_sec (s : State) (k0 : Nat) (f : Lock → Lock) : secOf (s.modLock k0 f) = secOf s := rfl
@[simp] theorem State.modCsi_sec (s : State) (k0 : Nat) (f : Csi → Csi) : secOf (s.modCsi k0 f) = secOf s := rfl
@[simp] theorem State.modNet_sec (s : State) (f : Net → Net) : secOf (s.modNet f) = secOf s := rfl
@[simp] theorem State.modPtp_sec (s : State) (k0 : Nat) (f : Ptp → Ptp) : secOf (s.modPtp k0 f) = secOf s := rfl
@[simp] theorem State.modEport_sec (s : State) (k0 : Nat) (f : EPort → EPort) : secOf (s.modEport k0 f) = secOf s := rfl
@[simp] theorem State.modGcl_sec (s : State) (k0 : Nat) (f : Gcl → Gcl) : secOf (s.modGcl k0 f) = secOf s := rfl
@[simp] theorem State.modCan_sec (s : State) (k0 : Nat) (f : Can → Can) : secOf (s.modCan k0 f) = secOf s := rfl
@[simp] theorem State.modAudio_sec (s : State) (f : Audio → Audio) : secOf (s.modAudio f) = secOf s := rfl
@[simp] theorem State.modTdm_sec (s : State) (k0 : Nat) (f : Tdm → Tdm) : secOf (s.modTdm k0 f) = secOf s := rfl
@[simp] theorem State.modSafeLoad_sec (s : State) (k0 : Nat) (f : SafeLoad → SafeLoad) : secOf (s.modSafeLoad k0 f) = secOf s := rfl
@[simp] theorem State.modPanel_sec (s : State) (k0 : Nat) (f : Panel → Panel) : secOf (s.modPanel k0 f) = secOf s := rfl
@[simp] theorem State.modObj_sec (s : State) (k0 : Nat) (f : ScObj → ScObj) : secOf (s.modObj k0 f) = secOf s := rfl
@[simp] theorem State.modHap_sec (s : State) (k0 : Nat) (f : Hap → Hap) : secOf (s.modHap k0 f) = secOf s := rfl
@[simp] theorem State.modMbox_sec (s : State) (k0 : Nat) (f : Mbox → Mbox) : secOf (s.modMbox k0 f) = secOf s := rfl
@[simp] theorem State.modFlt_sec (s : State) (f : Faults → Faults) : secOf (s.modFlt f) = secOf s := rfl
@[simp] theorem State.modPwr_sec (s : State) (f : Power → Power) : secOf (s.modPwr f) = secOf s := rfl
@[simp] theorem State.modRail_sec (s : State) (k0 : Nat) (f : Rail → Rail) : secOf (s.modRail k0 f) = secOf s := rfl
@[simp] theorem State.modBoot_sec (s : State) (f : Boot → Boot) : secOf (s.modBoot f) = secOf s := rfl
@[simp] theorem State.emit_sec (s : State) (o : Output) :
    secOf (State.emit s o) = secOf s := rfl

@[simp] theorem State.drawn_sec (s : State) :
    secOf (State.drawn s) = secOf s := rfl

@[simp] theorem sendIrq_sec (s : State) (fn : Nat) (vec : Nat) :
    secOf (sendIrq s fn vec) = secOf s := by simp [sendIrq]

@[simp] theorem gather_sec (s : State) (fn : Nat) (q : Nat) :
    secOf (gather s fn q) = secOf s := by simp [gather]

@[simp] theorem writeEntry_sec (s : State) (fn : Nat) (q : Nat) (h : Held) :
    secOf (writeEntry s fn q h) = secOf s := by simp [writeEntry]

@[simp] theorem postEntry_sec (s : State) (fn : Nat) (q : Nat) (h : Held) :
    secOf (postEntry s fn q h) = secOf s := by simp [postEntry]

@[simp] theorem flushLost_sec (s : State) (fn : Nat) :
    secOf (flushLost s fn) = secOf s := by simp [flushLost]

@[simp] theorem sendEventAt_sec (s : State) (fn : Nat) (evCode : Nat) (d5 : Nat) (d6 : Nat) (d7 : Nat) (stamp : Time) :
    secOf (sendEventAt s fn evCode d5 d6 d7 stamp) = secOf s := by simp [sendEventAt]

@[simp] theorem sendEvent_sec (s : State) (isl : Nat) (fn : Nat) (evCode : Nat) (d5 : Nat) (d6 : Nat) (d7 : Nat) :
    secOf (sendEvent s isl fn evCode d5 d6 d7) = secOf s := by simp [sendEvent]

@[simp] theorem sendManagers_sec (s : State) (isl : Nat) (evCode : Nat) (d5 : Nat) (d6 : Nat) (d7 : Nat) :
    secOf (sendManagers s isl evCode d5 d6 d7) = secOf s := by simp [sendManagers]

@[simp] theorem sendTo_sec (s : State) (isl : Nat) (fn : Option Nat) (evCode : Nat) (d5 : Nat) (d6 : Nat) (d7 : Nat) :
    secOf (sendTo s isl fn evCode d5 d6 d7) = secOf s := by
  unfold sendTo
  split <;> simp

@[simp] theorem flushHeld_sec (s : State) (fn : Nat) (q : Nat) (x3 : Nat) :
    secOf (flushHeld s fn q x3) = secOf s := by
  induction x3 generalizing s with
  | zero => rfl
  | succ n ih =>
    unfold flushHeld
    split
    · rfl
    · split <;> simp [ih]

@[simp] theorem State.setFence_sec (s : State) (fn : Nat) (n : Nat) (v : Nat) :
    secOf (State.setFence s fn n v) = secOf s := rfl

@[simp] theorem signalFence_sec (s : State) (fn : Nat) (n : Nat) (v : Nat) :
    secOf (signalFence s fn n v) = secOf s := by simp [signalFence]

@[simp] theorem finishCmd_sec (s : State) (c : Cmd) (status : Nat) (pay : List Nat) (stamp : Time) :
    secOf (finishCmd s c status pay stamp) = secOf s := by simp [finishCmd]

@[simp] theorem completeAt_sec (s : State) (id : Nat) (status : Nat) (pay : List Nat) (stamp : Time) :
    secOf (completeAt s id status pay stamp) = secOf s := by
  unfold completeAt
  repeat' first
    | (simp [secView_fns]; done)
    | (simp [foldl_sec, foldl_fst_sec, secView_fns]; done)
    | intro _ _
    | intro _
    | rw [foldl_sec]
    | rw [foldl_fst_sec]
    | split
    | (apply sec_congr <;> simp [secView_fns]; done)
    | (simp; first | rw [foldl_sec] | rw [foldl_fst_sec] | split | (apply sec_congr <;> simp [secView_fns]; done))
    | with_reducible rfl

@[simp] theorem complete_sec (s : State) (id : Nat) (status : Nat) (pay : List Nat) :
    secOf (complete s id status pay) = secOf s := by
  unfold complete
  split <;> simp

@[simp] theorem completeAll_sec (s : State) (ids : List Nat) (status : Nat) (pay : List Nat) :
    secOf (completeAll s ids status pay) = secOf s := by simp [completeAll, foldl_sec]

@[simp] theorem endAll_sec (s : State) (ids : List Nat) (status : Nat) :
    secOf (endAll s ids status) = secOf s := by simp [endAll, foldl_sec]

@[simp] theorem State.forget_sec (s : State) (p : Flight → Bool) :
    secOf (State.forget s p) = secOf s := rfl

@[simp] theorem bumpGen_sec (s : State) :
    secOf (bumpGen s) = secOf s := rfl

@[simp] theorem updAlmout_sec (s : State) :
    secOf (updAlmout s) = secOf s := by simp [updAlmout]

@[simp] theorem noteSys_sec (s : State) :
    secOf (noteSys s) = secOf s := rfl

@[simp] theorem setTone_sec (s : State) (n : Nat) (on : Bool) :
    secOf (setTone s n on) = secOf s := by simp [setTone]

@[simp] theorem raiseSysAlarm_sec (s : State) :
    secOf (raiseSysAlarm s) = secOf s := by simp [raiseSysAlarm]

@[simp] theorem fatalResponse_sec (s : State) :
    secOf (fatalResponse s) = secOf s := by simp [fatalResponse]

@[simp] theorem faultEvents_sec (s : State) (fc : Nat) (cls : Nat) (opn : Nat) (stamp : Time) :
    secOf (faultEvents s fc cls opn stamp) = secOf s := by
  unfold faultEvents
  split <;> simp

@[simp] theorem countCorrected_sec (s : State) (isl : Nat) :
    secOf (countCorrected s isl) = secOf s := rfl

@[simp] theorem reportAt_sec (s : State) (isl : Nat) (src : Nat) (loss : Bool) (stamp : Time) :
    secOf (reportAt s isl src loss stamp) = secOf s := by simp [reportAt]

@[simp] theorem report_sec (s : State) (isl : Nat) (src : Nat) (loss : Bool) :
    secOf (report s isl src loss) = secOf s := by simp [report]

@[simp] theorem updFaultPin_sec (s : State) :
    secOf (updFaultPin s) = secOf s := by simp [updFaultPin]

@[simp] theorem closeLoss_sec (s : State) (fc : Nat) :
    secOf (closeLoss s fc) = secOf s := by simp [closeLoss]

@[simp] theorem closeOneLoss_sec (s : State) (fc : Nat) :
    secOf (closeOneLoss s fc) = secOf s := by simp [closeOneLoss]

@[simp] theorem ackSysAlarm_sec (s : State) :
    secOf (ackSysAlarm s) = secOf s := by simp [ackSysAlarm]

@[simp] theorem worldViolation_sec (s : State) (isl : Nat) (ini : Nat) :
    secOf (worldViolation s isl ini) = secOf s := rfl

@[simp] theorem countRefused_sec (s : State) (ini : Nat) :
    secOf (countRefused s ini) = secOf s := rfl

@[simp] theorem State.dropGroup_sec (s : State) :
    secOf (State.dropGroup s) = secOf s := rfl

@[simp] theorem State.dropHead_sec (s : State) :
    secOf (State.dropHead s) = secOf s := rfl

@[simp] theorem holdPerf_sec (s : State) (i : Nat) (fn : Nat) :
    secOf (holdPerf s i fn) = secOf s := by
  unfold holdPerf
  repeat' first
    | (simp [foldl_sec, foldl_fst_sec, secView_fns]; done)
    | intro _ _
    | rw [foldl_sec]
    | split

@[simp] theorem setFnState_sec (s : State) (fn : Nat) (new : Nat) :
    secOf (setFnState s fn new) = secOf s := by simp [setFnState]

/-! ### Dram -/

@[simp] theorem takeLine_sec (s : State) (line : Nat) (dirty : Bool) :
    secOf (takeLine s line dirty) = secOf s := by simp [takeLine]

@[simp] theorem waitChan_sec (s : State) (id : Nat) (c : Nat) (put : optParam (Option (Nat × List Byte × List Nat)) none) :
    secOf (waitChan s id c put) = secOf s := rfl

@[simp] theorem freezeChan_sec (s : State) (c : Nat) (r : MemReq) (syn : Nat) :
    secOf (freezeChan s c r syn) = secOf s := by simp [freezeChan]

@[simp] theorem readWord_sec (s : State) (fn : Nat) (a : Nat) (merge : Bool) :
    secOf (readWord s fn a merge) = secOf s := by
  unfold readWord; dsimp only
  (repeat' split) <;> simp

@[simp] theorem readLine_sec (s : State) (fn : Nat) (a : Nat) :
    secOf (readLine s fn a) = secOf s := by
  unfold readLine
  split <;> simp

@[simp] theorem readRange_sec (s : State) (fn : Nat) (a : Nat) (n : Nat) :
    secOf (readRange s fn a n) = secOf s := by simp [readRange, foldl_sec]

@[simp] theorem withMem_sec (s : State) (f : Flight) (reads : List (Nat × Nat)) (writes : List (Nat × Nat)) (k : State → State) (hk : ∀ s, secOf (k s) = secOf s) :
    secOf (withMem s f reads writes k) = secOf s := by
  unfold withMem
  dsimp only
  split
  · simp
  · split
    · simp
    · split
      · simp [foldl_sec]
      · rw [hk]; simp [foldl_sec]

@[simp] theorem memPut_sec (s : State) (fn : Nat) (a : Nat) (v : Byte) :
    secOf (memPut s fn a v) = secOf s := by
  unfold memPut
  split <;> simp

@[simp] theorem memPuts_sec (s : State) (fn : Nat) (a : Nat) (x3 : List Byte) :
    secOf (memPuts s fn a x3) = secOf s := by
  induction x3 generalizing s a with
  | nil => rfl
  | cons v r ih => unfold memPuts; simp [ih]

@[simp] theorem memWrite_sec (s : State) (fn : Nat) (a : Nat) (l : List Byte) :
    secOf (memWrite s fn a l) = secOf s := by simp [memWrite]

@[simp] theorem withWrite_sec (s : State) (f : Flight) (a : Nat) (l : List Byte) (pay : List Nat) :
    secOf (withWrite s f a l pay) = secOf s := by
  unfold withWrite; dsimp only
  (repeat' split) <;> simp

@[simp] theorem startFill_sec (s : State) (p : Nat) (after : Nat) (fl : Option Nat) :
    secOf (startFill s p after fl) = secOf s := rfl

@[simp] theorem markLost_sec (s : State) (p : Nat) (unfilled : Bool) :
    secOf (markLost s p unfilled) = secOf s := rfl

@[simp] theorem lostEvent_sec (s : State) (p : Nat) (c : Nat) :
    secOf (lostEvent s p c) = secOf s := by simp [lostEvent]

@[simp] theorem loseParts_sec (s : State) (ps : List Nat) (chan : Nat → Nat) (unfilled : Bool) :
    secOf (loseParts s ps chan unfilled) = secOf s := by simp [loseParts, foldl_sec]

@[simp] theorem losePipelines_sec (s : State) (c : Nat) :
    secOf (losePipelines s c) = secOf s := by simp [losePipelines, foldl_sec]

/-! ### Rings -/

@[simp] theorem discardDoorbell_sec (s : State) (fn : Nat) (q : Nat) (cq : Bool) (w : Word) :
    secOf (discardDoorbell s fn q cq w) = secOf s := by simp [discardDoorbell]

@[simp] theorem countHeld_sec (s : State) (c : Cmd) (st : Nat) :
    secOf (countHeld s c st) = secOf s := by simp [countHeld]

@[simp] theorem consume_sec (s : State) (c : Cmd) :
    secOf (consume s c) = secOf s := rfl

@[simp] theorem execute_sec (s : State) (p : OpSpec) (f : Flight) (hp : ∀ s f, secOf (p.run s f) = secOf s) :
    secOf (execute s p f) = secOf s := by
  unfold execute
  split
  · simp
  · rw [hp, holdPerf_sec]

@[simp] theorem startCmd_sec (s : State) (p : OpSpec) (c : Cmd) (hp : ∀ s f, secOf (p.run s f) = secOf s) :
    secOf (startCmd s p c) = secOf s := by
  unfold startCmd
  repeat' first
    | (simp [secView_fns, hp]; done)
    | (simp [foldl_sec, foldl_fst_sec, secView_fns, hp]; done)
    | intro _ _
    | intro _
    | rw [foldl_sec]
    | rw [foldl_fst_sec]
    | rw [execute_sec]
    | split
    | (apply sec_congr <;> simp [secView_fns, hp]; done)
    | (simp; first | rw [foldl_sec] | rw [foldl_fst_sec] | rw [execute_sec] | split | (apply sec_congr <;> simp [secView_fns, hp]; done))
    | with_reducible rfl

@[simp] theorem recheck_sec (s : State) (p : OpSpec) (f : Flight) (hp : ∀ s f, secOf (p.run s f) = secOf s) :
    secOf (recheck s p f) = secOf s := by
  unfold recheck
  split <;> simp [hp]

@[simp] theorem State.modFlight_sec (s : State) (id : Nat) (g : Flight → Flight) :
    secOf (State.modFlight s id g) = secOf s := rfl

@[simp] theorem resume_sec (s : State) (p : OpSpec) (f : Flight) (hp : ∀ s f, secOf (p.run s f) = secOf s) :
    secOf (resume s p f) = secOf s := by
  unfold resume
  exact (recheck_sec _ p _ hp).trans rfl

/-! ### Plane -/

@[simp] theorem fixStore_sec (s : State) (b : Bool) (ws : List Nat) :
    secOf (fixStore s b ws) = secOf s := by
  unfold fixStore
  repeat' first
    | (simp [secView_fns]; done)
    | (simp [foldl_sec, foldl_fst_sec, secView_fns]; done)
    | intro _ _
    | intro _
    | rw [foldl_sec]
    | rw [foldl_fst_sec]
    | split
    | (apply sec_congr <;> simp [secView_fns]; done)
    | (simp; first | rw [foldl_sec] | rw [foldl_fst_sec] | split | (apply sec_congr <;> simp [secView_fns]; done))
    | with_reducible rfl

@[simp] theorem readLists_sec (s : State) (bases : List Nat) :
    secOf (readLists s bases) = secOf s := by simp [readLists]

/-! ### Relocate -/

@[simp] theorem sendSafety_sec (s : State) (h : Nat) (p : Nat) (d7 : Nat) :
    secOf (sendSafety s h p d7) = secOf s := by simp [sendSafety, foldl_sec]

@[simp] theorem dropLoss_sec (s : State) (h : Nat) :
    secOf (dropLoss s h) = secOf s := by simp [dropLoss]

@[simp] theorem relocate_sec (s : State) (h : Nat) (cause : Nat) :
    secOf (relocate s h cause) = secOf s := by simp [relocate]

@[simp] theorem endRelocation_sec (s : State) (h : Nat) :
    secOf (endRelocation s h) = secOf s := by simp [endRelocation]

@[simp] theorem linkLost_sec (s : State) (h : Nat) :
    secOf (linkLost s h) = secOf s := by simp [linkLost]

/-! ### Bins -/

@[simp] theorem touch_sec (s : State) (c : Nat) (a : Nat) (n : Nat) :
    secOf (touch s c a n) = secOf s := by
  unfold touch; dsimp only
  (repeat' split) <;> simp

@[simp] theorem chdRead_sec (s : State) (c : Nat) (a : Nat) (n : Nat) :
    secOf (chdRead s c a n) = secOf s := by simp [chdRead]

@[simp] theorem chdWrite_sec (s : State) (c : Nat) (a : Nat) (l : List Byte) :
    secOf (chdWrite s c a l) = secOf s := by simp [chdWrite]

@[simp] theorem writeBack_sec (s : State) :
    secOf (writeBack s) = secOf s := by simp [writeBack, foldl_sec]

@[simp] theorem spillTile_sec (c : Nat) (p : Pass) (s : State) (tile : Nat) :
    secOf (spillTile c p s tile) = secOf s := by simp [spillTile, foldl_sec]

@[simp] theorem partialRender_sec (s : State) (c : Nat) (p : Pass) :
    secOf ((partialRender s c p).1) = secOf s := by simp [partialRender, foldl_sec]

@[simp] theorem binInto_sec (attrs : Nat) (q : BinPrim) (c : Nat) (a : State × Pass) (tiles : List Nat) :
    secOf (binInto attrs q c a tiles).1 = secOf a.1 := by
  unfold binInto
  dsimp only
  split <;> simp

@[simp] theorem binPrim_sec (attrs c : Nat) (a : State × Pass) (q : BinPrim) :
    secOf (binPrim attrs c a q).1 = secOf a.1 := by
  unfold binPrim
  dsimp only
  split
  · simp
  · refine foldl_fst_sec _ (fun b k => ?_) _ _
    split <;> simp

@[simp] theorem binDraw_sec (s : State) (c : Nat) (args : List Nat) :
    secOf (binDraw s c args) = secOf s := by
  unfold binDraw
  split
  · rfl
  · dsimp only
    rw [State.modCtx_sec, foldl_fst_sec _ (by simp), State.drawn_sec]

@[simp] theorem putElement_sec (c : Nat) (p : Pass) (tile : Nat) (a : Nat) (smp : Nat) (l : List Nat) (s : State) (i : Nat) :
    secOf (putElement c p tile a smp l s i) = secOf s := by simp [putElement]

@[simp] theorem putBlock_sec (c : Nat) (p : Pass) (tile : Nat) (a : Nat) (smp : Nat) (l : List Nat) (s : State) (k : Nat) :
    secOf (putBlock c p tile a smp l s k) = secOf s := by simp [putBlock]

@[simp] theorem storePlane_sec (c : Nat) (p : Pass) (tile : Nat) (l : List Nat) (s : State) (e : (Nat × Nat) × Nat) :
    secOf (storePlane c p tile l s e) = secOf s := by simp [storePlane, foldl_sec]

@[simp] theorem finishTile_sec (c : Nat) (p : Pass) (s : State) (tile : Nat) :
    secOf (finishTile c p s tile) = secOf s := by simp [finishTile, foldl_sec]

@[simp] theorem endPass_sec (s : State) (c : Nat) :
    secOf (endPass s c) = secOf s := by
  unfold endPass
  repeat' first
    | (simp [foldl_sec, foldl_fst_sec, secView_fns]; done)
    | split

@[simp] theorem robust_sec (s : State) :
    secOf (robust s) = secOf s := rfl

@[simp] theorem sampleSparse_sec (s : State) (c : Nat) (g : SparseImage) (ts : List Texel) :
    secOf ((sampleSparse s c g ts).1) = secOf s := by simp [sampleSparse, foldl_sec]

@[simp] theorem shaderAccess_sec (s : State) (c : Nat) (q : TaperAccess) :
    secOf (shaderAccess s c q).1 = secOf s := by
  unfold shaderAccess robust
  cases q <;> dsimp only <;> (try split) <;> simp

@[simp] theorem runShaders_sec (s : State) (c : Nat) (args : List Nat) :
    secOf (runShaders s c args) = secOf s := by
  unfold runShaders
  dsimp only
  rw [foldl_fst_sec _ (by simp), State.drawn_sec]

@[simp] theorem fillTapers_sec (s : State) (c : Nat) :
    secOf (fillTapers s c) = secOf s := by
  unfold fillTapers
  repeat' first
    | (simp [secView_fns]; done)
    | (simp [foldl_sec, foldl_fst_sec, secView_fns]; done)
    | intro _ _
    | intro _
    | rw [foldl_sec]
    | rw [foldl_fst_sec]
    | split
    | (apply sec_congr <;> simp [secView_fns]; done)
    | (simp; first | rw [foldl_sec] | rw [foldl_fst_sec] | split | (apply sec_congr <;> simp [secView_fns]; done))
    | with_reducible rfl

@[simp] theorem drawOne_sec (s : State) (c : Nat) (args : List Nat) :
    secOf (drawOne s c args) = secOf s := by simp [drawOne]

@[simp] theorem clampCount_sec (s : State) (n : Nat) : secOf (clampCount s n).1 = secOf s := by
  unfold clampCount
  split <;> simp

@[simp] theorem indirectArgs_sec (s : State) (c a n : Nat) : secOf (indirectArgs s c a n).1 = secOf s := by
  unfold indirectArgs
  dsimp only
  split <;> simp

@[simp] theorem runDraw_sec (s : State) (c : Nat) (p : Packet) :
    secOf (runDraw s c p) = secOf s := by simp [runDraw, foldl_sec]

@[simp] theorem runDispatch_sec (s : State) (c : Nat) (p : Packet) :
    secOf (runDispatch s c p) = secOf s := by
  unfold runDispatch
  dsimp only
  split
  · simp
  · rw [runShaders_sec, foldl_fst_sec _ (by simp), indirectArgs_sec]

/-! ### Tapers -/

@[simp] theorem runPacket_sec (s : State) (c : Nat) (p : Packet) :
    secOf (runPacket s c p) = secOf s := by
  unfold runPacket; dsimp only
  (repeat' split) <;> simp

@[simp] theorem releaseTapers_sec (s : State) (c : Nat) :
    secOf (releaseTapers s c) = secOf s := by
  unfold releaseTapers
  repeat' first
    | (simp [secView_fns]; done)
    | (simp [foldl_sec, foldl_fst_sec, secView_fns]; done)
    | intro _ _
    | intro _
    | rw [foldl_sec]
    | rw [foldl_fst_sec]
    | split
    | (apply sec_congr <;> simp [secView_fns]; done)
    | (simp; first | rw [foldl_sec] | rw [foldl_fst_sec] | split | (apply sec_congr <;> simp [secView_fns]; done))
    | with_reducible rfl

@[simp] theorem runPackets_sec (s : State) (c : Nat) (x2 : List Packet) :
    secOf (runPackets s c x2) = secOf s := by
  induction x2 generalizing s with
  | nil => simp [runPackets]
  | cons p r ih =>
    unfold runPackets
    split
    · simp
    · extract_lets wait s1
      have h1 : secOf s1 = secOf s := by
        simp only [s1]
        split <;> simp
      clear_value s1
      split
      · simp
      · split
        · simpa using h1
        · split
          · simpa using h1
          · rw [ih, h1]

@[simp] theorem book_sec (s : State) :
    secOf (book s) = secOf s := by simp [book, foldl_sec]

@[simp] theorem stopTapers_sec (s : State) (c : Nat) (ts : List Nat) :
    secOf (stopTapers s c ts) = secOf s := by
  unfold stopTapers
  repeat' first
    | (simp [secView_fns]; done)
    | (simp [foldl_sec, foldl_fst_sec, secView_fns]; done)
    | intro _ _
    | intro _
    | rw [foldl_sec]
    | rw [foldl_fst_sec]
    | split
    | (apply sec_congr <;> simp [secView_fns]; done)
    | (simp; first | rw [foldl_sec] | rw [foldl_fst_sec] | split | (apply sec_congr <;> simp [secView_fns]; done))
    | with_reducible rfl

@[simp] theorem preempt_sec (s : State) (c : Nat) (ts : List Nat) :
    secOf (preempt s c ts) = secOf s := by simp [preempt]

@[simp] theorem giveTaper_sec (s : State) (t : Nat) (c : Nat) :
    secOf (giveTaper s t c) = secOf s := by
  unfold giveTaper
  extract_lets x s0 work s1
  have h0 : secOf s0 = secOf s := by
    simp only [s0]
    split
    · exact chdRead_sec _ _ _ _
    · rfl
  have h1 : secOf s1 = secOf s := by
    simp only [s1]
    clear_value s0 work
    exact h0
  clear_value s1
  split
  · exact (foldl_sec _ (fun _ _ => preempt_sec _ _ _) _ _).trans h1
  · exact h1

@[simp] theorem assignTapers_sec (s : State) :
    secOf (assignTapers s) = secOf s := by
  unfold assignTapers
  repeat' first
    | (simp [foldl_sec, foldl_fst_sec, secView_fns]; done)
    | intro _ _
    | rw [foldl_sec]
    | split

@[simp] theorem displace_sec (s : State) :
    secOf (displace s) = secOf s := by simp [displace, foldl_sec]

@[simp] theorem rebalance_sec (s : State) :
    secOf (rebalance s) = secOf s := by
  unfold rebalance
  repeat' first
    | (simp [secView_fns]; done)
    | (simp [foldl_sec, foldl_fst_sec, secView_fns]; done)
    | intro _ _
    | intro _
    | rw [foldl_sec]
    | rw [foldl_fst_sec]
    | split
    | (apply sec_congr <;> simp [secView_fns]; done)
    | (simp; first | rw [foldl_sec] | rw [foldl_fst_sec] | split | (apply sec_congr <;> simp [secView_fns]; done))
    | with_reducible rfl

@[simp] theorem preemptShort_sec (s : State) :
    secOf (preemptShort s) = secOf s := by simp [preemptShort, foldl_sec]

@[simp] theorem saveDone_sec (s : State) (c : Nat) :
    secOf (saveDone s c) = secOf s := by
  unfold saveDone
  repeat' first
    | (simp [secView_fns]; done)
    | (simp [foldl_sec, foldl_fst_sec, secView_fns]; done)
    | intro _ _
    | intro _
    | rw [foldl_sec]
    | rw [foldl_fst_sec]
    | split
    | (apply sec_congr <;> simp [secView_fns]; done)
    | (simp; first | rw [foldl_sec] | rw [foldl_fst_sec] | split | (apply sec_congr <;> simp [secView_fns]; done))
    | with_reducible rfl

/-! ### Chandelier -/

@[simp] theorem beginCtx_sec (x0 : Nat) (x1 : State) (x2 : Nat) :
    secOf (beginCtx x0 x1 x2) = secOf x1 := by
  induction x0 generalizing x1 with
  | zero => rfl
  | succ k ih =>
    unfold beginCtx
    dsimp only
    repeat' first
      | (simp [ih]; done)
      | (simp [ih, foldl_sec]; done)
      | split

@[simp] theorem reapPipelines_sec (s : State) :
    secOf (reapPipelines s) = secOf s := rfl

@[simp] theorem leaveCtx_sec (s : State) (c : Nat) :
    secOf (leaveCtx s c) = secOf s := by simp [leaveCtx]

@[simp] theorem finishSub_sec (s : State) (c : Nat) (status : Nat) :
    secOf (finishSub s c status) = secOf s := by
  unfold finishSub; dsimp only
  (repeat' split) <;> simp

@[simp] theorem chdLoop_sec (x0 : Nat) (x1 : State) :
    secOf (chdLoop x0 x1) = secOf x1 := by
  induction x0 generalizing x1 with
  | zero => rfl
  | succ k ih =>
    unfold chdLoop
    extract_lets s1 s2 s3 bad s4
    have h1 : secOf s1 = secOf x1 := by simp [s1, foldl_sec]
    have h2 : secOf s2 = secOf x1 := by simp [s2, h1]
    have h3 : secOf s3 = secOf x1 := by simp [s3, foldl_sec, h2]
    have h4 : secOf s4 = secOf x1 := by simp [s4, foldl_sec, h3]
    clear_value s4
    split
    · rw [ih, h4]
    · exact h4

@[simp] theorem kickChandelier_sec (s : State) :
    secOf (kickChandelier s) = secOf s := by simp [kickChandelier]

@[simp] theorem runSubmit_sec (s : State) (f : Flight) :
    secOf (runSubmit s f) = secOf s := by
  unfold runSubmit
  split <;> simp

@[simp] theorem endSubmission_sec (s : State) (c : Nat) (status : Nat) :
    secOf (endSubmission s c status) = secOf s := by simp [endSubmission]

@[simp] theorem undoPreempt_sec (s : State) (c : Nat) :
    secOf (undoPreempt s c) = secOf s := by simp [undoPreempt]

@[simp] theorem runPipeline_sec (s : State) (f : Flight) :
    secOf (runPipeline s f) = secOf s := by
  unfold runPipeline
  repeat' first
    | (simp [secView_fns]; done)
    | (simp [foldl_sec, foldl_fst_sec, secView_fns]; done)
    | intro _ _
    | intro _
    | rw [foldl_sec]
    | rw [foldl_fst_sec]
    | rw [withMem_sec]
    | split
    | (apply sec_congr <;> simp [secView_fns]; done)
    | (simp; first | rw [foldl_sec] | rw [foldl_fst_sec] | rw [withMem_sec] | split | (apply sec_congr <;> simp [secView_fns]; done))
    | with_reducible rfl

@[simp] theorem runCopy_sec (s : State) (f : Flight) :
    secOf (runCopy s f) = secOf s := by simp [runCopy]

@[simp] theorem bindPage_sec (fn : Nat) (table : Nat) (map : Nat) (s : State) (e : Nat × Bool × Nat) :
    secOf (bindPage fn table map s e) = secOf s := by simp [bindPage]

@[simp] theorem runSparse_sec (s : State) (f : Flight) :
    secOf (runSparse s f) = secOf s := by
  unfold runSparse
  repeat' first
    | (simp [secView_fns]; done)
    | (simp [foldl_sec, foldl_fst_sec, secView_fns]; done)
    | intro _ _
    | intro _
    | rw [foldl_sec]
    | rw [foldl_fst_sec]
    | rw [withMem_sec]
    | split
    | (apply sec_congr <;> simp [secView_fns]; done)
    | (simp; first | rw [foldl_sec] | rw [foldl_fst_sec] | rw [withMem_sec] | split | (apply sec_congr <;> simp [secView_fns]; done))
    | with_reducible rfl

@[simp] theorem grantCtxs_sec (s : State) (fn : Nat) (n : Nat) :
    secOf (grantCtxs s fn n) = secOf s := by
  unfold grantCtxs
  repeat' first
    | (simp [foldl_sec, foldl_fst_sec, secView_fns]; done)
    | intro _ _
    | rw [foldl_sec]
    | split

@[simp] theorem freeCtxs_sec (s : State) (fn : Nat) :
    secOf (freeCtxs s fn) = secOf s := by
  unfold freeCtxs
  repeat' first
    | (simp [foldl_sec, foldl_fst_sec, secView_fns]; done)
    | intro _ _
    | rw [foldl_sec]
    | split

@[simp] theorem clearCtxs_sec (s : State) (fn : Nat) :
    secOf (clearCtxs s fn) = secOf s := by simp [clearCtxs, foldl_sec]

@[simp] theorem pruneCtxs_sec (s : State) :
    secOf (pruneCtxs s) = secOf s := by simp [pruneCtxs, foldl_sec]

@[simp] theorem dropPipelines_sec (s : State) (fn : Nat) :
    secOf (dropPipelines s fn) = secOf s := rfl

@[simp] theorem loseCtx_sec (isl : Nat) (s : State) (c : Nat) :
    secOf (loseCtx isl s c) = secOf s := by
  unfold loseCtx; dsimp only
  (repeat' split) <;> simp

@[simp] theorem resetChandelier_sec (s : State) (isl : Nat) :
    secOf (resetChandelier s isl) = secOf s := by simp [resetChandelier, foldl_sec]

/-! ### Haptics -/

@[simp] theorem endEffect_sec (s : State) (ch : Nat) (e : Effect) :
    secOf (endEffect s ch e) = secOf s := by
  unfold endEffect
  split <;> simp

@[simp] theorem endStops_sec (s : State) (ch : Nat) :
    secOf (endStops s ch) = secOf s := by simp [endStops, foldl_sec]

@[simp] theorem startEffect_sec (s : State) (ch : Nat) (e : Effect) :
    secOf (startEffect s ch e) = secOf s := rfl

@[simp] theorem brakeNow_sec (s : State) (ch : Nat) (pre : Bool) :
    secOf (brakeNow s ch pre) = secOf s := by
  unfold brakeNow
  split <;> simp

@[simp] theorem takeOver_sec (s : State) (ch : Nat) (e : Effect) :
    secOf (takeOver s ch e) = secOf s := by
  unfold takeOver; dsimp only
  split <;> simp

@[simp] theorem requestEffect_sec (s : State) (ch : Nat) (e : Effect) :
    secOf (requestEffect s ch e).1 = secOf s := by
  unfold requestEffect
  dsimp only
  repeat' first
    | (simp; done)
    | split

@[simp] theorem hapticAlarm_sec (s : State) (ch : Nat) (effect : Nat) :
    secOf (hapticAlarm s ch effect) = secOf s := by simp [hapticAlarm]

@[simp] theorem playEffect_sec (s : State) (f : Flight) :
    secOf (playEffect s f) = secOf s := by simp [playEffect]

@[simp] theorem armChannel_sec (s : State) (f : Flight) :
    secOf (armChannel s f) = secOf s := by simp [armChannel]

@[simp] theorem dropWaiting_sec (s : State) (ch : Nat) (e : Effect) (status : Nat) (pay : List Nat) :
    secOf (dropWaiting s ch e status pay) = secOf s := by
  unfold dropWaiting
  split <;> simp

@[simp] theorem beginWaiting_sec (s : State) (ch : Nat) (e : Effect) :
    secOf (beginWaiting s ch e) = secOf s := by
  unfold beginWaiting
  split <;> simp

@[simp] theorem atCrossing_sec (s : State) (ch : Nat) :
    secOf (atCrossing s ch) = secOf s := by
  unfold atCrossing
  split <;> simp

@[simp] theorem stopEffects_sec (s : State) (p : Effect → Bool) :
    secOf (stopEffects s p) = secOf s := by
  unfold stopEffects
  repeat' first
    | (simp [foldl_sec, foldl_fst_sec, secView_fns]; done)
    | intro _ _
    | rw [foldl_sec]
    | split

@[simp] theorem releaseHaptics_sec (s : State) (fn : Nat) :
    secOf (releaseHaptics s fn) = secOf s := by
  unfold releaseHaptics
  repeat' first
    | (simp [secView_fns]; done)
    | (simp [foldl_sec, foldl_fst_sec, secView_fns]; done)
    | intro _ _
    | intro _
    | rw [foldl_sec]
    | rw [foldl_fst_sec]
    | split
    | (apply sec_congr <;> simp [secView_fns]; done)
    | (simp; first | rw [foldl_sec] | rw [foldl_fst_sec] | split | (apply sec_congr <;> simp [secView_fns]; done))
    | with_reducible rfl

/-! ### Lists -/

@[simp] theorem fileDirectory_sec (s : State) (h : Nat) :
    secOf (fileDirectory s h) = secOf s := by
  unfold fileDirectory
  apply sec_congr <;> simp [secView_fns]

@[simp] theorem writeStore_sec (s : State) (a : Nat) (l : List Byte) :
    secOf (writeStore s a l) = secOf s := by
  unfold writeStore
  apply sec_congr <;> simp [secView_fns]

@[simp] theorem applyUpdate_sec (s : State) (f : Flight) :
    secOf (applyUpdate s f) = secOf s := by
  unfold applyUpdate
  extract_lets c h bank base s0 s1 restore s2
  have hr : ∀ t, secOf (restore t) = secOf t := fun t => by simp only [restore]; split <;> rfl
  have h0 : secOf s0 = secOf s := writeStore_sec _ _ _
  clear_value s0
  have h1 : secOf s1 = secOf s := by
    simp only [s1]
    split
    · exact (fileDirectory_sec _ _).trans h0
    · exact h0
  have h2 : secOf s2 = secOf s := (readLists_sec _ _).trans h1
  clear_value s1 restore s2
  split
  · split
    · rw [complete_sec, h2]
    · rw [hr, State.modSafe_sec, h2]
  · rw [complete_sec, hr, h1]

@[simp] theorem refreshBank_sec (s : State) (h : Nat) :
    secOf (refreshBank s h) = secOf s := by
  unfold refreshBank
  extract_lets bank s1 s2
  have h2 : secOf s2 = secOf s := by simp [s1, s2]
  clear_value s2
  split
  · rfl
  · rw [fileDirectory_sec, State.modSafe_sec]
    exact Eq.trans rfl h2

@[simp] theorem runUpdatesN_sec (s : State) (x1 : Nat) :
    secOf (runUpdatesN s x1) = secOf s := by
  induction x1 generalizing s with
  | zero => rfl
  | succ n ih =>
    unfold runUpdatesN
    split
    · rfl
    · split
      · rfl
      · dsimp only
        split
        · exact (ih _).trans rfl
        · split
          · rfl
          · exact (ih _).trans ((recheck_sec _ _ _ applyUpdate_sec).trans rfl)

@[simp] theorem runUpdates_sec (s : State) :
    secOf (runUpdates s) = secOf s := by simp [runUpdates, foldl_sec]

@[simp] theorem unresolved_sec (s : State) (p : Nat) :
    secOf (unresolved s p) = secOf s := by simp [unresolved, foldl_sec]

@[simp] theorem outOfService_sec (s : State) (p : Nat) (b : Bool) (new : Nat) :
    secOf (outOfService s p b new) = secOf s := rfl

@[simp] theorem rebuild_sec (s : State) (p : Nat) (b : Bool) :
    secOf (rebuild s p b) = secOf s := by simp [rebuild]

@[simp] theorem renderLine_sec (s : State) (h : Nat) (y : Nat) (nxt : Bool) (d : PassFault) :
    secOf (renderLine s h y nxt d) = secOf s := by simp [renderLine]

@[simp] theorem readyRow_sec (s : State) (h : Nat) (y : Nat) :
    secOf (readyRow s h y) = secOf s := by simp [readyRow]

/-! ### Heads -/

@[simp] theorem headWrite_sec (s : State) (fn : Nat) (h : Nat) (sec : Bool) (k : State → State) (hk : ∀ s, secOf (k s) = secOf s) :
    secOf (headWrite s fn h sec k) = secOf s := by simp [headWrite, hk]

@[simp] theorem setLink_sec (s : State) (h : Nat) (link : Nat) (rate : Nat) (lanes : Nat) :
    secOf (setLink s h link rate lanes) = secOf s := rfl

@[simp] theorem showSends_sec (old : State) (s : State) (h : Nat) :
    secOf (showSends old s h) = secOf s := by simp [showSends]

@[simp] theorem linkEvent_sec (s : State) (h : Nat) (cause : Nat) :
    secOf (linkEvent s h cause) = secOf s := by simp [linkEvent]

@[simp] theorem startTiming_sec (s : State) (h : Nat) :
    secOf (startTiming s h) = secOf s := rfl

@[simp] theorem trainingFailed_sec (s : State) (h : Nat) (flight : Option Nat) (attempts : Nat) :
    secOf (trainingFailed s h flight attempts) = secOf s := by
  unfold trainingFailed
  split <;> simp

@[simp] theorem train_sec (s : State) (h : Nat) (cause : Nat) (cands : List (Nat × Nat)) (flight : Option Nat) :
    secOf (train s h cause cands flight) = secOf s := by simp [train]

@[simp] theorem bootTrained_sec (s : State) (h : Nat) (up : Option (Nat × Nat)) :
    secOf (bootTrained s h up) = secOf s := by
  unfold bootTrained
  split <;> simp

@[simp] theorem trainingOver_sec (s : State) (h : Nat) (tr : Training) (attempts : Nat) :
    secOf (trainingOver s h tr attempts) = secOf s := by simp [trainingOver]

@[simp] theorem trainedOn_sec (s : State) (h : Nat) (tr : Training) (c : Nat × Nat) :
    secOf (trainedOn s h tr c) = secOf s := by
  unfold trainedOn; dsimp only
  (repeat' split) <;> simp

@[simp] theorem turnOff_sec (s : State) (h : Nat) :
    secOf (turnOff s h) = secOf s := by
  unfold turnOff
  repeat' first
    | (simp [secView_fns]; done)
    | (simp [foldl_sec, foldl_fst_sec, secView_fns]; done)
    | intro _ _
    | intro _
    | rw [foldl_sec]
    | rw [foldl_fst_sec]
    | split
    | (apply sec_congr <;> simp [secView_fns]; done)
    | (simp; first | rw [foldl_sec] | rw [foldl_fst_sec] | split | (apply sec_congr <;> simp [secView_fns]; done))
    | with_reducible rfl

@[simp] theorem dropSlots_sec (s : State) (h : Nat) :
    secOf (dropSlots s h) = secOf s := by
  unfold dropSlots
  repeat' first
    | (simp [secView_fns]; done)
    | (simp [foldl_sec, foldl_fst_sec, secView_fns]; done)
    | intro _ _
    | intro _
    | rw [foldl_sec]
    | rw [foldl_fst_sec]
    | split
    | (apply sec_congr <;> simp [secView_fns]; done)
    | (simp; first | rw [foldl_sec] | rw [foldl_fst_sec] | split | (apply sec_congr <;> simp [secView_fns]; done))
    | with_reducible rfl

@[simp] theorem applyConfig_sec (s : State) (f : Flight) :
    secOf (applyConfig s f) = secOf s := by simp [applyConfig]

@[simp] theorem pwmEnd_sec (s : State) (h : Nat) :
    secOf (pwmEnd s h) = secOf s := rfl

@[simp] theorem lockEvent_sec (s : State) (h : Nat) (old : Nat) :
    secOf (lockEvent s h old) = secOf s := by simp [lockEvent]

@[simp] theorem lineLock_sec (s : State) (h : Nat) :
    secOf (lineLock s h) = secOf s := by simp [lineLock]

@[simp] theorem camReturns_sec (s : State) (port : Nat) :
    secOf (camReturns s port) = secOf s := by simp [camReturns, foldl_sec]

@[simp] theorem mapChecks_sec (s : State) (h : Nat) (g : Check → Check) :
    secOf (mapChecks s h g) = secOf s := rfl

@[simp] theorem frameStart_sec (s : State) (h : Nat) (loopOk : Bool) :
    secOf (frameStart s h loopOk) = secOf s := by
  unfold frameStart; dsimp only
  split <;> simp

@[simp] theorem completeDone_sec (s : State) (h : Nat) :
    secOf (completeDone s h) = secOf s := by simp [completeDone, foldl_sec]

@[simp] theorem frozenEvent_sec (s : State) (h : Nat) (k : Nat) (d7 : Nat) :
    secOf (frozenEvent s h k d7) = secOf s := by simp [frozenEvent, foldl_sec]

@[simp] theorem State.modCheck_sec (s : State) (h : Nat) (k : Nat) (g : Check → Check) :
    secOf (State.modCheck s h k g) = secOf s := rfl

@[simp] theorem freezeDetect_sec (s : State) (h : Nat) (i : Nat) (k : Check) (crc : Nat) :
    secOf (freezeDetect s h i k crc) = secOf s := by
  unfold freezeDetect
  split <;> simp

@[simp] theorem ckEnd_sec (s : State) (h : Nat) (i : Nat) (k : Check) :
    secOf (ckEnd s h i k) = secOf s := by simp [ckEnd]

@[simp] theorem safetyFrame_sec (s : State) (h : Nat) :
    secOf (safetyFrame s h) = secOf s := by
  unfold safetyFrame
  split <;> simp

@[simp] theorem releaseGroups_sec (s : State) :
    secOf (releaseGroups s) = secOf s := by
  unfold releaseGroups
  repeat' first
    | (simp [foldl_sec, foldl_fst_sec, secView_fns]; done)
    | intro _ _
    | rw [foldl_sec]
    | split

@[simp] theorem disableSlot_sec (s : State) (n : Nat) :
    secOf (disableSlot s n) = secOf s := rfl

@[simp] theorem applyEntry_sec (fn : Nat) (h : Nat) (s : State) (e : Layer) :
    secOf (applyEntry fn h s e) = secOf s := by simp [applyEntry]

@[simp] theorem applyLayers_sec (s : State) (h : Nat) (p : PFlip) :
    secOf (applyLayers s h p) = secOf s := by
  unfold applyLayers
  repeat' first
    | (simp [secView_fns]; done)
    | (simp [foldl_sec, foldl_fst_sec, secView_fns]; done)
    | intro _ _
    | intro _
    | rw [foldl_sec]
    | rw [foldl_fst_sec]
    | split
    | (apply sec_congr <;> simp [secView_fns]; done)
    | (simp; first | rw [foldl_sec] | rw [foldl_fst_sec] | split | (apply sec_congr <;> simp [secView_fns]; done))
    | with_reducible rfl

@[simp] theorem judge_sec (h : Nat) (L : Time) (x2 : State) (x3 : List PFlip) (x4 : List Nat) :
    secOf (judge h L x2 x3 x4) = secOf x2 := by
  induction x3 generalizing x2 x4 with
  | nil => rfl
  | cons p r ih =>
    unfold judge
    dsimp only
    split
    · simp [ih]
    · split <;> simp [ih]

@[simp] theorem applyCommit_sec (s : State) (h : Nat) (L : Time) :
    secOf (applyCommit s h L) = secOf s := by
  unfold applyCommit
  split <;> simp

@[simp] theorem latchRelocated_sec (s : State) (p : Nat) :
    secOf (latchRelocated s p) = secOf s := by simp [latchRelocated, foldl_sec]

@[simp] theorem latchPicture_sec (s : State) (h : Nat) (L : Time) :
    secOf (latchPicture s h L) = secOf s := by simp [latchPicture]

@[simp] theorem takeNight_sec (s : State) (h : Nat) :
    secOf (takeNight s h) = secOf s := rfl

@[simp] theorem latchHead_sec (s : State) (h : Nat) :
    secOf (latchHead s h) = secOf s := by
  unfold latchHead
  repeat' first
    | (simp [secView_fns]; done)
    | (simp [foldl_sec, foldl_fst_sec, secView_fns]; done)
    | intro _ _
    | intro _
    | rw [foldl_sec]
    | rw [foldl_fst_sec]
    | split
    | (apply sec_congr <;> simp [secView_fns]; done)
    | (simp; first | rw [foldl_sec] | rw [foldl_fst_sec] | split | (apply sec_congr <;> simp [secView_fns]; done))
    | with_reducible rfl

/-! ### Watchlamp -/

@[simp] theorem sendGuest_sec (s : State) (evCode : Nat) (d5 : Nat) (d6 : Nat) (d7 : Nat) :
    secOf (sendGuest s evCode d5 d6 d7) = secOf s := by
  unfold sendGuest
  split <;> simp

@[simp] theorem setWlMode_sec (s : State) (mode : Nat) (cause : Nat) :
    secOf (setWlMode s mode cause) = secOf s := by simp [setWlMode]

@[simp] theorem denyCommits_sec (s : State) :
    secOf (denyCommits s) = secOf s := by
  unfold denyCommits
  repeat' first
    | (simp [secView_fns]; done)
    | (simp [foldl_sec, foldl_fst_sec, secView_fns]; done)
    | intro _ _
    | intro _
    | rw [foldl_sec]
    | rw [foldl_fst_sec]
    | split
    | (apply sec_congr <;> simp [secView_fns]; done)
    | (simp; first | rw [foldl_sec] | rw [foldl_fst_sec] | split | (apply sec_congr <;> simp [secView_fns]; done))
    | with_reducible rfl

@[simp] theorem enterAutonomous_sec (s : State) (cause : Nat) (alarm : Bool) :
    secOf (enterAutonomous s cause alarm) = secOf s := by simp [enterAutonomous]

@[simp] theorem guestLost_sec (s : State) (fn : Nat) :
    secOf (guestLost s fn) = secOf s := by simp [guestLost]

@[simp] theorem wlWrite_sec (s : State) (fn : Nat) (k : State → State) (hk : ∀ s, secOf (k s) = secOf s) :
    secOf (wlWrite s fn k) = secOf s := by simp [wlWrite, hk]

@[simp] theorem State.modRule_sec (s : State) (r : Nat) (f : RuleSt → RuleSt) :
    secOf (State.modRule s r f) = secOf s := rfl

@[simp] theorem setRule_sec (s : State) (r : Nat) (rule : AlarmRule) (st : Nat) :
    secOf (setRule s r rule st) = secOf s := by simp [setRule]

@[simp] theorem evalRule_sec (s : State) (r : Nat) (rule : AlarmRule) :
    secOf (evalRule s r rule) = secOf s := by simp [evalRule]

@[simp] theorem evalRules_sec (s : State) (p : AlarmRule → Bool) :
    secOf (evalRules s p) = secOf s := by
  unfold evalRules
  repeat' first
    | (simp [foldl_sec, foldl_fst_sec, secView_fns]; done)
    | split

@[simp] theorem State.modSig_sec (s : State) (n : Nat) (f : Sig → Sig) :
    secOf (State.modSig s n f) = secOf s := rfl

@[simp] theorem acceptTelegram_sec (s : State) (n : Nat) (e : MapEntry) (p : List Byte) (stamp : Time) :
    secOf (acceptTelegram s n e p stamp) = secOf s := by simp [acceptTelegram]

@[simp] theorem noteStale_sec (s : State) (sig : Nat) :
    secOf (noteStale s sig) = secOf s := by
  unfold noteStale; dsimp only
  (repeat' split) <;> simp

@[simp] theorem passTelegram_sec (s : State) (p : MapEntry → Bool) (payload : List Byte) (stamp : Time) :
    secOf (passTelegram s p payload stamp) = secOf s := by
  unfold passTelegram
  split <;> simp

@[simp] theorem ackRule_sec (s : State) (r : Nat) :
    secOf (ackRule s r) = secOf s := by
  unfold ackRule
  split <;> simp

@[simp] theorem State.modPin_sec (s : State) (n : Nat) (f : AckPin → AckPin) :
    secOf (State.modPin s n f) = secOf s := rfl

@[simp] theorem wakeEvent_sec (s : State) :
    secOf (wakeEvent s) = secOf s := rfl

/-! ### Memory -/

@[simp] theorem dropChans_sec (s : State) (c : Nat) (cs : List Nat) :
    secOf (dropChans s c cs) = secOf s := by
  unfold dropChans
  repeat' first
    | (simp [foldl_sec, foldl_fst_sec, secView_fns]; done)
    | intro _ _
    | rw [foldl_sec]
    | split

@[simp] theorem failChan_sec (s : State) (c : Nat) :
    secOf (failChan s c) = secOf s := by simp [failChan]

@[simp] theorem updMemReady_sec (s : State) :
    secOf (updMemReady s) = secOf s := by simp [updMemReady]

@[simp] theorem fillCode_sec (s : State) :
    secOf (fillCode s) = secOf s := by simp [fillCode]

@[simp] theorem markedEvent_sec (c : Nat) (s : State) (e : Nat × Nat × Nat) :
    secOf (markedEvent c s e) = secOf s := by simp [markedEvent]

@[simp] theorem endRecovery_sec (s : State) (c : Nat) :
    secOf (endRecovery s c) = secOf s := by simp [endRecovery, foldl_sec]

@[simp] theorem refillChan_sec (s : State) (c : Nat) :
    secOf (refillChan s c) = secOf s := by
  unfold refillChan
  repeat' first
    | (simp [secView_fns]; done)
    | (simp [foldl_sec, foldl_fst_sec, secView_fns]; done)
    | intro _ _
    | intro _
    | rw [foldl_sec]
    | rw [foldl_fst_sec]
    | split
    | (apply sec_congr <;> simp [secView_fns]; done)
    | (simp; first | rw [foldl_sec] | rw [foldl_fst_sec] | split | (apply sec_congr <;> simp [secView_fns]; done))
    | with_reducible rfl

@[simp] theorem failRecovery_sec (s : State) (c : Nat) :
    secOf (failRecovery s c) = secOf s := by simp [failRecovery, foldl_sec]

@[simp] theorem endWaits_sec (s : State) (p : MemWait → Bool) (status : Nat) :
    secOf (endWaits s p status) = secOf s := by simp [endWaits]

@[simp] theorem clearChan_sec (s : State) (c : Nat) (status : Nat) :
    secOf (clearChan s c status) = secOf s := by
  unfold clearChan
  repeat' first
    | (simp [secView_fns]; done)
    | (simp [foldl_sec, foldl_fst_sec, secView_fns]; done)
    | intro _ _
    | intro _
    | rw [foldl_sec]
    | rw [foldl_fst_sec]
    | split
    | (apply sec_congr <;> simp [secView_fns]; done)
    | (simp; first | rw [foldl_sec] | rw [foldl_fst_sec] | split | (apply sec_congr <;> simp [secView_fns]; done))
    | with_reducible rfl

@[simp] theorem startScrub_sec (s : State) (c : Nat) (x : Scrub) :
    secOf (startScrub s c x) = secOf s := rfl

@[simp] theorem runScrub_sec (s : State) (f : Flight) :
    secOf (runScrub s f) = secOf s := by simp [runScrub]

@[simp] theorem nextScrub_sec (s : State) (c : Nat) (x2 : List Nat) :
    secOf (nextScrub s c x2) = secOf s := by
  induction x2 generalizing s with
  | nil => simp [nextScrub]
  | cons k r ih =>
    unfold nextScrub
    repeat' first
      | (simp [ih]; done)
      | split

@[simp] theorem endScrub_sec (s : State) (c : Nat) (n : Nat) (status : Nat) :
    secOf (endScrub s c n status) = secOf s := by
  unfold endScrub; dsimp only
  (repeat' split) <;> simp

@[simp] theorem dropScrub_sec (s : State) (c : Nat) :
    secOf (dropScrub s c) = secOf s := by
  unfold dropScrub; dsimp only
  (repeat' split) <;> simp

@[simp] theorem stopScrub_sec (s : State) (c : Nat) :
    secOf (stopScrub s c) = secOf s := by
  unfold stopScrub
  split <;> simp

@[simp] theorem stopScrubs_sec (s : State) (c : Nat) :
    secOf (stopScrubs s c) = secOf s := by simp [stopScrubs, foldl_sec]

@[simp] theorem startRecovery_sec (s : State) (c : Nat) :
    secOf (startRecovery s c) = secOf s := by simp [startRecovery]

@[simp] theorem trainDone_sec (s : State) (ch : Nat) (r : TrainResult) :
    secOf (trainDone s ch r) = secOf s := by simp [trainDone]

@[simp] theorem State.modBank_sec (s : State) (c : Nat) (b : Nat) (f : Bank → Bank) :
    secOf (State.modBank s c b f) = secOf s := rfl

@[simp] theorem fillQueues_sec (c : Nat) (s : State) (e : MemReq × Time) :
    secOf (fillQueues c s e) = secOf s := by simp [fillQueues]

@[simp] theorem runPartition_sec (s : State) (f : Flight) :
    secOf (runPartition s f) = secOf s := by
  unfold runPartition; dsimp only
  (repeat' split) <;> simp

@[simp] theorem endFill_sec (s : State) (p : Nat) :
    secOf (endFill s p) = secOf s := by
  unfold endFill; dsimp only
  repeat' first
    | (simp [foldl_sec, secView_fns]; done)
    | split

@[simp] theorem resetMemory_sec (s : State) (isl : Nat) :
    secOf (resetMemory s isl) = secOf s := by simp [resetMemory, foldl_sec]

@[simp] theorem releaseMemory_sec (s : State) (isl : Nat) :
    secOf (releaseMemory s isl) = secOf s := by
  unfold releaseMemory
  repeat' first
    | (simp [secView_fns]; done)
    | (simp [foldl_sec, foldl_fst_sec, secView_fns]; done)
    | intro _ _
    | intro _
    | rw [foldl_sec]
    | rw [foldl_fst_sec]
    | split
    | (apply sec_congr <;> simp [secView_fns]; done)
    | (simp; first | rw [foldl_sec] | rw [foldl_fst_sec] | split | (apply sec_congr <;> simp [secView_fns]; done))
    | with_reducible rfl

@[simp] theorem resetCache_sec (s : State) :
    secOf (resetCache s) = secOf s := by
  have drawn_fold (q : State × List Nat → Nat → List Nat) (l : List Nat) : ∀ acc : State × List Nat,
      secOf (l.foldl (fun (acc : State × List Nat) p => (acc.1.drawn, q acc p)) acc).1 = secOf acc.1 := by
    induction l with
    | nil => intro acc; rfl
    | cons p r ih => intro acc; exact (ih _).trans rfl
  unfold resetCache
  simp [foldl_sec, drawn_fold]

@[simp] theorem endFillOf_sec (s : State) (p : Nat) :
    secOf (endFillOf s p) = secOf s := by simp [endFillOf]

@[simp] theorem endFills_sec (s : State) :
    secOf (endFills s) = secOf s := by simp [endFills, foldl_sec]

/-! ### Fabric -/

@[simp] theorem endPort_sec (s : State) (p : Nat) :
    secOf (endPort s p) = secOf s := by simp [endPort]

@[simp] theorem tearLocks_sec (s : State) (p : Nat → Bool) (cause : Nat) :
    secOf (tearLocks s p cause) = secOf s := by simp [tearLocks, foldl_sec]

/-! ### Media -/

@[simp] theorem signalEvent_sec (s : State) (port : Nat) (x : Csi) (lost : Nat) (frames : Nat) :
    secOf (signalEvent s port x lost frames) = secOf s := by simp [signalEvent, foldl_sec]

@[simp] theorem lineToMem_sec (s : State) (x : Csi) (l : List Byte) :
    secOf (lineToMem s x l) = secOf s := by
  unfold lineToMem
  split <;> simp

@[simp] theorem lineToRing_sec (s : State) (x : Csi) (l : List Byte) :
    secOf (lineToRing s x l) = secOf s := by
  unfold lineToRing; dsimp only
  repeat' first
    | (simp [foldl_sec, secView_fns]; done)
    | split
    | (apply sec_congr <;> simp [secView_fns]; done)

@[simp] theorem runBind_sec (s : State) (f : Flight) :
    secOf (runBind s f) = secOf s := by simp [runBind]

@[simp] theorem State.setSession_sec (s : State) (k : Nat) (x : Session) :
    secOf (State.setSession s k x) = secOf s := rfl

@[simp] theorem State.closeSession_sec (s : State) (k : Nat) :
    secOf (State.closeSession s k) = secOf s := rfl

@[simp] theorem putPicture_sec (s : State) (fn : Nat) (n : Nat) (concealed : Nat) :
    secOf (putPicture s fn n concealed) = secOf s := by
  unfold putPicture; dsimp only
  (repeat' split) <;> simp

@[simp] theorem releaseSlots_sec (s : State) (fn : Nat) (n : Nat) (mask : Nat) :
    secOf (releaseSlots s fn n mask) = secOf s := by
  unfold releaseSlots; dsimp only
  split <;> simp

@[simp] theorem decodeAu_sec (s : State) (f : Flight) :
    secOf (decodeAu s f) = secOf s := by
  unfold decodeAu; dsimp only
  repeat' first
    | (simp [foldl_sec, secView_fns]; done)
    | split

@[simp] theorem runDecode_sec (s : State) (f : Flight) :
    secOf (runDecode s f) = secOf s := by simp [runDecode]

@[simp] theorem runEncode_sec (s : State) (f : Flight) :
    secOf (runEncode s f) = secOf s := by
  unfold runEncode
  repeat' first
    | (simp [secView_fns]; done)
    | (simp [foldl_sec, foldl_fst_sec, secView_fns]; done)
    | intro _ _
    | intro _
    | rw [foldl_sec]
    | rw [foldl_fst_sec]
    | rw [withMem_sec]
    | split
    | (apply sec_congr <;> simp [secView_fns]; done)
    | (simp; first | rw [foldl_sec] | rw [foldl_fst_sec] | rw [withMem_sec] | split | (apply sec_congr <;> simp [secView_fns]; done))
    | with_reducible rfl

@[simp] theorem ringPut_sec (s : State) (fn : Nat) (base : Nat) (n : Nat) (x4 : Nat) (x5 : Nat) (x6 : List Byte) :
    secOf (ringPut s fn base n x4 x5 x6) = secOf s := by
  induction x4 generalizing s x5 x6 with
  | zero => rfl
  | succ k ih =>
    unfold ringPut
    split
    · rfl
    · rw [ih, memWrite_sec]

@[simp] theorem closeSessions_sec (s : State) (fn : Nat) :
    secOf (closeSessions s fn) = secOf s := rfl

@[simp] theorem resetMedia_sec (s : State) :
    secOf (resetMedia s) = secOf s := rfl

/-! ### Network -/

@[simp] theorem dropFrame_sec (s : State) (p : Nat) :
    secOf (dropFrame s p) = secOf s := by simp [dropFrame]

@[simp] theorem driveGates_sec (s : State) (p : Nat) :
    secOf (driveGates s p) = secOf s := rfl

theorem startOne_sec {s s1 : State} {p : Nat} {t : Time} (h : startOne s p t = some s1) : secOf s1 = secOf s := by
  unfold startOne at h
  dsimp only at h
  split at h
  · cases h
  · split at h
    · cases h
    · injection h with h
      rw [← h]
      split <;> simp

@[simp] theorem serveN_sec (p : Nat) (x1 : Nat) (x2 : State) :
    secOf (serveN p x1 x2) = secOf x2 := by
  induction x1 generalizing x2 with
  | zero => rfl
  | succ k ih =>
    unfold serveN
    extract_lets t
    split
    · rename_i h
      rw [ih]
      split at h
      · exact startOne_sec h
      · cases h
    · split
      · rename_i h
        rw [ih, startOne_sec h]
      · rfl

@[simp] theorem serveEgress_sec (s : State) (p : Nat) :
    secOf (serveEgress s p) = secOf s := by simp [serveEgress]

@[simp] theorem sendOut_sec (s : State) (mask : Nat) (f : Frame) :
    secOf (sendOut s mask f) = secOf s := by simp [sendOut, foldl_sec]

@[simp] theorem toHost_sec (s : State) (fn : Nat) (q : Nat) (filter : Nat) (f : Frame) :
    secOf (toHost s fn q filter f) = secOf s := by
  unfold toHost
  split <;> simp

@[simp] theorem toListener_sec (s : State) (payload : List Byte) :
    secOf (toListener s payload) = secOf s := by simp [toListener]

@[simp] theorem filtered_sec (s : State) (i : Nat) (x : StreamFilter) (f : Frame) :
    secOf (filtered s i x f) = secOf s := by simp [filtered]

@[simp] theorem forward_sec (s : State) (f : Frame) :
    secOf (forward s f) = secOf s := by
  unfold forward
  split <;> simp

@[simp] theorem loseSync_sec (s : State) (d : Nat) :
    secOf (loseSync s d) = secOf s := by
  unfold loseSync
  repeat' first
    | (simp [secView_fns]; done)
    | (simp [foldl_sec, foldl_fst_sec, secView_fns]; done)
    | intro _ _
    | intro _
    | rw [foldl_sec]
    | rw [foldl_fst_sec]
    | split
    | (apply sec_congr <;> simp [secView_fns]; done)
    | (simp; first | rw [foldl_sec] | rw [foldl_fst_sec] | split | (apply sec_congr <;> simp [secView_fns]; done))
    | with_reducible rfl

@[simp] theorem netLink_sec (s : State) (p : Nat) :
    secOf (netLink s p) = secOf s := by simp [netLink]

@[simp] theorem runNetTx_sec (s : State) (f : Flight) :
    secOf (runNetTx s f) = secOf s := by simp [runNetTx]

@[simp] theorem canState_sec (s : State) (p : Nat) (new : Nat) :
    secOf (canState s p new) = secOf s := by simp [canState]

@[simp] theorem loadNetwork_sec (s : State) :
    secOf (loadNetwork s) = secOf s := by
  unfold loadNetwork
  split <;> simp

@[simp] theorem resetNetwork_sec (s : State) :
    secOf (resetNetwork s) = secOf s := by simp [resetNetwork]

/-! ### Audio -/

@[simp] theorem runSafeLoad_sec (s : State) (fn : Nat) :
    secOf (runSafeLoad s fn) = secOf s := by
  unfold runSafeLoad
  repeat' first
    | (simp [secView_fns]; done)
    | (simp [foldl_sec, foldl_fst_sec, secView_fns]; done)
    | intro _ _
    | intro _
    | rw [foldl_sec]
    | rw [foldl_fst_sec]
    | split
    | (apply sec_congr <;> simp [secView_fns]; done)
    | (simp; first | rw [foldl_sec] | rw [foldl_fst_sec] | split | (apply sec_congr <;> simp [secView_fns]; done))
    | with_reducible rfl

@[simp] theorem runSwaps_sec (s : State) (b : Time) :
    secOf (runSwaps s b) = secOf s := by simp [runSwaps, foldl_sec]

@[simp] theorem runImms_sec (s : State) :
    secOf (runImms s) = secOf s := by simp [runImms]

@[simp] theorem runBindings_sec (s : State) :
    secOf (runBindings s) = secOf s := by simp [runBindings]

@[simp] theorem takeLoops_sec (s : State) :
    secOf (takeLoops s) = secOf s := rfl

@[simp] theorem playReads_sec (s : State) :
    secOf (playReads s) = secOf s := by simp [playReads, foldl_sec]

@[simp] theorem setTargets_sec (s : State) (o : Nat) :
    secOf (setTargets s o) = secOf s := rfl

@[simp] theorem formOutput_sec (x : Nat → Int) (s : State) (o : Nat) :
    secOf (formOutput x s o) = secOf s := rfl

@[simp] theorem talk_sec (s : State) (key : Nat) (x : AStream) :
    secOf (talk s key x) = secOf s := by simp [talk]

@[simp] theorem moveStream_sec (s : State) (e : Nat × AStream) :
    secOf (moveStream s e) = secOf s := by
  unfold moveStream; dsimp only
  (repeat' split) <;> simp

@[simp] theorem listen_sec (s : State) (b : Time) :
    secOf (listen s b) = secOf s := rfl

@[simp] theorem drivePins_sec (s : State) :
    secOf (drivePins s) = secOf s := rfl

@[simp] theorem runRoute_sec (s : State) (f : Flight) :
    secOf (runRoute s f) = secOf s := by simp [runRoute]

@[simp] theorem loadAudio_sec (s : State) :
    secOf (loadAudio s) = secOf s := by
  unfold loadAudio
  split <;> simp

@[simp] theorem dropStreams_sec (s : State) (fn : Nat) :
    secOf (dropStreams s fn) = secOf s := rfl

@[simp] theorem resetAudio_sec (s : State) :
    secOf (resetAudio s) = secOf s := rfl

/-! ### Faults -/

@[simp] theorem kick_sec (s : State) :
    secOf (kick s) = secOf s := by simp [kick]

/-! ### Lantern -/

@[simp] theorem reply_sec (s : State) (g : LanMsg) (status : Nat) (pay : List Byte) :
    secOf (reply s g status pay) = secOf s := by simp [reply]

@[simp] theorem serveUndefined_sec (s : State) (x1 : List LanMsg) :
    secOf (serveUndefined s x1) = secOf s := by
  induction x1 generalizing s with
  | nil => simp [serveUndefined]
  | cons g r ih =>
    unfold serveUndefined
    split <;> simp [ih]

@[simp] theorem serve_sec (s : State) (m : Nat) (c : Nat) (run : State → LanMsg → State) (hrun : ∀ s a, secOf (run s a) = secOf s) :
    secOf (serve s m c run) = secOf s := by
  unfold serve
  split <;> simp [hrun]

@[simp] theorem dropMail_sec (s : State) (p : Nat → Bool) :
    secOf (dropMail s p) = secOf s := by
  unfold dropMail
  repeat' first
    | (simp [secView_fns]; done)
    | (simp [foldl_sec, foldl_fst_sec, secView_fns]; done)
    | intro _ _
    | intro _
    | rw [foldl_sec]
    | rw [foldl_fst_sec]
    | split
    | (apply sec_congr <;> simp [secView_fns]; done)
    | (simp; first | rw [foldl_sec] | rw [foldl_fst_sec] | split | (apply sec_congr <;> simp [secView_fns]; done))
    | with_reducible rfl

@[simp] theorem issueNonce_sec (s : State) (m : Nat) (tgt : Nat) :
    secOf (issueNonce s m tgt) = secOf s := rfl

@[simp] theorem replyNonce_sec (s : State) (g : LanMsg) :
    secOf (replyNonce s g) = secOf s := by simp [replyNonce]

@[simp] theorem storeR_sec (s : State) (g : LanMsg) :
    secOf (storeR s g) = secOf s := by simp [storeR]

@[simp] theorem freeSlot_sec (s : State) (fn : Nat) :
    secOf (freeSlot s fn) = secOf s := by
  unfold freeSlot
  repeat' first
    | (simp [foldl_sec, foldl_fst_sec, secView_fns]; done)
    | intro _ _
    | rw [foldl_sec]
    | split

@[simp] theorem dropClaims_sec (s : State) (fn : Nat) :
    secOf (dropClaims s fn) = secOf s := rfl

@[simp] theorem authFail_sec (s : State) (fn : Nat) :
    secOf (authFail s fn) = secOf s := by
  unfold authFail
  split <;> simp

/-! ### Layers -/

@[simp] theorem pendFlip_sec (s : State) (f : Flight) :
    secOf (pendFlip s f) = secOf s := by simp [pendFlip]

@[simp] theorem fetchReads_sec (s : State) (m : Mode) (p : PicLayer) :
    secOf (fetchReads s m p) = secOf s := by simp [fetchReads, foldl_sec]

/-! ### Touch -/

@[simp] theorem contactEvent_sec (s : State) (p : Nat) (c : Contact) (what : Nat) (extra : Nat) (peak : Nat) (stamp : Time) :
    secOf (contactEvent s p c what extra peak stamp) = secOf s := by
  unfold contactEvent; dsimp only
  (repeat' split) <;> simp

@[simp] theorem touchLink_sec (s : State) (p : Nat) (lost : Nat) :
    secOf (touchLink s p lost) = secOf s := by simp [touchLink]

@[simp] theorem track_sec (s : State) (p : Nat) (c : TouchCfg) (bs : List Blob) (stamp : Time) :
    secOf (track s p c bs stamp) = secOf s := by
  unfold track
  repeat' first
    | (simp [foldl_sec, foldl_fst_sec, secView_fns]; done)
    | intro _ _
    | rw [foldl_sec]
    | split

@[simp] theorem processFrame_sec (s : State) (p : Nat) (c : TouchCfg) (raw : Nat → Nat) (stamp : Time) :
    secOf (processFrame s p c raw stamp) = secOf s := by simp [processFrame]

@[simp] theorem takeConfig_sec (s : State) (p : Nat) (c : TouchCfg) :
    secOf (takeConfig s p c) = secOf s := by simp [takeConfig]

@[simp] theorem rawFrame_sec (s : State) (p : Nat) (c : TouchCfg) (b : List Byte) (seq : Nat) :
    secOf (rawFrame s p c b seq) = secOf s := by
  unfold rawFrame
  split <;> simp

@[simp] theorem objEvent_sec (s : State) (o : Nat) (what : Nat) (recal : Nat) :
    secOf (objEvent s o what recal) = secOf s := by simp [objEvent]

@[simp] theorem scanObj_sec (raw : Nat → Nat) (s : State) (o : Nat) :
    secOf (scanObj raw s o) = secOf s := by
  unfold scanObj
  extract_lets x0 s0 x nodes setE
  have hset : ∀ s e n, secOf (setE s e n) = secOf s := fun _ _ _ => rfl
  have hs0 : secOf s0 = secOf s := by
    simp only [s0]
    split <;> simp
  split
  · exact hs0
  · split
    · rw [foldl_sec]
      · exact hs0
      · intro s e
        split <;> rfl
    · extract_lets touched released s1 s2
      have hs1 : secOf s1 = secOf s := by
        simp only [s1]
        rw [foldl_sec]
        · exact hs0
        · exact fun _ _ => rfl
      have hs2 : secOf s2 = secOf s := by simp [s2, hs1]
      clear_value s2
      repeat' first
        | (simp [hs2]; done)
        | split

@[simp] theorem releaseTouch_sec (s : State) (fn : Nat) :
    secOf (releaseTouch s fn) = secOf s := rfl

@[simp] theorem loadSense_sec (s : State) :
    secOf (loadSense s) = secOf s := by
  unfold loadSense
  repeat' first
    | (simp [foldl_sec, foldl_fst_sec, secView_fns]; done)
    | intro _ _
    | rw [foldl_sec]
    | split

@[simp] theorem resetSense_sec (s : State) :
    secOf (resetSense s) = secOf s := rfl

/-! ### Lifecycle -/

@[simp] theorem prune_sec (s : State) :
    secOf (prune s) = secOf s := by
  unfold prune
  repeat' first
    | (simp [secView_fns]; done)
    | (simp [foldl_sec, foldl_fst_sec, secView_fns]; done)
    | intro _ _
    | intro _
    | rw [foldl_sec]
    | rw [foldl_fst_sec]
    | split
    | (apply sec_congr <;> simp [secView_fns]; done)
    | (simp; first | rw [foldl_sec] | rw [foldl_fst_sec] | split | (apply sec_congr <;> simp [secView_fns]; done))
    | with_reducible rfl

@[simp] theorem abandonWork_sec (s : State) (fn : Nat) :
    secOf (abandonWork s fn) = secOf s := by simp [abandonWork]

@[simp] theorem leaveActive_sec (s : State) (fn : Nat) :
    secOf (leaveActive s fn) = secOf s := by simp [leaveActive]

@[simp] theorem resetFnRegs_sec (s : State) (fn : Nat) :
    secOf (resetFnRegs s fn) = secOf s := by
  unfold resetFnRegs
  repeat' first
    | (simp [secView_fns]; done)
    | (simp [foldl_sec, foldl_fst_sec, secView_fns]; done)
    | intro _ _
    | intro _
    | rw [foldl_sec]
    | rw [foldl_fst_sec]
    | split
    | (apply sec_congr <;> simp [secView_fns]; done)
    | (simp; first | rw [foldl_sec] | rw [foldl_fst_sec] | split | (apply sec_congr <;> simp [secView_fns]; done))
    | with_reducible rfl

@[simp] theorem dropLayers_sec (s : State) (fn : Nat) :
    secOf (dropLayers s fn) = secOf s := by simp [dropLayers, foldl_sec]

@[simp] theorem runCreate_sec (s : State) (f : Flight) :
    secOf (runCreate s f) = secOf s := by
  have drop_sec : ∀ (s2 : State) (f : Fabric), secOf { s2 with fab := f } = secOf s2 := fun _ _ => rfl
  unfold runCreate
  simp [drop_sec]
  rw [foldl_sec] <;> simp

@[simp] theorem runQuiesce_sec (s : State) (f : Flight) :
    secOf (runQuiesce s f) = secOf s := by simp [runQuiesce]

@[simp] theorem clearEngines_sec (s : State) (fn : Nat) :
    secOf (clearEngines s fn) = secOf s := by
  unfold clearEngines
  apply sec_congr <;> simp [secView_fns]

@[simp] theorem endSriov_sec (s : State) (p : Nat) :
    secOf (endSriov s p) = secOf s := by simp [endSriov, foldl_sec]

/-! ### Time -/

@[simp] theorem setSource_sec (s : State) (src : Nat) :
    secOf (setSource s src) = secOf s := by
  unfold setSource; dsimp only
  split <;> first | rfl | (apply sec_congr <;> simp [secView_fns])

/-! ### Reset -/

@[simp] theorem notice_sec (s : State) (isl : Nat) :
    secOf (notice s isl) = secOf s := by simp [notice, foldl_sec]

@[simp] theorem endFlights_sec (s : State) (isl : Nat) :
    secOf (endFlights s isl) = secOf s := by simp [endFlights]

@[simp] theorem resetHost_sec (s : State) :
    secOf (resetHost s) = secOf s := by
  unfold resetHost
  repeat' first
    | (simp [secView_fns]; done)
    | (simp [foldl_sec, foldl_fst_sec, secView_fns]; done)
    | intro _ _
    | intro _
    | rw [foldl_sec]
    | rw [foldl_fst_sec]
    | split
    | (apply sec_congr <;> simp [secView_fns]; done)
    | (simp; first | rw [foldl_sec] | rw [foldl_fst_sec] | split | (apply sec_congr <;> simp [secView_fns]; done))
    | with_reducible rfl

@[simp] theorem endLeaves_sec (s : State) (status : Nat) :
    secOf (endLeaves s status) = secOf s := by
  unfold endLeaves
  repeat' first
    | (simp [foldl_sec, foldl_fst_sec, secView_fns]; done)
    | intro _ _
    | rw [foldl_sec]
    | split

@[simp] theorem resetFabric_sec (s : State) :
    secOf (resetFabric s) = secOf s := by
  unfold resetFabric
  apply sec_congr <;> simp [secView_fns]

@[simp] theorem resetMantle_sec (s : State) (isl : Nat) (relo : Bool) :
    secOf (resetMantle s isl relo) = secOf s := by
  have mid_sec : ∀ (s1 : State) (l : Tbl Slot) (m : Media), secOf { s1 with slots := l, media := m } = secOf s1 :=
    fun _ _ _ => rfl
  have heads_sec : ∀ (hs : List Nat), secOf (hs.foldl (fun s h => s.modHead h fun d =>
      { hpd := d.hpd, sinkRate := d.sinkRate, sinkLanes := d.sinkLanes }) s) = secOf s :=
    fun hs => by rw [foldl_sec]; exact fun _ _ => rfl
  unfold resetMantle
  dsimp only
  split
  · rw [foldl_sec _ (by simp), foldl_sec _ (by simp), mid_sec, heads_sec]
  · rw [foldl_sec _ (by simp), mid_sec, heads_sec]

@[simp] theorem endBindings_sec (s : State) :
    secOf (endBindings s) = secOf s := by simp [endBindings]

@[simp] theorem chapterReset_sec (s : State) (isl : Nat) (relo : Bool) :
    secOf (chapterReset s isl relo) = secOf s := by simp [chapterReset]

@[simp] theorem resetStep_sec (s : State) (isl : Nat) (relo : Bool) :
    secOf (resetStep s isl relo) = secOf s := by simp [resetStep]

@[simp] theorem chapterRelease_sec (s : State) (isl : Nat) :
    secOf (chapterRelease s isl) = secOf s := by simp [chapterRelease, foldl_sec]

@[simp] theorem release_sec (s : State) (isl : Nat) :
    secOf (release s isl) = secOf s := by simp [release]

@[simp] theorem watchWrite_sec (s : State) (fn : Nat) (k : State → State) (hk : ∀ s, secOf (k s) = secOf s) :
    secOf (watchWrite s fn k) = secOf s := by simp [watchWrite, hk]

/-! ### Power -/

@[simp] theorem powerOff_sec (s : State) (isl : Nat) :
    secOf (powerOff s isl) = secOf s := by simp [powerOff]

@[simp] theorem powerAnswer_sec (s : State) (fn : Nat) (st : Nat) :
    secOf (powerAnswer s fn st) = secOf s := rfl

@[simp] theorem endRetReq_sec (s : State) (isl : Nat) :
    secOf (endRetReq s isl) = secOf s := by
  unfold endRetReq
  split <;> simp

@[simp] theorem setPower_sec (s : State) (fn : Nat) (isl : Nat) (st : Nat) :
    secOf (setPower s fn isl st) = secOf s := by simp [setPower]

@[simp] theorem railBad_sec (s : State) (r : Nat) :
    secOf (railBad s r) = secOf s := by simp [railBad]

@[simp] theorem readTemps_sec (s : State) (temps : Vector Int 24) :
    secOf (readTemps s temps) = secOf s := rfl

@[simp] theorem thermalStep_sec (floor : Nat) (s : State) (isl : Nat) :
    secOf (thermalStep floor s isl) = secOf s := by simp [thermalStep]

@[simp] theorem writeRecord_sec (s : State) :
    secOf (writeRecord s) = secOf s := by
  unfold writeRecord
  repeat' first
    | (simp [secView_fns]; done)
    | (simp [foldl_sec, foldl_fst_sec, secView_fns]; done)
    | intro _ _
    | intro _
    | rw [foldl_sec]
    | rw [foldl_fst_sec]
    | split
    | (apply sec_congr <;> simp [secView_fns]; done)
    | (simp; first | rw [foldl_sec] | rw [foldl_fst_sec] | split | (apply sec_congr <;> simp [secView_fns]; done))
    | with_reducible rfl

@[simp] theorem ageStep_sec (delays : List Nat) (s : State) (isl : Nat) :
    secOf (ageStep delays s isl) = secOf s := by simp [ageStep]

@[simp] theorem smbus_sec (s : State) (pecOk : Bool) (cmd : Nat) (k : State → State) (hk : ∀ s, secOf (k s) = secOf s) :
    secOf (smbus s pecOk cmd k) = secOf s := by simp [smbus, hk]

/-! ### Startup -/

@[simp] theorem bootFailed_sec (s : State) (err : Nat) :
    secOf (bootFailed s err) = secOf s := by
  unfold bootFailed
  repeat' first
    | (simp [secView_fns]; done)
    | (simp [foldl_sec, foldl_fst_sec, secView_fns]; done)
    | intro _ _
    | intro _
    | rw [foldl_sec]
    | rw [foldl_fst_sec]
    | split
    | (apply sec_congr <;> simp [secView_fns]; done)
    | (simp; first | rw [foldl_sec] | rw [foldl_fst_sec] | split | (apply sec_congr <;> simp [secView_fns]; done))
    | with_reducible rfl

@[simp] theorem releaseLantern_sec (s : State) :
    secOf (releaseLantern s) = secOf s := by
  unfold releaseLantern
  dsimp only
  split
  · rfl
  · split
    · simp
    · split
      · simp
      · rfl

@[simp] theorem setupPf_sec (im : Image) (s : State) (pf : Nat) :
    secOf (setupPf im s pf) = secOf s := by simp [setupPf]

@[simp] theorem hostRelease_sec (s : State) :
    secOf (hostRelease s) = secOf s := by
  unfold hostRelease
  repeat' first
    | (simp [secView_fns]; done)
    | (simp [foldl_sec, foldl_fst_sec, secView_fns]; done)
    | intro _ _
    | intro _
    | rw [foldl_sec]
    | rw [foldl_fst_sec]
    | split
    | (apply sec_congr <;> simp [secView_fns]; done)
    | (simp; first | rw [foldl_sec] | rw [foldl_fst_sec] | split | (apply sec_congr <;> simp [secView_fns]; done))
    | with_reducible rfl

@[simp] theorem tryHostRelease_sec (s : State) :
    secOf (tryHostRelease s) = secOf s := by simp [tryHostRelease]

@[simp] theorem railReached_sec (s : State) (r : Nat) :
    secOf (railReached s r) = secOf s := by
  unfold railReached
  repeat' first
    | (simp [secView_fns]; done)
    | (simp [foldl_sec, foldl_fst_sec, secView_fns]; done)
    | intro _ _
    | intro _
    | rw [foldl_sec]
    | rw [foldl_fst_sec]
    | split
    | (apply sec_congr <;> simp [secView_fns]; done)
    | (simp; first | rw [foldl_sec] | rw [foldl_fst_sec] | split | (apply sec_congr <;> simp [secView_fns]; done))
    | with_reducible rfl

@[simp] theorem loadAges_sec (s : State) (ages : Option (Vector AgeRec 16)) :
    secOf (loadAges s ages) = secOf s := by
  unfold loadAges
  repeat' first
    | (simp [secView_fns]; done)
    | (simp [foldl_sec, foldl_fst_sec, secView_fns]; done)
    | intro _ _
    | intro _
    | rw [foldl_sec]
    | rw [foldl_fst_sec]
    | split
    | (apply sec_congr <;> simp [secView_fns]; done)
    | (simp; first | rw [foldl_sec] | rw [foldl_fst_sec] | split | (apply sec_congr <;> simp [secView_fns]; done))
    | with_reducible rfl

@[simp] theorem startSafety_sec (s : State) (x : SafetyHeadCfg) :
    secOf (startSafety s x) = secOf s := by simp [startSafety]

@[simp] theorem startAlarmPath_sec (im : Image) (s : State) :
    secOf (startAlarmPath im s) = secOf s := by simp [startAlarmPath, foldl_sec]

/-! ### Registers -/

@[simp] theorem msixWrite_sec (s : State) (fn : Nat) (v : Nat) (k : Nat) (w : Word) :
    secOf (msixWrite s fn v k w) = secOf s := by simp [msixWrite]

@[simp] theorem safeLoadWrite_sec (s : State) (fn : Nat) (g : SafeLoad → SafeLoad) :
    secOf (safeLoadWrite s fn g) = secOf s := by simp [safeLoadWrite]

theorem mbGate_sec {s s1 : State} {fn m : Nat} (h : s.mbGate fn m = some s1) : secOf s1 = secOf s := by
  unfold State.mbGate at h
  split at h
  · cases h; rfl
  · split at h
    · cases h; rfl
    · split at h
      · cases h; simp
      · cases h

@[simp] theorem mailboxWord_sec (s : State) (fn : Nat) (m : Nat) (k : Nat) (w : Word) :
    secOf (mailboxWord s fn m k w) = secOf s := by
  unfold mailboxWord
  split
  · rename_i h; exact mbGate_sec h
  · split <;> simp

@[simp] theorem fabRegWrite_sec (s : State) (off : Nat) (w : Word) :
    secOf (fabRegWrite s off w) = secOf s := by
  unfold fabRegWrite
  repeat' first
    | (simp [secView_fns]; done)
    | split

@[simp] theorem memRegWrite_sec (s : State) (off : Nat) (w : Word) :
    secOf (memRegWrite s off w) = secOf s := by
  unfold memRegWrite
  repeat' first
    | (simp [secView_fns]; done)
    | split

@[simp] theorem chdRegWrite_sec (s : State) (off : Nat) (w : Word) :
    secOf (chdRegWrite s off w) = secOf s := by simp [chdRegWrite]

@[simp] theorem netWrite_sec (s : State) (off : Nat) (w : Word) :
    secOf (netWrite s off w) = secOf s := by
  unfold netWrite
  split <;> simp

@[simp] theorem audWrite_sec (s : State) (off : Nat) (w : Word) :
    secOf (audWrite s off w) = secOf s := by
  unfold audWrite
  repeat' first
    | (simp [secView_fns]; done)
    | split

@[simp] theorem wchWrite_sec (s : State) (off : Nat) (w : Word) :
    secOf (wchWrite s off w) = secOf s := by simp [wchWrite]

@[simp] theorem checkWrite_sec (s : State) (fn : Nat) (h : Nat) (k : Nat) (r : Nat) (w : Word) :
    secOf (checkWrite s fn h k r w) = secOf s := by
  unfold checkWrite; dsimp only
  (repeat' split) <;> simp

@[simp] theorem mntWrite_sec (s : State) (fn : Nat) (off : Nat) (w : Word) :
    secOf (mntWrite s fn off w) = secOf s := by simp [mntWrite]

@[simp] theorem groupWrite_sec (s : State) (fn : Nat) (grp : Nat) (isUp : Bool) (k : State → State) (hk : ∀ s, secOf (k s) = secOf s) :
    secOf (groupWrite s fn grp isUp k) = secOf s := by simp [groupWrite, hk]

end Sys2Proof.Machine
end

