-- ==== Sys2Proof/WellFormed.lean ====
section
/-! DEFINITION. When a command is well formed: its operands lie in the ranges that the tables of the spec give them.
A command outside them stands for no event at the block's pins or rings. The meanings are total and do not rest on this:
it says which commands a sender may send. -/

namespace Sys2Proof

/-- A register access is 1, 2 or 4 bytes wide and lies in a base address register's 32 bits (R10, R11). -/
def Access.wellFormed (a : Access) : Bool := (a.size = 1 || a.size = 2 || a.size = 4) && a.off + a.size ≤ 2 ^ 32

/-- A command holds the words of the slots it consumes, sixteen a slot: CHAIN of them (bits 31 to 24 of DW0), or one for
a CHAIN that is no legal one (R68, R70). -/
def Cmd.wellFormed (c : Cmd) : Bool :=
  let n := (c.words.getD 0 0).toNat / 2 ^ 24
  c.words.length = 16 * (if 1 ≤ n && n ≤ 16 then n else 1)

/-- The fields of an Ethernet frame fit their widths, and its payload its length (R411, R423, R424). -/
def EthFrame.wellFormed (f : EthFrame) : Bool :=
  f.dst < 2 ^ 48 && f.vid < 4096 && (f.rtag.getD 0) < 2 ^ 16 && f.payload.length + 18 ≤ f.len && (f.macsec || !f.macsecOk)

/-- A CAN FD frame: an 11-bit or 29-bit identifier, at most 64 bytes (R433, R435). -/
def CanFrame.wellFormed (f : CanFrame) : Bool := f.id < (if f.ide then 2 ^ 29 else 2 ^ 11) && f.payload.length ≤ 64

/-- A memory request names one of the eight channels of 16 GiB and at most 64 bytes of one row (R350, Table 08.1). -/
def MemReq.wellFormed (r : MemReq) : Bool := r.addr < 2 ^ 37 && r.data.length ≤ 64 && (r.write || (r.data = [] && !r.wback)) && r.source < 256

/-- Measured delays are 8-bit taps, and a channel has some capacity (R337-R341). -/
def TrainResult.wellFormed (r : TrainResult) : Bool :=
  0 < r.capacity && r.rd.toList.all (fun l => l ≠ [] && l.length ≤ 16) && r.wr.toList.all fun l => l ≠ [] && l.length ≤ 16

/-- An access entry is listed at most once, under a key below `n`. -/
def keysBelow {α : Type} (t : Tbl α) (n : Nat) : Bool :=
  t.all (fun e => e.1 < n) && (t.map fun e => e.1).Nodup

/-- A 32-bit sample. -/
def sample32 (v : Int) : Bool := -2147483648 ≤ v && v ≤ 2147483647

/-- The parts of the configuration image lie in their tables (Table 06.7, R433, R599, R643). -/
def Image.wellFormed (m : Image) : Bool :=
  keysBelow m.mapping 512 && keysBelow m.signals 256 && keysBelow m.rules 128 && keysBelow m.vfPort 64 &&
  keysBelow m.e9Filters 1024 && keysBelow m.recoveryHist 256 && keysBelow m.haptics 8 && keysBelow m.scObjects 24 &&
  m.canNominal.toList.all (fun r => 125 ≤ r && r ≤ 1000) && m.canData.toList.all (fun r => r ≤ 8000) &&
  m.fallback.all (fun e => e.1 < 0x100000) && m.macsecReq.all (fun p => p < 8) && m.safetyHeads.length ≤ 4

/-- The operands of a command are in range. -/
def Instr.wellFormed : Instr → Bool
  | .registerWrite _ a => a.wellFormed
  | .islResetReq _ _ _ => true
  | .islandRelease _ _ => true
  | .dtLoRead _ _ => true
  | .dtSourceWrite _ _ _ => true
  | .timeBusRound _ => true
  | .sqDoorbell _ _ _ _ => true
  | .cqDoorbell _ _ _ _ => true
  | .queueEnable _ _ _ _ => true
  | .queueDisable _ _ _ _ => true
  | .featuresOk _ _ => true
  | .featureDecision _ _ => true
  | .waitFenceMet _ _ _ => true
  | .waitTimeout _ _ _ => true
  | .irqCoalesceTimeout _ _ _ => true
  | .nop _ c => c.wellFormed
  | .fenceSignal _ c => c.wellFormed
  | .fenceWait _ c => c.wellFormed
  | .vfCreate _ c => c.wellFormed
  | .vfQuiesce _ c => c.wellFormed
  | .quiesceTimeout _ _ => true
  | .quiesceComplete _ _ => true
  | .vfDestroy _ c => c.wellFormed
  | .vfRelease _ c => c.wellFormed
  | .poolQuery _ c => c.wellFormed
  | .partitionCreate _ c => c.wellFormed
  | .scrub _ c => c.wellFormed
  | .secureVfRequest _ c => c.wellFormed
  | .secureAuthTimeout _ _ => true
  | .flr _ _ => true
  | .pfFlr _ _ => true
  | .sriovVfDisable _ _ => true
  | .perstAssert _ _ => true
  | .perstDeassert _ _ => true
  | .partitionFillComplete _ _ => true
  | .headConfig _ c => c.wellFormed
  | .headConfigApply _ _ => true
  | .frameStart _ _ _ => true
  | .frameStartAbsent _ _ => true
  | .blankingStart _ _ _ => true
  | .latch _ _ => true
  | .linkTrainingResult _ _ _ => true
  | .linkTrainingTimeout _ _ => true
  | .hpdRise _ _ _ _ => true
  | .hpdUnplug _ _ => true
  | .irqHpd _ _ _ => true
  | .tailLine _ _ y ready fault => y < 4320 && ready ≤ 8192 && fault.toNat < 2 ^ 30
  | .underrunClr _ _ _ _ => true
  | .gammaDataWrite _ _ _ _ => true
  | .gammaCommit _ _ _ => true
  | .nightWrite _ _ _ _ => true
  | .pwmPeriodEnd _ _ => true
  | .auxStart _ _ _ => true
  | .auxReply _ _ _ d => d.length ≤ 16
  | .auxTimeout _ _ => true
  | .frameDtLoRead _ _ _ => true
  | .flip _ c => c.wellFormed
  | .flipTimeout _ _ => true
  | .layerFetch _ _ => true
  | .safetyListUpdate _ c => c.wellFormed
  | .storeScrub _ => true
  | .safetyLineRender _ _ y _ => y < 4320
  | .rendererRebuildDone _ _ _ => true
  | .wlHeartbeat _ _ _ => true
  | .takeoverTimeout _ => true
  | .wlConfirm _ _ _ => true
  | .handbackLimitExpiry _ => true
  | .telegramAccept _ _ payload _ => payload.length ≤ 9216
  | .signalStale _ _ => true
  | .ruleEvaluation _ => true
  | .toneChange _ => true
  | .ackinFall _ _ => true
  | .ackinPress _ _ => true
  | .ackinStuck _ _ => true
  | .ackinRelease _ _ => true
  | .wlAck _ _ _ => true
  | .hapticAlarmRepeat _ _ => true
  | .wlStandby _ _ _ => true
  | .gfxSubmit _ c => c.wellFormed
  | .computeSubmit _ c => c.wellFormed
  | .pipelineCompile _ c => c.wellFormed
  | .copy _ c => c.wellFormed
  | .sparseBind _ c => c.wellFormed
  | .submissionComplete _ _ => true
  | .waitMemMatch _ _ => true
  | .waitMemTimeout _ _ => true
  | .shareWindow _ => true
  | .deadlineEvaluation _ => true
  | .preemptSaveDone _ _ => true
  | .channelTrainingDone _ _ r => r.wellFormed
  | .wckOscTrack _ _ _ _ => true
  | .bankRefresh _ _ _ _ => true
  | .pageIdleClose _ _ _ => true
  | .fabricTimeout _ _ => true
  | .channelFreeze _ _ r => r.wellFormed
  | .chRecover _ _ _ _ => true
  | .autoRecoverExpiry _ _ => true
  | .cacheLineLost _ line => line < 2 ^ 30
  | .mpLostClr _ _ _ => true
  | .scrubStart _ _ => true
  | .scrubDone _ _ => true
  | .snufferBite _ _ => true
  | .slotCommit _ _ _ => true
  | .slotRoundBoundary _ _ => true
  | .hlAcquire _ _ _ _ => true
  | .hlRelease _ ini path _ => path ≠ .window || ini.val < 2
  | .hlTornClear _ ini path _ => path ≠ .window || ini.val < 2
  | .frzQdataRead _ _ _ => true
  | .csiPacket _ _ _ => true
  | .csiFrameStart _ _ _ => true
  | .csiLine _ _ _ px => px.length ≤ 65536
  | .csiFrameDone _ _ => true
  | .csiSignalLost _ _ => true
  | .cameraBind _ c => c.wellFormed
  | .mediaDecode _ c => c.wellFormed
  | .mediaPicture _ _ _ concealed => concealed < 2 ^ 32
  | .mediaEncode _ c => c.wellFormed
  | .mediaSlice _ _ _ _ nal => nal.length < 2 ^ 32
  | .ethFrameRx _ _ f => f.wellFormed
  | .ptpSyncRx _ _ _ _ _ => true
  | .ptpSyncTimeout _ _ => true
  | .ptpOffsetLoRead _ _ _ => true
  | .gclCommit _ _ _ => true
  | .gclTakeover _ _ => true
  | .gateIntervalEnd _ _ => true
  | .filterWrite _ _ _ _ _ => true
  | .sakInstall _ _ => true
  | .netTx _ c => c.wellFormed
  | .netRxPost _ c => c.wellFormed
  | .canFrameRx _ _ f => f.wellFormed
  | .canBusOff _ _ => true
  | .canBusOffRecovered _ _ => true
  | .sampleBoundary _ tdm conv =>
    keysBelow tdm 64 && keysBelow conv 64 && (tdm ++ conv).all fun e => sample32 e.2
  | .audioRoute _ c => c.wellFormed
  | .audioBankSwap _ c => c.wellFormed
  | .audioStream _ c => c.wellFormed
  | .safeLoadTrigger _ _ => true
  | .tdmFrameSync _ _ _ => true
  | .tdmSyncLost _ _ => true
  | .touchFrame _ _ b => b.length ≤ 7692
  | .panelLost _ _ => true
  | .scScan _ _ => true
  | .touchLongHold _ isObj index _ => isObj || index.val < 4
  | .maxHoldRecal _ isObj index _ => isObj || index.val < 4
  | .touchConfig _ c => c.wellFormed
  | .hapticPlay _ c => c.wellFormed
  | .hapticArm _ c => c.wellFormed
  | .htrigEdge _ _ _ => true
  | .bemfSenseWindow _ _ _ => true
  | .maxOnCut _ _ => true
  | .mainDriveEnd _ _ => true
  | .brakingEnd _ _ => true
  | .mailboxGo _ _ _ _ => true
  | .mailboxDoneClear _ _ _ => true
  | .info _ _ => true
  | .claim _ _ => true
  | .unclaim _ _ => true
  | .authBegin _ _ => true
  | .authSigR _ _ => true
  | .authSigS _ _ => true
  | .advBegin _ _ => true
  | .advSigR _ _ => true
  | .advSigS _ _ => true
  | .perfHoldEnd _ _ => true
  | .faultReport _ _ _ _ => true
  | .watchdogKick _ => true
  | .firmwareWatchdog _ => true
  | .wickEdge _ => true
  | .lockstepMismatch _ => true
  | .pwrReq _ _ _ => true
  | .retentionEnter _ _ => true
  | .retentionTimeout _ _ => true
  | .clockGatedWake _ _ => true
  | .thermalCheck _ temps => temps.toList.all fun v => -2048 ≤ v && v ≤ 2047
  | .thermalShutdown _ temps => temps.toList.all fun v => -2048 ≤ v && v ≤ 2047
  | .ageingCheck _ _ => true
  | .railStep _ _ mv => mv < 65536
  | .railReadyTimeout _ _ => true
  | .railCurrentRead _ _ => true
  | .standbyCycle _ => true
  | .standbyExit _ => true
  | .fltDtHiRead _ _ => true
  | .smbBootStat _ _ => true
  | .smbFltStat _ _ => true
  | .smbTempMax _ _ => true
  | .smbStandby _ _ => true
  | .smbRun _ _ => true
  | .smbAlertResponse _ => true
  | .railsGood _ => true
  | .porstAssert _ _ => true
  | .porstDeassert _ _ _ => true
  | .sramFillDone _ => true
  | .componentVerify _ _ _ _ => true
  | .imageLoad _ m => m.wellFormed
  | .pciePortReady _ _ => true
  | .bootLinkCheck _ _ => true
  | .vddAoLow _ => true
  | .pcieLinkUp _ port gen width => 1 ≤ gen.val && (width = 1 || width = 2 || width = 4 || width = 8 || width = 16) && port.val < 2
  | .sriovVfEnable _ _ n => n.val ≤ 62
  | .ethLinkChange _ _ _ _ => true
  | .canBusError _ _ _ _ => true
  | .controllerCycle _ _ arrivals _ => arrivals.all MemReq.wellFormed
  | .arbitrationDecision _ _ requests => requests.val.testBit 4 = false && requests.val.testBit 5 = false

end Sys2Proof
end

