-- ==== Sys2Proof/Tests/Slice0.lean ====
section
/-! SUPPORT. Small checks of the model on fixed values: what WellFormed refuses, single commands on small states with
results worked out from the spec, and for every statement a state and operands that meet its hypotheses. -/

open Sys2Proof Sys2Proof.Machine

namespace Sys2Proof.Tests

set_option maxRecDepth 100000

/-! ### Small states -/

/-- A grant of something of everything. -/
def grant0 : Grant :=
  { queues := 8, fences := 64, chdShare := 8, chdCtx := 4, headOwn := 0x0FF, layerRight := 0x0FF, vectors := 4, codec := 2
    csiMask := 0xFF, hapticMask := 0xFF, tpMask := 0xF, scMask := 0xFFFFFF, slotMask := 2 ^ 64 - 1, ainMask := 2 ^ 124 - 1
    aoutMask := 2 ^ 96 - 1, netQueues := 2, filters := 16, mpMask := 2 }

/-- An image whose safety guest is FN 2; one mapping entry, one signal, one rule. -/
def entry0 : MapEntry :=
  { valid := true, source := 0, ide := false, signal := 7, id := 0x123, byteOff := 0, bitOff := 0, width := 8, signed := false
    bigEndian := false, e2e := false, scaleNum := 1, scaleShift := 0, offset := 0, crcOff := 0, seqOff := 0, seqWidth := 0
    maxStep := 1, dataId := 0 }
def rule0 : AlarmRule :=
  { signal := 7, test := 0, priority := 1, latching := false, staleAct := 0, almout := true, ackMask := 1, set := 100, clear := 90
    onDelay := 0, effect := 1, channel := 0 }
def image0 : Image :=
  { version := 1, safetyFn := 2, takeoverMs := 250, handbackMs := 5000, bootPageMs := 2000, sysAckMask := 1
    tones := Vector.replicate 4 ⟨1000, 1000000, 100, 100⟩, safetyHeads := [], fallback := [], mapping := [(5, entry0)]
    signals := [(7, 100)], rules := [(0, rule0)], alarmRoutes := [], alarmTdm := [], vfPort := [(2, false), (3, false), (4, true), (5, false)]
    pfGrant := #v[{}, {}], pfWrite := #v[[0, 1, 2, 3, 4, 5, 6, 7, 8, 9, 10], []], secureKeys := [], autoRecoverMs := 10
    standbySmbus := true, wakeMask := 1, throttleC := 105, dtSource := 0, canListenOnly := Vector.replicate 2 false
    canNominal := Vector.replicate 2 500, canData := Vector.replicate 2 2000, pcieSris := Vector.replicate 2 false
    macsecReq := [7], e9Filters := [], recoveryHist := [], haptics := [], scObjects := [] }

/-- Queue q of engine q, and queue 15 for management, with commands waiting. -/
def queue0 (e : Nat) : Queue := { sqLog2 := 6, cqLog2 := 6, engine := e, enable := true, prod := 40 }
def queues0 (fn : Nat) : Tbl Queue := ([0, 1, 2, 3, 4, 5, 6, 15].map fun e => (16 * fn + e, queue0 e))

/-- Every island runs, an image is loaded, both ports are ready; FN 2 is the secure safety guest and FN 3 a created VF. -/
def base : State := { State.reset with
  dt := 1000000000
  isl := (List.range 16).map fun i => (i, { Island.init i with live := true })
  ports := [(0, { perst := false, link := true, ready := true, since := some 0 }), (1, { perst := false, link := true, ready := true })]
  img := some image0
  flt := { coresUp := true, pin := false, kicked := true, kickAt := 990 }
  wl := { mode := 0, running := true, evaluated := true, hbFirst := false, hbLast := 5, hbAt := 990000000, gen := 3 }
  boot := { porst := false, rails := true, filled := true, lantern := true, stage := 4, comp := 4, loadAt := some 0, hostAt := some 0, memRdy := true }
  fns := [(0, { Func.init 0 with grant := { grant0 with headOwn := 0 }, accept := 2 ^ 32 - 1, featOk := true }),
    (2, { state := 2, secure := true, sriov := true, grant := { grant0 with fn := 2 }, accept := 2 ^ 32 - 1, featOk := true, qids := [32, 33, 34, 35, 36, 37, 38, 39] }),
    (3, { state := 1, sriov := true, grant := { fn := 3 } }), (5, { sriov := true })]
  queues := queues0 0 ++ queues0 2
  safe := [(0, { safety := true, partner := 1 }), (1, { safety := true, partner := 0 })]
  heads := [(0, { mode := 1, role := 1, running := true, link := 3, hpd := true })]
  chand := { ctxs := [(0, { state := 2, fn := 2, locl := 0 })] }
  mem := { codeOk := true, chans := (List.range 4).map fun i => (i, { state := 2, cap := 16 })
           parts := [(0, { state := 2, mask := 1, holder := 0, creator := 0, size := 8, base := 1 }),
             (1, { state := 2, mask := 1, holder := 2, creator := 0, size := 8, base := 9 })] } }

/-- A command of an opcode on queue q of a function, CHAIN of one or more slots, with the words from DW10 on. -/
def cmd (fn : Fin 64) (q : Fin 16) (op chain : Nat) (pay : List Nat) : Cmd :=
  { fn := fn, q := q, data := []
    words := (([op + 2 ^ 24 * chain, 77, 0, 0, 0, 0, 0, 0, 0, 0] ++ pay ++ List.replicate (16 * chain - 10 - pay.length) 0).map
      (BitVec.ofNat 32)) }

theorem test_base_runs : (base.up 2 && base.reach 0 && base.reach 2 && base.watchOpen 0 && base.guestOpen 2 && base.smbOpen) = true := by
  decide

/-! ### Commands that run (the hypothesis of every statement about a ring command) -/

def cNop : Cmd := cmd 2 0 0x01 1 []
def cSignal : Cmd := cmd 2 0 0x10 1 []
def cWait : Cmd := cmd 2 0 0x11 1 []
def cCreate : Cmd := cmd 0 15 0xF00 2 [5 + 2 ^ 16, 0, 0, 0, 1, 0]
def cQuiesce : Cmd := cmd 0 15 0xF01 1 [2]
def cDestroy : Cmd := cmd 0 15 0xF02 1 [3]
def cPool : Cmd := cmd 0 15 0xF04 1 [0x1000, 0]
def cPartition : Cmd := cmd 0 15 0xF05 1 [5 + 2 ^ 8, 16]
def cRemove : Cmd := cmd 0 15 0xF05 1 [0, 0]
def cScrub : Cmd := cmd 0 15 0xF06 1 [0, 0, 256, 0, 0, 0]
def cSecure : Cmd := cmd 0 15 0xF07 1 [3]
def cHead : Cmd := cmd 2 2 0x201 1 [1 * 2 ^ 8 + 1 * 2 ^ 16, 0, 0]
def cFlip : Cmd := cmd 2 2 0x200 1 [0, 0, 0]
def cList : Cmd := { cmd 2 2 0x202 1 [4 * 2 ^ 4, 0, 1, (crc32c (List.replicate 8 0)), 0, 0] with data := List.replicate 8 0 }
def cGfx : Cmd := cmd 2 1 0x100 1 [0, 0, 0, 4]
def cCompute : Cmd := cmd 2 1 0x101 1 [0, 0, 0, 4]
def cPipe : Cmd := cmd 2 1 0x102 1 [1, 1, 0, 0]
def cCopy : Cmd := cmd 2 1 0x103 1 [0, 0, 4096, 0, 4, 0]
def cSparse : Cmd := cmd 2 1 0x104 2 [0x1000, 0, 0x2000, 0, 0, 0, 0x3000, 0, 1]
def cBind : Cmd := cmd 2 3 0x302 1 [1 + 2 ^ 4 + 2 ^ 5 + 2 * 2 ^ 16, 16 + 2 ^ 16 * 16, 0, 0, 64, 0]
def cDecode : Cmd := cmd 2 3 0x300 2 [2 ^ 4, 0x1000, 0, 4, 0, 0, 0, 0, 64 + 2 ^ 16 * 64, 4 + 2 ^ 8 * 30, 4096]
def cEncode : Cmd := cmd 2 3 0x301 2 [2 ^ 4, 0x1000, 0, 64, 0, 0, 0, 0, 64 + 2 ^ 16 * 64, 30 + 2 ^ 8, 100, 0, 0, 1]
def cTx : Cmd := cmd 2 6 0x600 1 [0, 0, 60, 0]
def cPost : Cmd := cmd 2 6 0x601 1 [0, 0, 9212, 0]
def cRoute : Cmd := cmd 2 4 0x400 1 [1, 0, 0, 1]
def cSwap : Cmd := cmd 2 4 0x401 1 [0, 0, 0x80000000, 0]
def cStream : Cmd := cmd 2 4 0x402 2 [2]
def cTouch : Cmd := cmd 2 5 0x502 2 [2 ^ 7, 4 + 2 ^ 8 * 4, 1, 1 + 2 ^ 16 * 2 + 2 ^ 24, 0, 4]
def cPlay : Cmd := cmd 2 5 0x500 1 [1 * 2 ^ 3]
def cArm : Cmd := cmd 2 5 0x501 1 [2 ^ 3 + 2 ^ 4]

theorem witness_general_commands_run : (base.at 0).runs specNop cNop = true ∧ (base.at 0).runs specFenceSignal cSignal = true ∧
    (base.at 0).runs specFenceWait cWait = true := by decide
theorem witness_VfCreateTakesWhatItNames_runs : (base.at 0).runs specCreate cCreate = true := by decide
theorem witness_vfQuiesce_runs : (base.at 0).runs specQuiesce cQuiesce = true := by decide
theorem witness_vfDestroy_runs : (base.at 0).runs specDestroy cDestroy = true ∧
  ((base.modFn 3 fun f => { f with state := 5 }).at 0).runs specRelease { cDestroy with words := [0x1000F03#32] ++ cDestroy.words.drop 1} = true := by decide
theorem witness_pool_runs : (base.at 0).runs specPool cPool = true := by decide
theorem witness_partition_runs : (base.at 0).runs specPartition cPartition = true ∧ (base.at 0).runs specPartition cRemove = true := by decide
theorem witness_scrub_runs : (base.at 0).runs specScrub cScrub = true := by decide
theorem witness_secure_runs : (base.at 0).runs specSecure cSecure = true := by decide
theorem witness_head_runs : (base.at 0).runs specHeadConfig cHead = true := by decide
theorem witness_flip_runs : (base.at 0).runs specFlip cFlip = true := by decide
theorem witness_list_runs : (base.at 0).runs specListUpdate cList = true := by decide
theorem witness_gfx_runs : (base.at 0).runs specGfxSubmit cGfx = true := by decide
theorem witness_compute_runs : (base.at 0).runs specComputeSubmit cCompute = true := by decide
theorem witness_pipe_runs : (base.at 0).runs specPipeline cPipe = true := by decide
theorem witness_copy_runs : (base.at 0).runs specCopy cCopy = true := by decide
theorem witness_sparse_runs : (base.at 0).runs specSparse cSparse = true := by decide
theorem witness_bind_runs : (base.at 0).runs specCameraBind cBind = true := by decide
theorem witness_decode_runs : (base.at 0).runs specDecode cDecode = true := by decide
theorem witness_encode_runs : (base.at 0).runs specEncode cEncode = true := by decide
theorem witness_tx_runs : (base.at 0).runs specNetTx cTx = true := by decide
theorem witness_post_runs : (base.at 0).runs specNetRxPost cPost = true := by decide
theorem witness_route_runs : (base.at 0).runs specRoute cRoute = true := by decide
theorem witness_swap_runs : (base.at 0).runs specSwap cSwap = true := by decide
theorem witness_stream_runs : (base.at 0).runs specStream cStream = true := by decide
theorem witness_touch_runs : (base.at 0).runs specTouchConfig cTouch = true := by decide
theorem witness_play_runs : (base.at 0).runs specHapticPlay cPlay = true := by decide
theorem witness_arm_runs : (base.at 0).runs specHapticArm cArm = true := by decide

/-! ### States that meet the hypotheses of the statements, clause by clause -/

theorem witness_StepRunsTheFrontCommand : State.reset.pending = [] := by decide
theorem witness_DeviceTimeNeverRunsBackward : (∃ s', exec (.railsGood 5) State.reset = .next s') ∧
    State.reset.boot.porst = true ∧ ∃ s', exec (.porstDeassert 5 false 0) State.reset = .next s' :=
  ⟨⟨_, rfl⟩, by decide, _, rfl⟩
theorem witness_MemoriesStayInOneForm : (∃ s', step base = .next s') ∧ base.memOk = true := ⟨⟨_, rfl⟩, by decide⟩
theorem witness_IslandTimesStayWithinFourNs : (∃ s', step base = .next s') ∧ base.skewOk :=
  ⟨⟨_, rfl⟩, fun _ => ⟨(by decide : (-4 : Int) ≤ 0), (by decide : (0 : Int) ≤ 4)⟩⟩
theorem witness_LifecycleMovesOnlyAtPorstDeassert : (∃ s', exec (.railsGood 5) base = .next s') ∧
    State.reset.boot.porst = true ∧ ∃ s', exec (.porstDeassert 5 false 0) State.reset = .next s' :=
  ⟨⟨_, rfl⟩, by decide, _, rfl⟩
theorem witness_OnlyAuthenticationMakesAFunctionSecure : (∃ s', exec (.railsGood 5) base = .next s') ∧ (base.fnc 3).secure = false :=
  ⟨⟨_, rfl⟩, by decide⟩
theorem witness_DtReadGivesOneConsistentValue : base.readsWatch 0 = true ∧ base.readsWatch 127 = true ∧ (127 ≠ 0) ∧
    ∃ s1 s2, exec (.dtLoRead 7 0) base = .next s1 ∧ exec (.dtLoRead 8 127) s1 = .next s2 :=
  ⟨by decide, by decide, by decide, _, _, rfl, rfl⟩
theorem witness_SourceChangesAtTheNextRound : (base.readsWatch 64 = true ∧ base.isSecure 64 = true) ∧
    (base.readsWatch 0 = true ∧ base.isSecure 0 = false) ∧ base.boot.porst = false := by decide

/-- A claim of FN 2 on island 10. -/
def claimed : State := base.modLan fun l => { l with claims := [(0, ⟨10, true, 2⟩)] }
def sounding : State := base.modWl fun w => { w with tones := [(3, { on := true })] }
def plays : State := base.modHap 7 fun x => { x with state := 1, cur := some { n := 1, prio := 7, gain := 255, alarm := true } }
def inReset (s : State) (i : Nat) : State := s.modIsl i fun x => { x with inReset := true, resetAt := 1000000000 - 1000 }

theorem witness_IslandResetRequestsAndRelease : base.watchOpen 0 = true ∧ (1 < 2) ∧ (claimed.watchOpen 0 = true ∧ claimed.heldBack 0 10 = true) ∧
    ((inReset base 5).watchOpen 0 = true ∧ (inReset base 5).heldBack 0 5 = false ∧ ((inReset base 5).island 5).inReset = true) ∧
    (sounding.watchOpen 0 = true ∧ sounding.heldBack 0 15 = false ∧ (sounding.island 15).live = true ∧ sounding.toneSounds = true) ∧
    (plays.watchOpen 0 = true ∧ plays.heldBack 0 14 = false ∧ (plays.island 14).live = true ∧ plays.hapticAlarmPlays = true) ∧
    (base.heldBack 0 5 = false ∧ (base.island 5).inReset = false ∧ (base.island 5).live = true ∧ (base.island 5).power ≠ 3) ∧
    ((inReset base 5).island 5).power ≠ 3 ∧ ((inReset base 5).island 5).resetAt + 1000 ≤ max (inReset base 5).dt 0 ∧
    (inReset base 5).railHolds 5 = true := by decide
theorem witness_RegisterAccessRules : (2 ≠ 4) ∧ (base.barOpen 2 = true ∧ base.barOpen 4 = false) ∧ base.headOpen 0x41 11 false = true ∧
    ((9, 1) ∈ [(1, 3), (5, 12), (6, 13), (7, 14), (8, 15), (9, 1)] ∧ ownRow 9 0xFFFFC = false ∧ base.reach 1 = true ∧
      base.up 1 = true ∧ base.mayWrite 1 9 = false) ∧
    (base.reach 2 = true ∧ (base.fnc 2).lost = 0 ∧ (base.fnc 2).featOk = true ∧ 7 < base.nQueues 2) ∧
    ((base.que 2 6).enable = true ∧ (16 ∈ [0, 4, 8, 12, 16]) ∧ (0x7FFFFFFF#32).getLsbD 31 = false) ∧ (base.que 2 7).enable = false := by
  decide
theorem witness_SubmissionDoorbellRules : base.reach 2 = true ∧ (2 ≤ 2 ∧ 8 ≤ 8) ∧ (0 < 8) ∧ (base.que 2 0).enable = true ∧ (base.fnc 2).state = 2 ∧ base.accepts 2 1 = true ∧
    (fld 0x10000#32 0 16 ≠ (base.que 2 0).prod ∧ fld 0x10000#32 0 16 < 64 ∧ base.doorbellSlots 2 0 0 true = 64) ∧
    (fld 40#32 0 16 = (base.que 2 0).prod ∧ (40#32).getLsbD 16 = (base.que 2 0).prodGen) ∧
    (64 ≤ fld 64#32 0 16) ∧ 64 < base.doorbellSlots 2 0 1 true ∧
    (base.que 2 7).enable = false ∧ base.reach 3 = true ∧ (base.fnc 3).state ≠ 2 := by decide

/-- The completion ring of queue 0 of FN 2 with entries written, and one completion waiting. -/
def ring (w : Nat) (h : List Held) : State := base.modQ 2 0 fun u => { u with cqW := w, held := h }
def held0 : Held := ⟨77, 0, 5, [0, 0, 0, 0], false⟩

theorem witness_CompletionDoorbellRules : base.reach 2 = true ∧ (2 ≤ 63 ∧ 8 ≤ 15) ∧ (7 < 8) ∧
    (((ring 3 []).que 2 0).enable = true ∧ ((ring 3 []).fnc 2).state = 2 ∧ ((ring 3 []).fnc 2).lost = 0 ∧
      (ring 3 []).freedEntries 2 0 3 false = 3 ∧ ((ring 3 []).que 2 0).cqW = 3) ∧
    ((ring 63 [held0]).freedEntries 2 0 1 false = 1 ∧ ((ring 63 [held0]).que 2 0).cqW ≤ 2 ^ 6 - 1 ∧
      ((ring 63 [held0]).que 2 0).held = [held0] ∧ ((ring 63 [held0]).fnc 2).lost = 0) ∧
    (0 = (base.que 2 0).cqCons ∧ false = (base.que 2 0).cqGen) ∧ (2 ^ 6 ≤ 64) ∧ 3 < (ring 3 []).freedEntries 2 0 4 false ∧
    (base.que 2 7).enable = false := by decide

/-- Q_CFG with ENABLE and rings of 16 and 8192 entries; and with a submission ring of 8. -/
def cfgOk : Word := 0x800000D4
def cfgBad : Word := 0x800000D3

theorem witness_QueueEnableAndDisable : base.reach 2 = true ∧ 7 < base.nQueues 2 ∧ cfgOk.getLsbD 31 = true ∧ (base.que 2 7).enable = false ∧
    base.enableOk 2 7 ((base.que 2 7).withCfg cfgOk) = true ∧ (base.fnc 2).lost = 0 ∧
    base.enableOk 2 7 ((base.que 2 7).withCfg cfgBad) = false ∧ (cfgOk - 0x80000000).getLsbD 31 = false ∧ (base.que 2 0).enable = true := by
  decide

def deciding (fn accept : Nat) : State := base.modFn fn fun f => { f with deciding := true, featOk := false, accept := accept }

theorem witness_FeatureNegotiation : base.reach 5 = true ∧ (base.fnc 5).deciding = false ∧ (base.fnc 5).featOk = false ∧
    (((deciding 2 1).fnc 2).deciding = true ∧ ((deciding 2 1).fnc 2).state ≠ 1 ∧ (deciding 2 1).featReason 2 = 0) ∧
    (((deciding 3 1).fnc 3).state = 1 ∧ (deciding 3 1).featReason 3 = 0) ∧
    (deciding 3 0).featReason 3 = 2 ∧ (deciding 3 0x80001).featReason 3 = 1 ∧ (deciding 2 0x91).featReason 2 = 3 := by decide

/-- A command of FN 2 whose word 2 (WAIT) and words 6, 8 (SIGNAL) are given. -/
def fenced (wait waitValue signal value : Nat) : Cmd := { cNop with words :=
  (([0x1000001, 77, wait, 0, waitValue, 0, signal, 0, value, 0] ++ List.replicate 6 0).map (BitVec.ofNat 32)) }
def cSignals : Cmd := fenced 0 0 (2 ^ 31 + 63) 9
def cAwaits : Cmd := fenced (2 ^ 31 + 63) 9 0 0

theorem mem_specNop : specNop ∈ allSpecs := by simp [allSpecs]
theorem witness_CommandChecksInOrder : cNop.op = specNop.op ∧ base.startable { cNop with q := 7 } = false ∧
    (base.startable cNop = true ∧ (consume base cNop).malformed specNop { cNop with words := [] } = true) ∧
    (base.startable cSignals = true ∧ (consume base cSignals).malformed specNop cSignals = false ∧
      (consume base cSignals).verdict specNop cSignals = none) ∧
    ((consume base (fenced (2 ^ 31 + 64) 9 0 0)).malformed specNop (fenced (2 ^ 31 + 64) 9 0 0) = false ∧
      (consume base (fenced (2 ^ 31 + 64) 9 0 0)).verdict specNop (fenced (2 ^ 31 + 64) 9 0 0) = some 5) ∧
    (base.startable cAwaits = true ∧ (consume base cAwaits).malformed specNop cAwaits = false ∧
      (consume base cAwaits).verdict specNop cAwaits = none ∧ (consume base cAwaits).fenceMet cAwaits = false) := by decide

/-- A NOP of FN 2 that waits on fence 63 until its limit. -/
def waiter : Flight := { id := 5, op := 1, cmd := cAwaits, stage := 0, start := 0, limit := some 1000000000, isl := 2 }
def waits : State := { base with flights := [waiter] }
def reached : State := { waits with fab := { waits.fab with fence := [(fkey 2 63, 9)] } }

theorem witness_FencesSignalWaitAndTimeOut : (base.up 2 = true ∧ (base.fnc 2).state ≠ 5 ∧ stTorn ≠ stAbandoned ∧ base.signalOk cSignals = true) ∧
    (waits.waiting 2 0 = some waiter ∧ waiter.limit = some 1000000000 ∧ 1000000000 ≤ max waits.dt 0 ∧ waits.fenceMet waiter.cmd = false) ∧
    (reached.waiting 2 0 = some waiter ∧ reached.up 2 = true ∧ reached.fenceMet waiter.cmd = true ∧ waiter.op = specNop.op ∧
      (reached.modFlight 5 fun f => { f with stage := 1, limit := none }).verdict specNop waiter.cmd = none ∧
      (reached.island waiter.isl).live = true ∧ (reached.island waiter.isl).inReset = false) := by decide
theorem find_specNop : allSpecs.find? (·.op = waiter.op) = some specNop := rfl
theorem witness_CompletionEntryIsWrittenOrWaits : base.up 2 = true ∧ (base.fnc 2).state ≠ 5 ∧ base.signalOk cNop = false ∧ cNop.b 0 16 = false ∧
    ((base.que 2 0).held = [] ∧ (ring 63 []).cqFull 2 0 = false ∧ ((ring 63 []).que 2 0).held = []) ∧
    (ring 64 []).cqFull 2 0 = true ∧ ((ring 0 [held0]).que 2 0).held ≠ [] := by decide
theorem witness_EventsAreWrittenOrCounted : base.up 2 = true ∧ (base.fnc 2).state ≠ 0 ∧ (base.fnc 2).lost = 0 ∧ base.eventQueue 2 = 0 ∧
    ((base.que 2 0).enable = true ∧ (base.que 2 0).held = [] ∧ base.cqFull 2 0 = false) ∧ (ring 64 []).cqFull 2 0 = true ∧
    (base.fnc 3).state ≠ 0 ∧ (base.que 3 0).enable = false ∧ State.reset.up 2 = false ∧ (2 ≤ 5 ∧ (base.fnc 5).state = 0) := by decide

def gathers (ctrl : Word) : State := (base.modQ 2 0 fun u => { u with since := some (1000000000 - 7000), coalT := 7, coalN := 9, gathered := 1 }).modFn 2
  fun f => { f with msix := [(0, { ctrl := ctrl })] }

theorem witness_InterruptsCoalesceAndMask : ((gathers 0).que 2 0).since = some (1000000000 - 7000) ∧ 1000000000 - 7000 + 7 * 1000 ≤ max (gathers 0).dt 0 ∧
    (look ((gathers 0).fnc 2).msix 0 {}).ctrl.getLsbD 0 = false ∧ (look ((gathers 1).fnc 2).msix 0 {}).ctrl.getLsbD 0 = true := by decide
theorem witness_ManagementOfAForeignFunctionIsDenied : ∀ x ∈ ([1, 4] : List Nat), ∀ e ∈ ([(specQuiesce, 0xF01), (specDestroy, 0xF02), (specRelease, 0xF03),
      (specSecure, 0xF07)] : List (OpSpec × Nat)), let c := cmd 0 15 e.2 1 [x]
    c.op = e.1.op ∧ (base.at 0).startable c = true ∧ (consume (base.at 0) c).malformed e.1 c = false ∧
      (c.f 10 0 6 < 2 ∨ base.portOf (c.f 10 0 6) ≠ c.fn.val) := by decide
theorem witness_ManagementOfAForeignFunctionIsDenied_create : let c := cmd 0 15 0xF00 2 [4 + 2 ^ 16, 0, 0, 0, 1, 0]
    c.op = specCreate.op ∧ (base.at 0).startable c = true ∧ (consume (base.at 0) c).malformed specCreate c = false ∧
      base.portOf (c.f 10 0 6) ≠ c.fn.val := by decide

def quiesced : State := base.modFn 2 fun f => { f with state := 4 }
def draining (abandon : Bool) (fl : List Flight) : State := { base.modFn 2 fun f =>
  { f with state := 3, quiesce := some { flight := 9, abandon := abandon, start := 0, limit := 1000000000 } } with flights := fl }

theorem witness_QuiesceDrainsAbandonsAndEnds : ((quiesced.at 0).runs specQuiesce cQuiesce = true ∧ (quiesced.fnc (cQuiesce.f 10 0 6)).state = 4) ∧
    ((base.at 0).runs specQuiesce cQuiesce = true ∧ (base.fnc (cQuiesce.f 10 0 6)).state = 2) ∧
    (((draining false [waiter]).fnc 2).quiesce = some { flight := 9, abandon := false, start := 0, limit := 1000000000 } ∧
      1000000000 ≤ max (draining false [waiter]).dt 0 ∧ ∃ f ∈ (draining false [waiter]).flights, f.cmd.fn = 2) ∧
    (((draining true []).fnc 2).quiesce.isSome = true ∧ ((draining true []).fnc 2).state = 3 ∧
      ∀ f ∈ (draining true []).flights, f.cmd.fn ≠ 2) := by decide

def filling : State := base.modPart 1 fun p => { p with state := 1, filling := true, after := 2 }
def leaves : State := base.modFn 3 fun f => { f with leaving := some (9, true, 0) }

theorem witness_LeavingGuestsReturnTheirResources : ((filling.part 1).state ≠ 0 ∧ (filling.part 1).filling = true ∧ filling.up 3 = true ∧
      ∀ c ∈ (filling.part 1).live, filling.up (if c < 4 then 4 else 5) = true ∧ ((filling.chan c).state = 2 ∨
        ((filling.chan c).state = 4 ∧ (filling.chan c).sweep = false))) ∧
    ((leaves.fnc 3).leaving = some (9, true, 0) ∧ leaves.leaveIdle 3 = true) ∧ filling.leaveIdle 2 = false := by decide
theorem witness_PoolQueriesPartitionsAndScrubsRun : (cRemove.f 11 0 16 = 0 ∧ (base.part (cRemove.f 10 0 4)).state ≠ 0) ∧
    (let c := cmd 0 15 0xF05 1 [15, 0];
      (base.at 0).runs specPartition c = true ∧ c.f 11 0 16 = 0 ∧ (base.part (c.f 10 0 4)).state = 0) ∧
    (cPartition.f 11 0 16 ≠ 0 ∧ ((base.at 0).launched specPartition cPartition).lowestBase (cPartition.f 10 8 8) (cPartition.f 11 0 16) = some 17) ∧
    (base.chan (cScrub.d 10 / 2 ^ 34)).scrub = none ∧
    (let s := base.modChan 0 fun x => { x with scrub := some { flight := none, addr := 0, len := 256, start := 0, host := 0, rate := 1000 } };
      (s.at 0).runs specScrub cScrub = true ∧ (s.chan (cScrub.d 10 / 2 ^ 34)).scrub ≠ none) := by decide

def authing (limit : Nat) : State := base.modFn 3 fun f => { f with auth := some { flight := 9, slot := 0, limit := limit } }

theorem witness_SecureRequestsAuthenticateOrEnd : (let s := base.modFn 3 fun f => { f with secure := true };
      (s.at 0).runs specSecure cSecure = true ∧ (s.fnc (cSecure.f 10 0 6)).secure = true) ∧
    (let s := (base.modMbox 8 fun x => { x with mapped := some 9 }).modMbox 9 fun x => { x with mapped := some 9 };
      (s.at 0).runs specSecure cSecure = true ∧ (s.fnc (cSecure.f 10 0 6)).secure = false ∧ (s.mbox (8 + 2)).mapped = none ∧
      ∀ j, j < 2 → (s.mbox (8 + j)).mapped ≠ none) ∧
    (((authing 1000000000).fnc 3).auth = some { flight := 9, slot := 0, limit := 1000000000 } ∧ 1000000000 ≤ max (authing 1000000000).dt 0) ∧
    max (authing 1000000001).dt 0 < 1000000001 := by decide

/-! #### Resets, heads and layers -/

def fnState (n : Nat) : State := base.modFn 3 fun f => { f with state := n }

theorem witness_FunctionAndPortResets : (base.up 2 = true ∧ (base.fnc 2).state = 2) ∧
    ((fnState 1).up 2 = true ∧ ((fnState 1).fnc 3).state = 1) ∧ ((fnState 5).up 2 = true ∧ ((fnState 5).fnc 3).state = 5) ∧
    (let s := base.modPort 0 fun p => { p with numVfs := 2 };
      s.up 2 = true ∧ (s.port 0).numVfs ≠ 0) ∧
    ((base.port 0).link = true ∧ (base.port 0).numVfs = 0) ∧ (base.port 1).perst = false ∧
    (State.reset.port 1).perst = true ∧ State.reset.boot.hostAt = none ∧ (1 ∈ base.grantParts 2) := by decide

def flight0 : Flight := { id := 9, op := 0x201, cmd := cHead, stage := 1, start := 0, isl := 10 }
def configs : State := { base.modHead 0 fun d => { d with configs := [9] } with flights := [flight0] }
def applying : State := { base.modHead 0 fun d => { d with configs := [9], applied := some (9, 0) } with flights := [flight0] }
/-- Turns head 3 off; configures LVDS head 8; configures DisplayPort head 3. -/
def cOff : Cmd := cmd 2 2 0x201 1 [3 + 1 * 2 ^ 8, 0, 0]
def cLvds : Cmd := cmd 2 2 0x201 1 [8 + 1 * 2 ^ 8 + 1 * 2 ^ 16, 0, 0]
def cDp : Cmd := cmd 2 2 0x201 1 [3 + 1 * 2 ^ 8 + 1 * 2 ^ 16, 0, 6 + 2 ^ 4 * 4]
def sink : State := base.modHead 3 fun d => { d with hpd := true, sinkRate := 6, sinkLanes := 4 }

theorem witness_HeadConfigWaitsThenTakesEffect : applying.configBusy 0 = true ∧
    (configs.up (mantleOf 0) = true ∧ configs.configBusy 0 = false ∧ (configs.head 0).configs.filterMap configs.flight? = flight0 :: [] ∧
      (configs.modHead 0 fun d => { d with configs := [] }).verdict specHeadConfig cHead = none ∧
      (configs.island flight0.isl).live = true ∧ (configs.island flight0.isl).inReset = false) ∧
    (({ role := 1, link := 2 } : Head).sends 3 = .training ∧ ({ role := 2, link := 4 } : Head).sends 3 = .idle ∧
      ({ role := 1, link := 3, running := true } : Head).sends 3 = .picture ∧ ({} : Head).sends 8 = .nothing ∧
      ({ role := 1, applied := some (9, 0) } : Head).sends 8 = .blank ∧ ({ role := 1 } : Head).sends 8 = .picture) ∧
    cOff.f 10 16 2 = 0 ∧ (cLvds.f 10 16 2 ≠ 0 ∧ (base.safeOf (cLvds.f 10 0 4)).safety = false ∧ isDp (cLvds.f 10 0 4) = false) ∧
    (cDp.f 10 16 2 ≠ 0 ∧ (base.safeOf (cDp.f 10 0 4)).safety = false ∧ isDp (cDp.f 10 0 4) = true ∧ (base.head 3).hpd = false) ∧
    ((sink.head 3).hpd = true ∧ (sink.modHead 3 fun d => d.configured cDp (sink.csi 0).starts).headCands 3 ≠ []) := by decide

def training0 (cands : List (Nat × Nat)) (flight : Option Nat) : Training :=
  { cands := cands, cause := 1, limit := 1000000000, flight := flight }
def trains (cands : List (Nat × Nat)) (flight : Option Nat) : State :=
  base.modHead 3 fun d => { d with link := 2, role := 1, training := some (training0 cands flight) }
def linked (link : Nat) : State := base.modHead 3 fun d => { d with link := link, role := 1, mode := 1, lanes := 4, rate := 6 }

theorem witness_LinksTrainThroughTheirCandidates : (((trains [(4, 6), (2, 6)] (some 9)).head 3).training = some (training0 [(4, 6), (2, 6)] (some 9)) ∧
      (trains [(4, 6), (2, 6)] (some 9)).up (mantleOf 3) = true ∧ (training0 [] none).boot = false ∧ [(2, 6)] ≠ ([] : List (Nat × Nat))) ∧
    ((trains [(4, 6)] none).head 3).training = some (training0 [(4, 6)] none) ∧
    max (trains [(4, 6)] none).dt 0 ≤ (training0 [(4, 6)] none).limit ∧ (training0 [(4, 6)] none).limit < max (trains [(4, 6)] none).dt 1000000001 ∧
    (training0 [(4, 6)] none).limit ≤ max (trains [(4, 6)] none).dt 0 ∧
    (isDp 3 = true ∧ (linked 4).up (mantleOf 3) = true ∧ ((linked 4).head 3).role ≠ 0 ∧ ((linked 4).head 3).link = 4 ∧
      ((linked 4).head 3).training = none ∧ ((linked 4).head 3).hpd = false) ∧
    ((linked 3).head 3).link = 3 ∧ (base.head 7).role = 0 ∧ isDp 7 = true := by decide

/-- Head 1 shows a clone of head 0; NIGHT and GAMMA_COMMIT of head 0 were written at 5. -/
def cloned : State := (base.modHead 1 fun d => { d with mode := 1, role := 2, cloneSrc := 0, running := true, link := 3 }).modHead 0 fun d =>
  { d with nightW := some (true, 5), gCommit := true, gCommitAt := 5 }

theorem witness_FramesStartBlankAndLatch : (base.up (mantleOf 0) = true ∧ (base.head 0).running = true ∧ (base.head 0).role ≠ 2 ∧
      base.framing 0 = true ∧ (base.safeOf 0).safety = true) ∧
    ((cloned.head 1).role = 2 ∧ (cloned.head 1).cloneSrc = 0 ∧ (cloned.head 1).running = true ∧ cloned.up (mantleOf 1) = true ∧
      (cloned.head 1).lockEn = false) ∧
    ((cloned.head 0).pend = [] ∧ (cloned.head 0).nightW = some (true, 5) ∧ cloned.framing 0 = true ∧ 5 < max cloned.dt 0) ∧
    (let s := { base with dt := 2 * (modeOf 1).period };
      (s.safeOf 0).safety = true ∧ s.up (mantleOf 0) = true ∧ (s.head 0).running = true ∧
      max (s.head 0).frameDt (s.head 0).runAt + 2 * (modeOf (s.head 0).mode).period ≤ max s.dt 0) ∧
    (63 < 64 ∧ (base.slotOf 63).head = 0) := by decide

def dark : State := base.modHead 3 fun d => { d with mode := 1, running := true, link := 0 }

/-- Line 479 of head 0 stands rendered. -/
def rendered : State := base.modHead 0 fun d => { d with rows := [{ y := 479, next := false, feed := [], check := [] }] }

theorem witness_TailLinesCountUnderruns : (∃ r ∈ (rendered.head 0).rows, r.y = 479 ∧ r.next = false) ∧ (rendered.framing 0 = true ∧
      479 < (modeOf (rendered.head 0).mode).h ∧ (rendered.head 0).link = 3) ∧ (dark.safeOf 3).safety = false ∧ (base.framing 0 = true ∧ (modeOf (base.head 0).mode).h - 1 < (modeOf (base.head 0).mode).h ∧ (base.head 0).link = 3) ∧
    (dark.framing 3 = true ∧ (dark.head 3).link ≠ 3) ∧ (base.headOpen 2 0 false = true ∧ (1#32).getLsbD 0 = true) ∧
    (base.up (mantleOf 11) = true ∧ (base.head 11).blStart + (base.head 11).blPeriod ≤ max base.dt 0) := by decide

/-- An AUX request of code 8 stands at head 0, whose owner is not secure; transactions run. -/
def unsafeAux : State := (base.modHead 0 fun d => { d with aux := 8 }).modFn 2 fun f => { f with secure := false }
def auxRuns (tries : Nat) : State := base.modHead 0 fun d => { d with auxBusy := true, auxTries := tries, auxSince := 1000000000 - 400000 }

theorem witness_GammaNightAuxAndFrameStamp : base.headOpen 2 0 true = true ∧ base.headOpen 2 0 false = true ∧
    (isDp 0 = true ∧ (base.head 0).auxBusy = false ∧ fld (base.head 0).aux 0 4 ≠ 8) ∧
    (unsafeAux.headOpen 2 0 false = true ∧ (unsafeAux.head 0).auxBusy = false ∧ (unsafeAux.safeOf 0).safety = true ∧
      (unsafeAux.head 0).auxShut = false ∧ fld (unsafeAux.head 0).aux 0 4 = 8 ∧ unsafeAux.isSecure 2 = false) ∧
    (let s := unsafeAux.modHead 0 fun d => { d with auxShut := true };
      s.headOpen 2 0 false = true ∧ (s.head 0).auxBusy = false ∧ (s.safeOf 0).safety = true ∧ (s.head 0).auxShut = true ∧
      s.isSecure 2 = false) ∧
    ((auxRuns 6).auxLive 0 = true ∧ ((auxRuns 6).head 0).auxTries < 7 ∧ 7 ≤ ((auxRuns 7).head 0).auxTries ∧
      ((auxRuns 6).head 0).auxSince + 400000 ≤ max (auxRuns 6).dt 0) ∧
    (base.reach 0 = true ∧ base.mayWrite 0 4 = true ∧ base.ownsHead 0 0 = false ∧ 0 < 64) ∧ base.canRead 127 (mantleOf 11) = true := by decide

def layer0 : Layer := { slot := 5, enable := true, format := 0, alpha := 255, srcW := 16, srcH := 1, dstW := 16, dstH := 1 }
def pf (target : Nat) (entries : List Layer) : PFlip :=
  { flight := 9, fn := 2, arrive := 0, limit := 1000000000, entries := entries, replace := false, night := 0, group := 0, gsize := 0, target := target }

theorem witness_FlipsPendAndTimeOut : base.up (mantleOf 0) = true ∧
    (base.modHead 0 fun d => { d with pend := [pf 2000000000 []] }).flipExpired (pf 2000000000 []) = true ∧
    base.flipExpired (pf 0 []) = false := by decide
theorem witness_FlipsApplyInOrderAtTheLatch : (2 ∈ [2] ∧ base.latchReady (pf 2000000000 []) = false) ∧
    (2 ∉ ([] : List Nat) ∧ base.latchReady (pf 0 [layer0]) = true ∧ (base.head 0).role ≠ 2 ∧
      flipFits base (applyLayers base 0 (pf 0 [layer0])) 0 (pf 0 [layer0]) = true) ∧
    (let s := base.modSlot 5 fun x => { x with head := 3, layer := { x.layer with enable := true } };
      s.latchReady (pf 0 [layer0]) = true ∧ flipFits s (applyLayers s 0 (pf 0 [layer0])) 0 (pf 0 [layer0]) = false) ∧
    (cloned.latchReady (pf 0 [layer0]) = true ∧ (cloned.head 1).role = 2 ∧ (pf 0 [layer0]).entries ≠ []) := by decide +kernel

def fetches (lock : Bool) : State := base.modHead 0 fun d => { d with pic := { layers := [⟨5, 2, { layer0 with lineLock := lock }, []⟩] } }

theorem witness_LayerFetchCountsLines : base.shownBy 5 = none ∧
    ((fetches false).shownBy 5 = some (0, ⟨5, 2, layer0, []⟩) ∧ layer0.lineLock = false ∧ (fetches false).perfHeld (mantleOf 0) = false) ∧
    ((fetches true).shownBy 5 = some (0, ⟨5, 2, { layer0 with lineLock := true }, []⟩)) := by decide

/-! #### Safety plane, Watchlamp -/

def cCommit : Cmd := { cList with words := [0x1000202, 77, 0, 0, 0, 0, 0, 0, 0, 0, 0x100, 0, 0, 0, 0, 0] }
def committing : State := base.modSafe 0 fun o => { o with commit := some (9, 999999999) }

/-- The states that the statement on lists names: what stands written for a commit, and what is read of it. -/
def written (s : State) : State := fileDirectory (writeStore s (slBase 0 1 0) (slData cCommit)) 0
def validated (s : State) : State := readLists (written s) ((written s).validateBases 0)
def refreshing : State := base.modSafe 0 fun o => { o with refresh := true }

theorem witness_SafetyListUpdatesTakeTurns : (readLists (base.at 0) (base.at 0).allBases).runs specListUpdate cList = true ∧
    (4 ≤ cList.f 10 4 4 ∧ cList.f 12 0 24 ≠ 0) ∧ ((base.at 0).runs specListUpdate cCommit = true ∧ cCommit.f 10 4 4 = 0) ∧
    cList.b 10 8 = false ∧ (cCommit.b 10 8 = true ∧ (validated base).validateBank 0 = none) ∧
    ((refreshing.safeOf 0).refresh = true ∧ refreshing.bankDrawn 0 (1 - (refreshing.safeOf 0).bankL) = false) ∧
    ((committing.safeOf 0).safety = true ∧ committing.wl.frozen = false ∧ (committing.safeOf 0).commit = some (9, 999999999) ∧
      999999999 < committing.dt) := by decide
theorem witness_SafetyListUpdatesTakeTurns_invalid : (validated { base with store := base.store.write (ownBase 0 0 1) [0x0F] }).validateBank 0 = some 0 := by decide +kernel

def fault (a c b d : Word) : PassFault := { mainA := a, checkA := c, mainB := b, checkB := d }
def rebuilding : State := (base.modPair 0 fun x => { x with stA := 1 }).modPair 1 fun x => { x with stB := 1 }
def twice : State := base.modPair 0 fun x => { x with timesA := [999999999, 999999998] }

theorem witness_RenderersMaskRebuildAndRetire : ((base.safeOf 0).safety = true ∧ base.up (mantleOf 0) = true ∧ (base.head 0).running = true ∧ (base.island 1).live = true ∧
      0 < (modeOf (base.head 0).mode).h ∧ base.takes 0 false = true ∧ base.takes 0 true = true) ∧
    ((base.pair 0).stA = 0 ∧ (base.pair 0).stB = 0 ∧ base.flt.coresUp = true ∧ base.wl.frozen = false ∧
      ((base.pair 0).timesA.filter fun t => base.dt < t + 10000 * 1000000).length < 2) ∧
    2 ≤ ((twice.pair 0).timesA.filter fun t => twice.dt < t + 10000 * 1000000).length ∧
    ((rebuilding.pair 0).stA = 1 ∧ (rebuilding.pair 1).stB = 1) ∧
    (base.store.broken false (base.store.listed false) = false ∧ base.store.broken true (base.store.listed true) = false) := by decide
/-- With the same line from both renderers a disturbance of one CRC marks that renderer, of two the other one or neither. -/
theorem witness_RenderersMaskRebuildAndRetire_faults : let crc := fun (x : Word) => crc32c ((List.replicate 4 0).flatMap (leBytes 4)) ^^^ x.toNat
    (crc 0 = crc 0) ∧ (crc 1 ≠ crc 0 ∧ crc 1 ≠ crc 0 ∧ ¬crc 0 ≠ crc 0) ∧ (crc 1 ≠ crc 2 ∧ crc 1 ≠ crc 0 ∧ crc 2 ≠ crc 0) := by decide

def mode (n : Nat) : State := base.modWl fun w => { w with mode := n, handAt := 1000000000 }
theorem witness_ConfirmationMovesHandbackToHosted : (mode 2).guestOpen 2 = true ∧ (mode 2).wl.mode = 2 ∧ fld 3#32 0 16 = (mode 2).wl.gen ∧
    fld 2#32 0 16 ≠ (mode 2).wl.gen := by decide
theorem witness_HeartbeatsKeepWatchlampHosted : base.guestOpen 2 = true ∧ (fld 6#32 0 16 = (base.wl.hbLast + 1) % 65536 ∧ base.wl.mode ≠ 1) ∧
    (mode 1).wl.mode = 1 ∧ (base.wl.hbFirst = false ∧ fld 5#32 0 16 ≠ (base.wl.hbLast + 1) % 65536) ∧
    (let s := { base with dt := 990000000 + 250 * 1000000 };
      s.img = some image0 ∧ s.wl.mode ≠ 1 ∧ s.wl.hbAt + image0.takeoverMs * 1000000 ≤ max s.dt 0 ∧ s.watchUp = true) ∧
    max base.dt 0 < base.wl.hbAt + image0.takeoverMs * 1000000 ∧
    (let s := { mode 2 with dt := 6000000000 };
      s.img = some image0 ∧ s.wl.mode = 2 ∧ s.wl.handAt + image0.handbackMs * 1000000 ≤ max s.dt 0 ∧ s.watchUp = true) ∧
    max (mode 2).dt 0 < (mode 2).wl.handAt + image0.handbackMs * 1000000 := by decide

/-- A protected entry: SEQ in byte 1, CRC in bytes 2 to 5, and a telegram it accepts. -/
def entry1 : MapEntry := { entry0 with e2e := true, crcOff := 2, seqOff := 1 }
def payload1 : List Byte := [9, 4] ++ leBytes 4 (crc32c (leBytes 2 0 ++ [9, 4]))
def image1 : Image := { image0 with mapping := [(511, entry0), (0, entry1)] }
def base1 : State := { base with img := some image1, wl := { base.wl with sigs := [(7, { stamp := some 999999999, stale := false })], e2e := [(0, { seq := some 4, resync := false })] } }

theorem witness_TelegramsAreJudgedBeforeTheySetASignal : (base1.img = some image1 ∧ image1.mapping.find? (·.1 = (511 : Fin 512).val) = some (511, entry0) ∧
      telUsable entry0 = true ∧ base1.watchUp = true ∧ telFits entry0 [] = false) ∧
    (image1.mapping.find? (·.1 = (0 : Fin 512).val) = some (0, entry1) ∧ telUsable entry1 = true ∧ telFits entry1 (List.replicate 6 0) = true ∧
      entry1.e2e = true ∧ telCrcOk entry1 (List.replicate 6 0) = false) ∧
    (telFits entry1 payload1 = true ∧ telCrcOk entry1 payload1 = true ∧
      telSeqOk entry1 (look base1.wl.e2e 0 {}) (base1.staleAt entry1.signal (max base1.dt 0)) payload1 = false) ∧
    (telFits entry0 [9] = true ∧ entry0.e2e = false ∧ image1.signals.any (fun x => x.1 = entry0.signal.val) = true ∧
      (base1.sigOf entry0.signal).stamp = some 999999999 ∧ 999999999 < 1000000000) ∧
    (base1.watchUp = true ∧ base1.staleAt 255 (max base1.dt 0) = true) := by decide

def ruleIn (n : Nat) : State := base.modRule 0 fun x => { x with state := n, since := some 1000000000 }
def high : AlarmRule := { rule0 with test := 1, onDelay := 0 }

theorem witness_RulesActivateAndReturn : (base.img = some image0 ∧ base.watchUp = true ∧ base.wl.running = true ∧ base.wl.evaluated = true) ∧
    (base.wl.runAt < max base.dt 0 ∧ max base.dt 0 % 1000000 = 0 ∧ max base.dt 1000000001 % 1000000 ≠ 0) ∧
    (let s := base1.modSig 7 fun x => { x with value := 100 };
      let c := ruleCond high (s.staleAt high.signal s.dt) (s.ruleSt 0).cond (s.sigOf high.signal).value;
      c = true ∧ (s.ruleSt 0).since.getD s.dt + high.onDelay * 1000000 ≤ s.dt ∧ (s.ruleSt 0).state = 0) ∧
    (ruleCond rule0 (base.staleAt rule0.signal base.dt) false (base.sigOf rule0.signal).value = false ∧
      ((ruleIn 1).ruleSt 0).state = 1 ∧ ((ruleIn 2).ruleSt 0).state = 2 ∧ ((ruleIn 3).ruleSt 0).state = 3) := by decide

def pressed (acted : Bool) (fall : Nat) : State := base.modPin 3 fun p => { p with low := true, acted := acted, fall := fall }

theorem witness_AcknowledgementByPinAndGuest : (let s := { pressed true 0 with dt := 10000000000 };
      s.watchUp = true ∧ (s.pin 3).low = true ∧ (s.pin 3).stuck = false ∧ (s.pin 3).fall + 10000000000 ≤ max s.dt 0) ∧
    ((pressed false 980000000).img = some image0 ∧ (pressed false 980000000).watchUp = true ∧ (pressed false 980000000).wl.evaluated = true ∧
      ((pressed false 980000000).pin 3).fall + 20000000 ≤ max (pressed false 980000000).dt 0) ∧
    max (pressed false 980000001).dt 0 < ((pressed false 980000001).pin 3).fall + 20000000 ∧
    (base.guestOpen 2 = true ∧ base.wl.mode ≠ 1) ∧ ((mode 1).guestOpen 2 = true ∧ (mode 1).wl.mode = 1) ∧
    (base.ruleOf 0 = some rule0 ∧ ((ruleIn 1).ruleSt 0).state = 1 ∧ ((ruleIn 3).ruleSt 0).state = 3 ∧ (base.ruleSt 0).state = 0) ∧
    (let s := base.modWl fun w => { w with sysAlarm := true };
      s.wl.sysAlarm = true ∧ s.flt.lossAt ≠ some (s.stamp 1)) ∧
    (let s : State := { base.modWl fun w => { w with sysAlarm := true } with flt := { base.flt with lossAt := some (base.stamp 1) } };
      s.wl.sysAlarm = true ∧ s.flt.lossAt = some (s.stamp 1) ∧ s.wl.frozen = false) := by decide

theorem witness_TonesAndHapticAlarmsFollowTheRules : (base.watchUp = true ∧ base.wl.running = true ∧ max base.dt 0 % 1000000 = 0 ∧
      max base.dt 1000000001 % 1000000 ≠ 0) ∧
    (let s := { base with pwr := { base.pwr with device := 2 } };
      s.guestOpen 2 = true ∧ s.pwr.device = 2 ∧ s.pwr.shut = false ∧ s.boot.loadAt ≠ none ∧ s.pwr.wakeEvt ≠ some (max s.dt 0)) ∧
    (let s := { base.modRule 0 fun x => { x with state := 1, played := 1000000000 } with dt := 3000000000 };
      s.ruleOf 0 = some rule0 ∧ s.watchUp = true ∧ (s.ruleSt 0).state = 1 ∧ rule0.effect.val ≠ 0 ∧
      (s.ruleSt 0).played + 2000000000 ≤ max s.dt 0) ∧
    (base.guestOpen 2 = true ∧ (1#32).getLsbD 0 = true ∧ (2#32).getLsbD 0 = false) := by decide

/-! #### Chandelier, memory and fabric -/

/-- Partition 1, which FN 2 holds, lost; its channel not answering. -/
def lostPart : State := base.modPart 1 fun p => { p with state := 3 }
def stalled : State := base.modChan 0 fun x => { x with state := 3 }
/-- The first word of FN 2's memory holds an error that cannot be corrected. -/
def broken : State := base.modMem fun m => { m with dram := [((base.part 1).devAddr 0, 3)] }
def sharedCtx : State := base.modChand fun d => { d with ctxs := [(0, { state := 3, fn := 2, locl := 0 })] }

theorem witness_ChandelierCommandsRun_copy : (let s1 := (base.at 0).launched specCopy cCopy;
      let s2 := afterReads s1 2 [(0, 4)];
      s1.touchesLost 2 4096 4 = false ∧ s1.stallAt 2 4096 4 = none ∧ s1.touchesLost 2 0 4 = false ∧ s1.stallAt 2 0 4 = none ∧
      s2.stallAt 2 4096 4 = none ∧ s2.stallAt 2 0 4 = none) ∧
    (let s1 := (broken.at 0).launched specCopy cCopy;
      let s2 := afterReads s1 2 [(0, 4)];
      (broken.at 0).runs specCopy cCopy = true ∧ s1.touchesLost 2 0 4 = false ∧ s1.touchesLost 2 4096 4 = false ∧
      s1.stallAt 2 0 4 = none ∧ s1.stallAt 2 4096 4 = none ∧ s2.stallAt 2 0 4 = some 0) ∧
    ((lostPart.at 0).runs specCopy cCopy = true ∧ ((lostPart.at 0).launched specCopy cCopy).touchesLost 2 4096 4 = true) ∧
    ((stalled.at 0).runs specCopy cCopy = true ∧ ((stalled.at 0).launched specCopy cCopy).touchesLost 2 4096 4 = false ∧
      ((stalled.at 0).launched specCopy cCopy).stallAt 2 4096 4 = some 0) := by decide
/-- A SPARSE_BIND whose list and residency map stand in one line. -/
def cSparseNear : Cmd := cmd 2 1 0x104 2 [0x1000, 0, 0x3010, 0, 0, 0, 0x3000, 0, 1]

theorem witness_ChandelierCommandsRun_sparse : (base.at 0).runs specSparse cSparseNear = true ∧ (let s1 := (base.at 0).launched specSparse cSparseNear;
      let s2 := afterReads s1 2 [(0x3000, 16)];
      let s3 := afterReads s2 2 [(0x3010, 1)];
      s1.touchesLost 2 0x3000 16 = false ∧ s1.stallAt 2 0x3000 16 = none ∧ s2.stallAt 2 0x3000 16 = none ∧
      bindEntry s2 2 0x3000 0 = (0, false, 0) ∧ s2.touchesLost 2 0x1000 8 = false ∧ s2.stallAt 2 0x1000 8 = none ∧
      s3.stallAt 2 0x1000 8 = none ∧ s2.touchesLost 2 0x3010 1 = false ∧ s2.stallAt 2 0x3010 1 = none ∧ s3.stallAt 2 0x3010 1 = none) := by
  decide
theorem witness_ChandelierCommandsRun_sparseBad : (let s : State := memWrite (base.at 0) 2 0x3004 [1, 0, 0, 0, 1];
      s.runs specSparse cSparse = true ∧ bindEntry (afterReads (s.launched specSparse cSparse) 2 [(0x3000, 16)]) 2 0x3000 0 = (0, true, 1)) := by
  decide

/-- PIPELINE_COMPILE of an empty record; destroys of handle 1. -/
def cCompile : Cmd := cmd 2 1 0x102 1 [0, 0, 0, 0]
def cDestroyPipe : Cmd := cmd 2 1 0x102 1 [1, 1, 0, 0]
def piped : State := base.modChand fun d => { d with pipes := [{ handle := 1, fn := 2, digest := Config.sha384 [], size := 0 }] }

theorem witness_ChandelierCommandsRun_pipeline : (cDestroyPipe.b 10 0 = true ∧ ((base.at 0).launched specPipeline cDestroyPipe).ownsPipe 2 1 = false) ∧
    ((base.at 0).runs specPipeline cCompile = true ∧ cCompile.b 10 0 = false ∧
      ((base.at 0).launched specPipeline cCompile).touchesLost 2 0 0 = false ∧
      ((base.at 0).launched specPipeline cCompile).stallAt 2 0 0 = none ∧ ((base.at 0).launched specPipeline cCompile).chand.pipes = []) := by
  decide
theorem witness_ChandelierCommandsRun_pipelineShared : (piped.at 0).runs specPipeline cCompile = true ∧ (piped.at 0).runs specPipeline cDestroyPipe = true ∧
    ((piped.at 0).launched specPipeline cDestroyPipe).ownsPipe 2 1 = true :=
  ⟨by decide, by decide, by decide⟩
theorem witness_ChandelierCommandsRun_pipelineEqual : piped.chand.pipes.find? (fun p => p.fn = 2 && p.digest = Config.sha384 [] && p.dying = []) =
    some { handle := 1, fn := 2, digest := Config.sha384 [], size := 0 } := by simp [piped, State.modChand]
theorem witness_ChandelierCommandsRun_submit : base.hwCtx 2 (cGfx.f 10 0 6) = some 0 ∧ base.hwCtx 2 (cCompute.f 10 0 6) = some 0 ∧
    (sharedCtx.ctx 0).state = 3 := by decide

/-- A context that runs a submission, with a wait in memory or without. -/
def cSub : Flight := { id := 9, op := 0x100, cmd := cGfx, stage := 1, start := 0, isl := 6 }
def running (kind : Nat) (wait : Option WaitMem) (dl : List (Nat × Time)) : State := { base.modCtx 0 fun x =>
  { x with state := 3, queue := [9], info := { x.info with kind := kind }, wait := wait, dls := dl } with flights := [cSub] }
def watch (value : Nat) : WaitMem := { addr := 0, value := value, mask := 255, limit := some 1000000000 }

/-- Context 63, of a function that has no memory, with a taper being saved. -/
def saves : State := (base.modTaper 31 fun k => { k with ctx := some 63, saving := true }).modCtx 63 fun x => { x with fn := 3 }
theorem saves_saveStall : saves.saveStall 63 = false := by
  have h : saves.window 3 = [] := by decide
  have k : (saves.ctx 63).fn = 3 := by decide
  simp [State.saveStall, k, State.stallAt, State.place, h, placeIn]

theorem witness_SubmissionsEndWaitAndYield : ((running 0 none []).subDone 0 = true ∧ ((running 0 none []).ctx 0).queue = 9 :: [] ∧
      (running 0 none []).flight? 9 = some cSub ∧ (running 0 none []).backStall = none) ∧ base.subDone 0 = false ∧
    (let s := { (running 0 none []).modChand fun d => { d with l2 := [(2, 0, [7])] } with mem := stalled.mem };
      s.subDone 0 = true ∧ s.backStall = some 0) ∧
    (((running 0 (some (watch 1)) []).ctx 0).wait = some (watch 1) ∧ (running 0 (some (watch 1)) []).chdUp = true ∧
      (running 0 (some (watch 1)) []).waitMatch 2 (watch 1) = false ∧ 1000000000 ≤ max (running 0 (some (watch 1)) []).dt 0) ∧
    (running 0 (some (watch 0)) []).waitMatch 2 (watch 0) = true ∧ max base.dt 0 % 1000000 = 0 ∧
    ((running 1 none [(9, 0)]).short 0 = true) ∧ (∀ c, c < 64 → base.short c = false) ∧
    (saves.chdUp = true ∧ 31 ∈ saves.tapersOf 63 ∧ (saves.taper 31).saving = true) ∧ ((running 0 none []).ctx 0).state = 3 := by decide

def trained (eye : Fin 257) (ok : Bool) : TrainResult :=
  { rd := Vector.replicate 4 [BitVec.ofNat 256 (2 ^ eye.val - 1)], wr := Vector.replicate 4 [0xFFFFFFFF], step2 := ok, comparator := true
    capacity := 16 }
def training : State := base.modChan 0 fun x => { x with state := 1, sweep := true }
def chState (n : Nat) : State := base.modChan 0 fun x => { x with state := n }
def req0 (id row issue : Nat) : MemReq :=
  { id := id, source := 0, secure := false, write := false, wback := false, addr := 0, bank := 0, row := row, issue := issue, data := [] }
def banked (row : Option Nat) (hits owed : Nat) (q : List MemReq) : State :=
  base.modBank 0 0 fun k => { k with queue := q, row := row, hits := hits, owed := owed, kept := true, lastAt := 1000000000 - base.pageIdle }

theorem witness_ChannelsTrainRefreshAndFreeze : (training.up (memIsl 0) = true ∧ (training.chan 0).state = 1 ∧ (training.chan 0).sweep = true ∧
      training.flt.coresUp = true ∧ training.mem.waits = [] ∧ training.boot.memcfg = false) ∧
    (32 ≤ (narrowest (sweeps false (trained 32 true).rd)).1 ∧ 32 ≤ (narrowest (sweeps false (trained 32 true).wr)).1) ∧
    ¬32 ≤ (narrowest (sweeps false (trained 31 true).rd)).1 ∧ (base.up (memIsl 0) = true ∧ (base.chan 0).state = 2) ∧
    (5 ≤ 7 + 2 ∧ 7 ≤ 5 + 2) ∧ (((banked none 0 7 [req0 1 0 0]).chan 0).bank 0).owed < 8 ∧
    (((banked none 0 7 [req0 1 0 0]).chan 0).bank 0).queue ≠ [] ∧ 8 ≤ (((banked none 0 8 [req0 1 0 0]).chan 0).bank 0).owed ∧
    (((banked none 0 0 []).chan 0).bank 0).kept = true ∧
    (((banked none 0 0 []).chan 0).bank 0).lastAt + (banked none 0 0 []).pageIdle ≤ max (banked none 0 0 []).dt 0 := by decide
theorem witness_ChannelsTrainRefreshAndFreeze_picks : (let k : Bank := { queue := [req0 1 5 999999999, req0 2 7 999999999], row := some 7, hits := base.hitCap - 1 };
      k.queue.find? (fun e => k.row = some e.row) = some (req0 2 7 999999999) ∧ base.dt - 999999999 < base.ageCap ∧ k.hits < base.hitCap) ∧
    (let k : Bank := { queue := [req0 1 5 0], row := none };
      (∀ e ∈ k.queue, k.row ≠ some e.row) ∧ base.ageCap ≤ base.dt - 0) ∧ base.hitCap ≤ ({ hits := base.hitCap } : Bank).hits := by decide
theorem witness_ChannelsTrainRefreshAndFreeze_controller : base.up (memIsl 0) = true ∧ (base.chan 0).state = 2 ∧ (banked (some 5) 0 0 [req0 1 5 0]).pickBank 0 1 = some 0 ∧
    (banked (some 5) 0 0 [req0 1 5 0]).pickReq (((banked (some 5) 0 0 [req0 1 5 0]).chan 0).bank 0) = some (req0 1 5 0, false) ∧
    (dataPath (banked (some 5) 0 0 [req0 1 5 0]) 0 (req0 1 5 0) [req0 1 5 0]).2 = none := by decide

def frozen : State := { base.modChan 0 fun x => { x with state := 3, frozeAt := 1000000000 - 10 * 1000000 } with dt := 1000000000 }
def claimedChan : State := frozen.modLan fun l => { l with claims := [(0, ⟨0x10, true, 2⟩)] }
def cached (dirty : Bool) : State := base.modMem fun m => { m with lines := [((base.part 1).devAddr 0 / 128, dirty)] }
def scrubs (start : Nat) : State := base.modChan 0 fun x => { x with scrub := some { flight := none, addr := 0, len := 256, start := start, host := 0, rate := 1000 } }

theorem witness_ChannelsRecoverAndLosePartitions : (frozen.groupOpen 0 2 (memIsl 0) = true ∧ (frozen.chan 0).state = 3 ∧ frozen.heldBack 0 0x10 = false ∧ frozen.up (memIsl 0) = true) ∧
    (claimedChan.groupOpen 0 2 (memIsl 0) = true ∧ claimedChan.heldBack 0 0x10 = true) ∧
    (base.groupOpen 0 2 (memIsl 7) = true ∧ (base.chan 7).state ≠ 3) ∧
    (frozen.img = some image0 ∧ frozen.watchUp = true ∧ image0.autoRecoverMs ≠ 0 ∧
      (frozen.chan 0).frozeAt + image0.autoRecoverMs * 1000000 ≤ max frozen.dt 0) ∧ base.up 3 = true ∧
    ((base.part 1).devAddr 0 / 128 / 2 ^ 27 < 8 ∧
      look (cached false).mem.lines ((base.part 1).devAddr 0 / 128) false = false) ∧
    (look (cached true).mem.lines ((base.part 1).devAddr 0 / 128) false = true ∧
      (cached true).partAt (128 * ((base.part 1).devAddr 0 / 128)) = some 1) ∧
    (let s := base.modPart 0 fun p => { p with state := 3 };
      s.groupOpen 0 2 3 = true ∧ (s.part 0).state = 3 ∧ (s.part 0).creator = 0 ∧ (s.part 0).holder = 0 ∧ (s.part 0).filling = false ∧
      (s.part 0).unfill = false) ∧
    (let s := base.modPart 0 fun p => { p with state := 3, filling := true };
      s.groupOpen 0 2 3 = true ∧ (s.part 0).state = 3 ∧ (s.part 0).holder = 0 ∧ (s.part 0).filling = true) ∧
    ((frozen.modMem fun m => { m with waits := [{ flight := 9, chan := 0, limit := 0 }] }).mem.waits.any (·.chan = 0) = true ∧
      base.mem.waits = []) ∧
    (let s := base.modFab fun f => { f with scrLen := 256 };
      s.groupOpen 0 1 3 = true ∧ scrubRangeOk s.fab.scrAddr s.fab.scrLen = true ∧ (s.chan 0).scrub = none) ∧
    (base.groupOpen 0 1 3 = true ∧ scrubRangeOk base.fab.scrAddr base.fab.scrLen = false) ∧
    (let s := scrubs 0; let x : Scrub := { flight := none, addr := 0, len := 256, start := 0, host := 0, rate := 1000 };
      (s.chan 0).scrub = some x ∧ s.up 3 = true ∧ x.limit = none ∧ (s.chan 0).waitScrub = [] ∧
      x.start + 8 * s.examined 0 (x.addr % 2 ^ 34) x.len * 1000 / x.rate ≤ max s.dt 0) ∧
    (base.reach 0 = true ∧ base.up (memIsl 7) = true) := by decide

def slotted : State := base.modSlotTab 0 fun x => { x with active := [(0, 0x8F)], origin := 1000000000 - 64 * 250 }
def busy (since : Nat) : State := base.modTarget 5 fun x => { x with busy := true, owner := 15, since := since }

theorem witness_ArbitrationGrantsTheHighestPriority : base.up 3 = true ∧ ((base.at 0).slotNow 1).testBit 7 = false ∧ (base.target 5).owner < 16 ∧
    (0xFFFF &&& 0xFFCF : Nat) ≠ 0 ∧ (0x0030 &&& 0xFFCF : Nat) = 0 := by decide
theorem witness_LocksSlotsAndSnuffers : (base.mayWrite 1 1 = false ∧ base.mayWrite 0 1 = true ∧ base.canRead 1 3 = true) ∧
    (base.canRead 127 3 = true ∧ base.lockShut 2 false 15 = false ∧ base.lockShut 0 false 15 = true ∧ base.lockShut 0 false 16 = false) ∧
    ((base.lock 16).held = false ∧ (let s := base.modLock 63 fun l => { l with held := true, owner := 0 };
      (s.lock 63).held = true ∧ (s.lock 63).owner = 0 ∧ s.lockShut 0 false 63 = false ∧ s.canRead 0 3 = true)) ∧
    (slotted.up 3 = true ∧ (slotted.slotNow 0).testBit 7 = true ∧ (0x8000 &&& 0xFFCF : Nat).testBit (slotted.slotNow 0 % 16) = true) ∧
    (base.groupOpen 0 1 3 = true ∧ (slotted.slotTab 0).origin + 64 * slotLen (slotted.slotTab 0).nsA ≤ max slotted.dt 0) ∧
    (((busy (1000000000 - 8000)).target 5).busy = true ∧
      ((busy (1000000000 - 8000)).target 5).since + ((busy (1000000000 - 8000)).target 5).hold ≤ max (busy 0).dt 0) ∧
    max (busy 999992001).dt 0 < ((busy 999992001).target 5).since + ((busy 999992001).target 5).hold := by decide

/-! #### Media, Network, Audio -/

def bind0 (ring : Bool) : Bind :=
  { fn := 2, lanes := 1, vc := 0, fmt := 0, ring := 3, bufs := 2, width := 16, height := 16, base := 0, pitch := 64, fence := if ring then none else some 63 }
def camera (mem ring : Option Bind) : State := base.modCsi 7 fun x =>
  { x with lanes := 1, dtype := 0x1E, signal := true, inFrame := true, line := 15, startDt := 800000000, mem := mem, ring := ring }

theorem witness_CamerasCheckCountAndBind : ((camera (some (bind0 false)) none).up 12 = true ∧ ((camera (some (bind0 false)) none).csi 7).active = true ∧
      ((camera (some (bind0 false)) none).csi 7).hears 15 = false ∧ ((camera (some (bind0 false)) none).csi 7).hears 0 = true ∧ 3 < 4) ∧
    (((camera none none).csi 7).inFrame = true ∧ imageType ((camera none none).csi 7).dtype = true ∧ ((camera none none).csi 7).mem = none ∧
      ((camera none none).csi 7).ring = none) ∧
    (((camera (some (bind0 false)) none).csi 7).mem = some (bind0 false) ∧ ((camera (some (bind0 false)) none).csi 7).line < 16 ∧
      fmtSuits 0x1E 0 = true ∧ (bind0 false).fence = some 63) ∧
    (((camera none (some (bind0 true))).csi 7).ring = some (bind0 true) ∧ ((camera none (some (bind0 true))).csi 7).mem = none) ∧
    (((camera none none).csi 7).signal = true ∧ ((camera none none).csi 7).startDt + 200000000 ≤ max (camera none none).dt 0) := by decide

def session0 (enc : Bool) (slots : List Nat) : Session :=
  { enc := enc, codec := 0, w := 64, h := 64, fps := 30, area := 0, slots := 4, free := slots, ringKib := 1 }
def decodes (slots : List Nat) : State := base.setSession (sessKey 2 15 false) (session0 false slots)
def encodes (ir : Nat) (due : Bool) : State := base.setSession (sessKey 2 15 true) { session0 true [] with irPeriod := ir, idrDue := due }
/-- MEDIA_DECODE of an access unit for session 15; MEDIA_ENCODE from the camera of session 15, with INIT and without. -/
def cUnit : Cmd := cmd 2 3 0x300 2 [15, 0x1000, 0, 4, 0]
def cGrab (init : Nat) : Cmd := cmd 2 3 0x301 2 [15 + init + 2 ^ 8 + 7 * 2 ^ 9, 0, 0, 0, 0, 0, 0, 0, 64 + 2 ^ 16 * 64, 30 + 2 ^ 8, 100, 0, 0, 1]
def filmed : State := camera (some (bind0 false)) none

theorem witness_CodecSessionsOpenRunAndClose : (let s1 := (base.at 0).launched specDecode cDecode;
      s1.touchesLost 2 0x1000 4 = false ∧ s1.stallAt 2 0x1000 4 = none ∧ mdInit cDecode = true ∧ mdEnd cDecode = false ∧
      cDecode.f 14 0 24 = 0 ∧ 0 < cDecode.f 19 0 5) ∧
    (((decodes []).at 0).runs specDecode cUnit = true ∧ mdInit cUnit = false ∧ mdEnd cUnit = false ∧ cUnit.f 14 0 24 = 0 ∧
      (decodes []).session (sessKey 2 15 false) = some (session0 false []) ∧ ((decodes []).at 0).stallAt 2 0x1000 4 = none) ∧
    (((decodes [0, 3]).at 0).runs specDecode cUnit = true ∧ (decodes [0, 3]).session (sessKey 2 15 false) = some (session0 false [0, 3]) ∧
      (∀ i ∈ [0, 3], i < 4) ∧ (session0 false [0, 3]).waiting = []) ∧ (decodes [3]).up 12 = true ∧
    ((filmed.at 0).runs specEncode (cGrab 16) = true ∧ mdEnd (cGrab 16) = false ∧ meCamera (cGrab 16) = true ∧ mdInit (cGrab 16) = true) ∧
    (((encodes 0 false).at 0).runs specEncode (cGrab 0) = true ∧ mdInit (cGrab 0) = false ∧
      (encodes 0 false).session (sessKey 2 15 true) = some { session0 true [] with irPeriod := 0, idrDue := false }) ∧
    (let s := { decodes [] with fns := base.fns };
      (readRange ((s.at 0).launched specDecode cUnit) 2 0x1000 4).stallAt 2 0x1000 4 = none ∧
      (readRange ((base.at 0).launched specDecode cDecode) 2 0x1000 4).stallAt 2 0x1000 4 = none) ∧
    ((session0 true []).ringPos + 1024 ≤ (session0 true []).ringKib * 1024 ∧ 0 < 1024) ∧
    (let x := { session0 true [] with ringPos := 1023 };
      x.ringPos < x.ringKib * 1024 ∧ x.ringKib * 1024 < x.ringPos + 2 ∧ 2 ≤ x.ringKib * 1024) ∧
    (let x := { session0 true [] with cbr := true, kbps := 240 };
      (x.coded + 1100) * 8 * x.fps * 10 ≤ x.kbps * 1000 * 11 ∧ x.kbps * 1000 * 11 < (x.coded + 1101) * 8 * x.fps * 10) ∧
    ((encodes 1 false).up 12 = true ∧ (encodes 1 false).session (sessKey 2 15 true) = some { session0 true [] with irPeriod := 1, idrDue := false }) := by
  decide

def ports0 (macsec : Bool) (filters : Tbl StreamFilter) : State :=
  (base.modEport 7 fun x => { x with link := true, macsec := macsec }).modNet fun n => { n with filters := filters }
def frame0 (len : Nat) : EthFrame :=
  { len := len, fcsOk := true, macsec := true, macsecOk := true, dst := 1, vid := 0, pcp := 0, rtag := none, payload := [] }
def filter0 : StreamFilter := { valid := true, dst := 1, maxSdu := 9216, portMask := 1 }
def gated (k : Gcl) : State := base.modGcl 7 fun _ => k
def synced (src : Nat) : State := { base.modPtp 1 fun x => { x with synced := true } with time := { source := src } }

theorem witness_FramesFiltersGatesAndDomainsRun : ((ports0 true []).up 13 = true ∧ ((ports0 true []).eport 7).link = true) ∧ (63 < 64 ∧ 9216 < 9217) ∧
    (∃ im, (ports0 true []).img = some im ∧ (7 : Fin 8).val ∈ im.macsecReq) ∧
    ((ports0 true [(1023, filter0), (1022, filter0)]).filterFor
        { port := 7, len := 9216, dst := 1, vid := 0, pcp := 0, rtag := none, payload := [], stamp := 0 } = some (1022, filter0) ∧
      ((frame0 9216).len ≤ filter0.maxSdu) ∧ filter0.recoveryEn = false ∧ filter0.portMask < 256) ∧
    (((ports0 true []).eport 7).link = true ∧ (ports0 true []).egressBytes = 0 ∧ ((ports0 true []).gcl 7).pending = false ∧
      ((ports0 true []).gcl 7).oper.enable = false ∧ ((ports0 true []).eport 7).freeAt ≤ (ports0 true []).dt ∧
      ((ports0 true []).eport 7).served ≤ (ports0 true []).dt ∧ ((ports0 true []).eport 7).egress = []) ∧
    (synced 0).time.source ≠ 1 + 1 ∧ (synced 2).time.source = 1 + 1 ∧ ((synced 2).ptp 1).last < max (synced 2).dt 0 ∧
    ((synced 2).ptp 1).synced = true ∧ (∃ t : Nat, ((synced 2).ptp 1).last + 3 * Config.syncInterval ((synced 2).ptp 1).port ≤ max (synced 2).dt t) ∧
    base.canRead 127 13 = true ∧ base.groupOpen 0 6 13 = true := by
  refine ⟨by decide, by decide, ⟨image0, rfl, by decide⟩, by decide, by decide, by decide, by decide, by decide, by decide,
    ⟨3 * Config.syncInterval ((synced 2).ptp 1).port, ?_⟩, by decide, by decide⟩
  rw [show ((synced 2).ptp 1).last = 0 by decide, Nat.zero_add]
  exact Nat.le_max_right _ _
theorem witness_FramesFiltersGatesAndDomainsRun_gates : (((gated { len := 0 }).gcl 7).len = 0) ∧
    (let x := (gated { len := 1, cycle := 1000, entries := [(0, 0x100)] }).gcl 7;
      (1 ≤ x.len ∧ x.len ≤ 256) ∧ (1000 ≤ x.cycle ∧ x.cycle ≤ 1000000000) ∧ ∀ i, i < x.len → gclNs x.entries i ≠ 0) ∧
    (let s := gated { pending := true, change := 1000000000 };
      s.up 13 = true ∧ (s.gcl 7).pending = true ∧ (s.gcl 7).takeover ≤ max s.dt 0) ∧
    ((gated {}).gcl 7).oper.enable = false ∧
    (let g := ((gated { oper := { enable := true, len := 1, cycle := 1000, entries := [(0, 0x3E8FE)] } }).gcl 7);
      g.pending = false ∧ g.oper.enable = true ∧ 0 < g.oper.len ∧ (0, 1000, 0xFE) ∈ g.oper.windows ∧ (0xFE : Nat).testBit 0 = false) ∧
    ((ports0 true []).up 0 = true ∧ ((ports0 true []).eport 7).macsec = true ∧ ((ports0 false []).eport 7).macsec = false) := by decide
theorem witness_FramesFiltersGatesAndDomainsRun_filters : base.reach 0 = true ∧ base.up 13 = true ∧ (1023 ∉ base.net.fixed) ∧ (look base.net.filters 1023 {}).valid = false ∧
    (setFilterWord (look base.net.filters 1023 {}) 0 1#32).portMask.testBit 9 = false ∧
    (let s := base.modNet fun n => { n with fixed := [1023] };
      (1023 ∈ s.net.fixed)) := by decide

def canState0 (n : Nat) : State := base.modCan 1 fun x => { x with state := n, nominal := 500 }
theorem witness_HostQueuesAndCanRun : (lostPart.at 0).runs specNetTx cTx = true ∧ ((lostPart.at 0).launched specNetTx cTx).touchesLost 2 0 60 = true ∧
    (((base.at 0).launched specNetTx cTx).touchesLost 2 0 60 = false ∧ ((base.at 0).launched specNetTx cTx).stallAt 2 0 60 = none ∧ cTx.b 13 4 = false) ∧
    (base.up 13 = true ∧ (base.can 1).state ≠ 2) ∧
    ((canState0 1).can 1).state < 2 ∧ (((canState0 2).can 1).state = 2 ∧ 1408000000 ≤ (max (canState0 2).dt 0 - ((canState0 2).can 1).offAt) * ((canState0 2).can 1).nominal) ∧
    (let s := base.modCan 1 fun x => { x with state := 2, offAt := 999999999, nominal := 500 };
      (s.can 1).state = 2 ∧ (max s.dt 0 - (s.can 1).offAt) * (s.can 1).nominal < 1408000000) ∧
    (let s := { base with img := none };
      s.up 13 = true ∧ (s.can 1).state ≠ 2 ∧ s.img = none) ∧ (base.img = some image0) ∧
    ((readRange ((base.at 0).launched specNetTx cTx) 2 0 60).stallAt 2 0 60 = none) ∧ ((canState0 3).can 1).state = 3 ∧ 127 < 128 := by decide
theorem witness_HostQueuesAndCanRun_noMatch : ∀ im, State.reset.img = some im → ∀ e ∈ im.mapping, (fun (_ : MapEntry) => false) e.2 = false := by
  simp [State.reset]

/-- AUDIO_ROUTE to the shadow bank of one gain entry of input 123 and output 0 in memory; of a bad entry. -/
def cShadow : Cmd := cmd 2 4 0x400 1 [0, 0, 0, 1]
def routed (w0 w1 : Nat) : State :=
  let cells := ((leBytes 4 w0 ++ leBytes 4 w1).zipIdx.filter (fun e => e.1 ≠ 0)).map fun e => ((base.part 1).devAddr e.2, e.1)
  base.modMem fun m => { m with dram := cells }
theorem witness_AudioCommandsRun_limiter : (let l : Limiter := { down := 47 };
      limiterTarget 2147483647 < l.gain ∧ 47 ≤ l.down) ∧
    (let l : Limiter := { gain := 0, up := 2399 };
      l.gain < limiterTarget 0 ∧ 2399 ≤ l.up) := by decide
theorem witness_AudioCommandsRun : base.up 15 = true ∧ (readRange ((base.at 0).launched specRoute cRoute) 2 0 32).stallAt 2 0 32 = none ∧ ((base.at 0).launched specRoute cRoute).touchesLost 2 0 32 = false ∧
    ((base.at 0).launched specRoute cRoute).stallAt 2 0 32 = none ∧
    (arBad (((routed 3 0).at 0).launched specRoute cRoute) cRoute 0 = true ∧ ((routed 3 0).at 0).runs specRoute cRoute = true) ∧
    ((∀ i, i < 1 → arBad (((routed 0xF800 5).at 0).launched specRoute cRoute) cRoute i = false) ∧
      ((routed 0xF800 5).at 0).runs specRoute cRoute = true ∧ arParam (((routed 0xF800 5).at 0).launched specRoute cRoute) cRoute 0 = .gain 0 124 5 ∧
      (base.mayParam 2 (.gain 0 124 5) = false)) ∧
    (arParam (((routed 0xF600 5).at 0).launched specRoute cShadow) cShadow 0 = .gain 0 123 5 ∧ base.mayParam 2 (.gain 0 123 5) = true ∧
      ((routed 0xF600 5).at 0).runs specRoute cShadow = true ∧ cShadow.b 10 0 = false ∧ cRoute.b 10 0 = true ∧ base.accepts 2 12 = true) ∧
    (base.reach 2 = true ∧ base.accepts 2 13 = true) ∧ (0 < 6 ∧ 4 < 5 ∧ 127 < 128) ∧
    ((base.tdm 3).cfg.getLsbD 1 = false ∧ (-1001 : Int) < -1000 ∧ (-1000 : Int) ≤ 1000 ∧
      (let s := base.modTdm 3 fun x => { x with cfg := 2 };
        (s.tdm 3).cfg.getLsbD 1 = true)) ∧
    (let s := base.modTdm 3 fun x => { x with cfgA := 1 };
      (s.tdm 3).cfgA.getLsbD 0 = true ∧ (s.tdm 3).cfgA.getLsbD 1 = false ∧ 250000 ≤ 3 * (max s.dt 0 - (s.tdm 3).syncAt)) ∧
    (let s := base.modTdm 3 fun x => { x with cfgA := 1, syncAt := 999916667 };
      (s.tdm 3).cfgA.getLsbD 0 = true ∧ (s.tdm 3).cfgA.getLsbD 1 = false ∧ 3 * (max s.dt 0 - (s.tdm 3).syncAt) < 250000) := by decide

/-! #### Sense -/

def touch0 : TouchCfg := { fn := 2, enable := true, cols := 4, rows := 4, thr := 1, neg := 1, area := 2, jump := 1, drift := 4, longH := 10, maxH := 10 }
def bytes0 : List Byte := let b := [0x5A, 7, 4, 4, 0, 0, 0, 0] ++ List.replicate 32 (0 : Byte)
  b ++ leBytes 4 (crc32c b)
def contact0 (held : Bool) : Contact := { id := 9, cxn := 0, cyn := 0, cd := 1, x := 0, y := 0, down := 1000000000 - touch0.longNs, held := held }
def touched (held : Bool) : State := (base.modPanel 3 fun x => { x with
    cfg := some touch0, link := true, lastAt := 900000000, contacts := [contact0 held] }).modObj 23 fun x =>
  { x with kind := 1, elec := [47], touched := true, cfg := some touch0, down := 1000000000 - touch0.longNs }
def cObj : Cmd := cmd 2 5 0x502 2 [1 + 23 * 4 + 2 ^ 7, 0, 1, 1 + 2 ^ 16 * 2 + 2 ^ 24, 0, 4]

theorem witness_TouchFramesObjectsAndHoldsRun : (base.up 14 = true ∧ (base.panel 3).coming = none) ∧
    (((touched false).panel 3).coming = some touch0 ∧ frameOk touch0 bytes0 = true) ∧ frameOk touch0 [] = false ∧
    (((touched false).panel 3).link = true ∧ ((touched false).panel 3).lastAt + 100000000 ≤ max (touched false).dt 0) ∧
    (∀ o, o < 24 → (base.obj o).kind = 0 ∧ (base.obj o).pend = []) ∧
    (((touched false).panel 3).cfg = some touch0 ∧ ((touched false).panel 3).contacts.find? (·.id = (9 : Fin 10).val) = some (contact0 false) ∧
      (contact0 false).down + touch0.longNs ≤ max (touched false).dt 0 ∧ touch0.maxH ≠ 0 ∧ (contact0 false).down + touch0.maxNs ≤ max (touched false).dt 0) ∧
    (((touched true).panel 3).contacts.find? (·.id = (9 : Fin 10).val) = some (contact0 true) ∧ (contact0 true).held = true) ∧
    (let s := base.modPanel 3 fun x => { x with link := true, lastAt := 900000001 };
      (s.panel 3).link = true ∧ max s.dt 0 < (s.panel 3).lastAt + 100000000) ∧ ({ touch0 with maxH := 0 }).maxH = 0 ∧
    (((touched false).obj 23).cfg = some touch0 ∧ ((touched false).obj 23).touched = true ∧ ((touched false).obj 23).wait = false ∧
      ((touched false).obj 23).held = false ∧ ((touched false).obj 23).down + touch0.longNs ≤ max (touched false).dt 0) ∧
    ((base.at 0).runs specTouchConfig cObj = true ∧ cObj.f 10 0 2 = 1 ∧ cTouch.f 10 0 2 ≠ 1) := by decide

def effect0 (n prio : Nat) (alarm : Bool) : Effect := { n := n, prio := prio, gain := 255, alarm := alarm, start := 0 }
def channel (st : Nat) (e : Option Effect) (next : Option Effect) : State := base.modHap 7 fun x =>
  { x with state := st, cur := e, next := next, drives := [], arm := some { fn := 2, effect := 1, prio := 0, falling := true, holdoff := 9, gain := 255, until_ := 1000000000 } }
def cEffect (n prio : Nat) : Cmd := cmd 2 5 0x500 1 [7 + n * 2 ^ 3 + prio * 2 ^ 10]
/-- Long drives fill the window of two seconds. -/
def worn : State := base.modHap 7 fun x => { x with drives := [(0, 990000000)] }

theorem witness_HapticChannelsPlayBrakeAndArm_play : (((channel 0 none none).at 0).runs specHapticPlay (cEffect 0 0) = true ∧ ((channel 0 none none).hap 7).state = 0 ∧
      ((channel 0 none none).hap 7).next = none ∧ ((channel 0 none none).hap 7).cur = none) ∧
    (((channel 1 (some (effect0 1 3 false)) none).at 0).runs specHapticPlay (cEffect 0 0) = true) ∧
    (((channel 2 (some (effect0 1 3 false)) none).at 0).runs specHapticPlay (cEffect 127 3) = true ∧
      (((channel 2 (some (effect0 1 3 false)) none).at 0).launched specHapticPlay (cEffect 127 3)).dutyRefuses 7 127 = false) ∧
    (((channel 1 (some (effect0 1 7 true)) none).at 0).runs specHapticPlay (cEffect 1 0) = true) ∧
    (((channel 1 (some (effect0 1 3 false)) none).at 0).runs specHapticPlay (cEffect 1 2) = true ∧
      (((channel 1 (some (effect0 1 3 false)) none).at 0).launched specHapticPlay (cEffect 1 3)).dutyRefuses 7 1 = false) ∧
    (((base.at 0).launched specHapticPlay (cEffect 1 0)).dutyRefuses 7 1 = false ∧ (worn.at 0).runs specHapticPlay (cEffect 96 0) = true ∧
      ((worn.at 0).launched specHapticPlay (cEffect 96 0)).dutyRefuses 7 96 = true ∧ (worn.hap 7).state = 0 ∧ (worn.hap 7).cur = none) := by decide
/-- A channel braking an effect, with one that its HAPTIC_PLAY (the flight) left waiting. -/
def hpFlight : Flight := { id := 9, op := 0x500, cmd := cEffect 2 3, stage := 1, start := 0, isl := 14 }
def waitsTurn (gain : Bool) : State := { (channel 2 (some (effect0 1 3 false)) (some { effect0 2 3 false with flight := some 9 })).modFn 2 fun f =>
  { f with grant := { f.grant with hapticMask := if gain then 0xFF else 0 } } with flights := [hpFlight] }
/-- The state from which a waiting effect begins. -/
def brakes (s : State) : State := s.modHap 7 fun x => { x with state := 0, cur := none }

theorem witness_HapticChannelsPlayBrakeAndArm : (((channel 0 none none).hap 7).arm = some { fn := 2, effect := 1, prio := 0, falling := true, holdoff := 9, gain := 255, until_ := 1000000000 } ∧
      (channel 0 none none).up 14 = true ∧ 1000000000 ≤ max (channel 0 none none).dt 0) ∧ ((channel 0 none none).hap 7).state = 0 ∧
    (((channel 1 none none).hap 7).state ≠ 0 ∧ ((channel 1 none none).hap 7).next = none ∧ ((channel 1 none none).hap 7).miss ≠ 3) ∧
    (let s := (channel 1 none none).modHap 7 fun x => { x with miss := 3 };
      (s.hap 7).state ≠ 0 ∧ (s.hap 7).next = none ∧ (s.hap 7).cur = none ∧ (s.hap 7).miss = 3 ∧ (s.hap 7).open_ = false) ∧
    (((channel 1 (some (effect0 96 3 false)) none).hap 7).state = 1 ∧ ((channel 1 (some (effect0 96 3 false)) none).hap 7).cur = some (effect0 96 3 false)) ∧
    (let s := channel 1 (some (effect0 96 3 false)) none;
      (∀ d ∈ s.planned 7 96 0 0, d.1 + d.2 ≤ max s.dt 0) ∧ (s.cutAt 7 96 0 0).any (· ≤ max s.dt 0) = true) ∧
    (let s := { channel 1 (some (effect0 96 3 false)) none with dt := 0 };
      (∃ d ∈ s.planned 7 96 0 0, max s.dt 0 < d.1 + d.2) ∧ (s.cutAt 7 96 0 0).any (· ≤ max s.dt 0) = false) ∧
    ((∀ r ∈ [(0, 5), (7, 3)], r.2 ≤ 5) ∧ 4 < 5 ∧ 5 ≤ 6) ∧
    (((channel 2 (some (effect0 1 3 false)) none).hap 7).state = 2 ∧ ((channel 2 (some (effect0 1 3 false)) none).hap 7).stops = []) ∧
    (((channel 2 (some (effect0 1 3 false)) (some (effect0 2 3 false))).hap 7).next = some (effect0 2 3 false) ∧
      (brakes (channel 2 (some (effect0 1 3 false)) (some (effect0 2 3 false)))).effectVerdict (effect0 2 3 false) = none ∧
      (brakes (channel 2 (some (effect0 1 3 false)) (some (effect0 2 3 false)))).dutyRefuses 7 2 = false) ∧
    ((brakes (waitsTurn true)).effectVerdict { effect0 2 3 false with flight := some 9 } = none ∧
      (brakes (waitsTurn false)).effectVerdict { effect0 2 3 false with flight := some 9 } = some 5) := by decide

/-! #### Lantern, faults, power, start-up -/

/-- A request of command c with the given payload bytes: the header word, the length, the payload. -/
def request (c n byte0 : Nat) : List Word := (([c, n, byte0] ++ List.replicate 13 0).map (BitVec.ofNat 32))
def msg (mb c n byte0 : Nat) : LanMsg := { mb := mb, words := request c n byte0 }
/-- The message waits; MB11 is the slot of FN 2, which authenticates and holds a nonce. -/
def mail (g : LanMsg) (claims : Tbl Claim) : State :=
  (base.modLan fun l => { l with order := [g], claims := claims, mbs := [(11, { mapped := some 2, nonce := some 5, sigR := some 6 })] }).modFn 2
    fun f => { f with auth := some { flight := 9, slot := 3, limit := 2000000000 } }
def allClaims (own : Nat) : Tbl Claim := (List.range 32).map fun i => (i, ⟨2, true, own⟩)
def slotMail (w0 : Nat) : State := base.modLan fun l => { l with mbs := [(3, { req := [(0, BitVec.ofNat 32 w0)] }), (0, { busy := true })] }

theorem witness_MailboxCommandsAreServed : (base.reach 0 = true ∧ base.up 0 = true ∧ base.mayWrite 0 10 = true ∧ base.mbUser 3 = some 0) ∧
    ((slotMail 1).mbox 0).busy = true ∧ (slotMail 1).mbUser 0 = some 0 ∧
    (((slotMail 1).mbox 3).busy = false ∧ ((slotMail 1).mbox 3).done = false ∧ (slotMail 1).lan.order = [] ∧
      (cmdLen (LanMsg.cmd { mb := 3, words := ((slotMail 1).mbox 3).request })).isSome = true) ∧
    (cmdLen (LanMsg.cmd { mb := 3, words := ((slotMail 0xFF).mbox 3).request }) = none) ∧ (1#32).getLsbD 0 = true := by decide
theorem witness_MailboxCommandsAreServed_queue : (∀ x ∈ [msg 3 1 0 0], x.seen ≠ ({ msg 2 1 0 0 with seen := 8 }).seen) ∧
    (msg 3 1 0 0).seen = (msg 2 1 0 0).seen ∧ (2 < 3) := by decide
theorem witness_MailboxCommandsAreServed_order : ∀ h q, [msg 3 1 0 0] = h :: q → (cmdLen h.cmd).isSome = true := by
  intro h q e; cases e; decide
theorem witness_MailboxCommandsAreServed_commands : (∀ e ∈ [(0x02, 1, 2), (0x03, 1, 31), (0x10, 0, 0), (0x11, 48, 0), (0x12, 48, 0)],
      let g := msg 11 e.1 e.2.1 e.2.2; let s := mail g [];
      s.lan.order = g :: [] ∧ s.up 0 = true ∧ g.malformed = false ∧ s.mbAllowed 11 g.cmd = true) ∧
    (∀ e ∈ [(0x01, 0, 0), (0x20, 1, 3), (0x21, 48, 0), (0x22, 48, 0)], let g := msg 7 e.1 e.2.1 e.2.2; let s := mail g [];
      s.lan.order = g :: [] ∧ s.up 0 = true ∧ g.malformed = false ∧ s.mbAllowed 7 g.cmd = true) ∧
    ((msg 3 1 1 0).malformed = true ∧ (msg 3 2 1 2).malformed = false ∧ (mail (msg 3 2 1 2) []).mbAllowed 3 2 = false ∧ (msg 3 1 0 0).cmd ≠ 2) := by
  decide
theorem witness_MailboxCommandsAreServed_claims : ((mail (msg 11 2 1 2) (allClaims 2)).claimOf 2 2 = some 0) ∧
    ((mail (msg 11 2 1 2) []).claimOf 2 2 = none ∧ (mail (msg 11 2 1 2) []).freeClaim = some 0) ∧
    ((mail (msg 11 2 1 2) (allClaims 4)).claimOf 2 2 = none ∧ (mail (msg 11 2 1 2) (allClaims 4)).freeClaim = none) ∧
    (look (allClaims 4) 31 {}).valid = true ∧ (mail (msg 11 3 1 31) (allClaims 4)).mbUser 11 ≠ some 4 ∧
    (mail (msg 11 3 1 31) (allClaims 2)).mbUser 11 = some (look (allClaims 2) 31 {}).owner ∧ (look ([] : Tbl Claim) 31 {}).valid = false := by
  decide
theorem witness_MailboxCommandsAreServed_signatures : ((mail (msg 11 0x12 48 0) []).mbox 11).nonce = some 5 ∧ ((mail (msg 11 0x12 48 0) []).mbox 11).sigR = some 6 ∧
    ((mail (msg 7 0x22 48 0) []).mbox 7).nonce = none ∧
    (let s := { State.reset with dt := 3000000 };
      max s.dt 0 % 1000000 = 0 ∧ ∀ fn, fn < 64 → s.isSecure fn = true → s.workIn 15 fn = false) := by decide

def logged (n : Nat) : State := base.modFlt fun f => { f with log := List.replicate n { code := 0x302, cls := 1, stamp := 999000000, open_ := false } }

theorem witness_FaultsWatchdogAndStartUp_report : (base.boot.porst = false ∧ faultKnown 15 1 = true ∧ faultClass 15 1 (base.lossNow 15 1) = 0) ∧
    (faultKnown 3 2 = true ∧ faultClass 3 2 ((logged 63).lossNow 3 2) = 1 ∧ (logged 63).flt.log.length < 64 ∧
      (∀ e ∈ (logged 63).flt.log, e.seen < ((logged 63).at 0).stamp 1) ∧
      ∀ e ∈ (logged 63).flt.log.getLast?, e.code = 256 * 3 + 2 → 1000000000 < e.stamp ∨ e.stamp + 1000000 ≤ 1000000000) := by decide
def kicks (at_ dt : Nat) (on : Bool) : State := { base.modFlt fun f => { f with kickAt := at_, wickOn := on } with dt := dt }
theorem witness_FaultsWatchdogAndStartUp_watchdog : base.flt.coresUp = true ∧ (base.boot.loadAt ≠ none ∧ base.wl.evaluated = true) ∧
    ((kicks 990 992000000 false).flt.kicked = true ∧ ((kicks 990 992000000 false).flt.kickAt + 2) * 1000000 ≤ max (kicks 990 992000000 false).dt 0) ∧
    max (kicks 990 991999999 false).dt 0 < ((kicks 990 991999999 false).flt.kickAt + 2) * 1000000 ∧
    (max (kicks 990 991000000 false).dt 0 % 1000000 = 0 ∧ (kicks 990 991000000 false).flt.kickAt < max (kicks 990 991000000 false).dt 0 / 1000000) ∧
    max (kicks 990 991500000 true).dt 0 % 1000000 = 500000 ∧
    (base.reach 1 = true ∧ base.up 1 = true ∧ (logged 1).flt.log[(logged 1).flt.idx]? = some { code := 0x302, cls := 1, stamp := 999000000, open_ := false }) := by
  decide

def booted (f : Boot → Boot) : State := { State.reset with boot := f State.reset.boot }
/-- An image whose one safety head has itself as its partner. -/
def badHeads : Image := { image0 with safetyHeads := [{ head := 0, partner := 0, mode := 1, rate := 4, lanes := 4, lvdsDual := false, blFloor := 0 }] }
theorem witness_FaultsWatchdogAndStartUp : (let s := booted fun b => { b with rails := true };
      s.boot.rails = true ∧ s.boot.porst = true) ∧
    (let s := booted fun b => { b with rails := true, porst := false };
      s.boot.lantern = false ∧ s.lan.life = 1) ∧
    (let s := booted fun b => { b with rails := true, filled := true };
      s.boot.porst = true ∧ s.boot.filled = true ∧ s.boot.lantern = false ∧ s.lan.lifeNext = 1) ∧ (1000 ≤ 1000 ∧ 999 < 1000) ∧
    (∀ k ∈ [0, 1, 2], let s := booted fun b => { b with lantern := true, comp := k };
      s.boot.lantern = true ∧ s.boot.stage ≠ 6 ∧ s.boot.comp = k ∧ s.boot.slot < 2 ∧ s.boot.failA = false ∧ s.boot.failB = false) ∧
    (let s := { base.modBoot fun b => { b with loadAt := none, comp := 3 } with img := none };
      s.flt.coresUp = true ∧ 3 ≤ s.boot.comp ∧ s.boot.loadAt = none ∧ (∀ i ∈ [10, 11, 13, 14, 15], s.railHolds i = true)) ∧
    (Image.headsOk image0 = true ∧ Image.headsOk badHeads = false) ∧
    (let s := booted fun b => { b with lantern := true, comp := 3 };
      s.boot.stage ≠ 6 ∧ s.boot.comp = 3 ∧ s.boot.loadAt = none) ∧
    (let s := booted fun b => { b with lantern := true, comp := 3, slot := 1, failA := true };
      s.boot.stage ≠ 6 ∧ s.boot.comp < 4 ∧ (s.boot.failA = true ∨ s.boot.slot = 0) ∧ (s.boot.failB = true ∨ s.boot.slot = 1)) ∧
    ((base.port 0).since = some 0 ∧ base.up 2 = true ∧ base.boot.memRdy = true ∧ (base.port 0).link = true ∧ 0 + 30000000 ≤ max base.dt 0) ∧
    (let s : State := { base with dt := 29999999 };
      max s.dt 0 < 0 + 30000000) ∧
    (let s := { base.modHead 1 fun d => { d with link := 0 } with dt := 400000000 };
      isDp 1 = true ∧ (s.safeOf 1).safety = true ∧ s.boot.loadAt ≠ none ∧ (s.safeOf 1).fault = false ∧ (s.head 1).link ≠ 3 ∧
      s.startAt + 400000000 ≤ max s.dt 0) ∧ (base.head 0).link = 3 := by decide

def islands (i st : Nat) (fl : List Flight) : State := { base.modIsl i fun x => { x with power := st } with flights := fl }
def worker : Flight := { id := 9, op := 0x600, cmd := cTx, stage := 1, start := 0, isl := 12 }
def pw (isl st : Nat) : Word := BitVec.ofNat 32 (isl + 16 * st)

theorem witness_PowerRailsHeatAgeingAndSmbusRun_requests : (claimed.watchOpen 0 = true ∧ 2 ≤ (pw 10 0).toNat % 16 ∧ claimed.heldBack 0 10 = true) ∧
    (base.watchOpen 0 = true ∧ (pw 1 0).toNat % 16 < 2 ∧ base.powerDenied 1 0 = true) ∧
    (base.heldBack 0 12 = false ∧ base.powerDenied 12 0 = false ∧ (base.island 12).power = 0 ∧ (base.island 12).retReq = none) ∧
    (base.powerDenied 12 3 = false ∧ (pw 12 3).toNat / 16 % 4 = 3) ∧
    ((islands 12 3 []).watchOpen 0 = true ∧ (islands 12 3 []).powerDenied 12 1 = false ∧ ((islands 12 3 []).island 12).power = 3) ∧
    ((islands 12 0 [worker]).powerDenied 12 2 = false ∧ ∃ f ∈ (islands 12 0 [worker]).flights, f.isl = 12) ∧
    (∀ f ∈ base.flights, f.isl ≠ 12) ∧ (base.island 12).inReset = false ∧
    ((islands 12 3 []).powerDenied 12 2 = false ∧ (pw 12 2).toNat / 16 % 4 = 2) := by decide
theorem witness_PowerRailsHeatAgeingAndSmbusRun : (let s := base.modIsl 13 fun x => { x with retReq := some (0, 990000000) };
      (s.island 13).retReq = some (0, 990000000) ∧ (s.island 13).inReset = false ∧ (∀ f ∈ s.flights, f.isl ≠ 13) ∧ 990000000 + 10000000 ≤ max s.dt 0) ∧
    max base.dt 0 < 990000001 + 10000000 ∧ ((islands 13 1 []).island 13).power = 1 ∧
    (let s := base.modPwr fun p => { p with device := 1, wake := true };
      s.flt.coresUp = true ∧ s.pwr.device = 1 ∧ s.img ≠ none ∧ s.pwr.wake = true ∧ s.pwr.shut = false ∧
      ∀ i, i < 16 → 2 ≤ i → i ≠ 5 ∨ s.boot.memcfg = true → s.railHolds i = true) ∧ (5 ≤ 15 + 10 ∧ 15 ≤ 5 + 10) ∧
    (stepTo (base.rail 0).set (base.railGoal 0) + 10 < 21 ∧ 20 ≤ stepTo (base.rail 0).set (base.railGoal 0) + 10 ∧
      stepTo (base.rail 0).set (base.railGoal 0) ≤ 20 + 10 ∧ (base.rail 0).bad = false) ∧
    (let s := base.modRail 0 fun x => { x with bad := true };
      (s.rail 0).bad = true) := by decide
theorem witness_PowerRailsHeatAgeingAndSmbusRun_heat : (base.flt.coresUp = true ∧ base.img ≠ none ∧
      (∀ i, i < 24 → (Vector.replicate 24 (839 : Int)).toList.getD i 0 < 8 * ((base.modPwr fun p => { p with throttle := 105 }).pwr.throttle : Int)) ∧
      ((∀ i, i < 24 → (Vector.replicate 24 (999 : Int)).toList.getD i 0 < 1000)) ∧
      (∃ i, i < 24 ∧ 1000 ≤ (Vector.replicate 24 (1000 : Int)).toList.getD i 0) ∧ base.boot.porst = false ∧ base.pwr.shut = false) := by decide
theorem witness_PowerRailsHeatAgeingAndSmbusRun_throttling : ∀ i, (State.reset.island i).throttling = false ∧ (State.reset.island i).top ≤ (State.reset.island i).limit := by
  intro i; exact ⟨rfl, Nat.le_refl _⟩
theorem witness_PowerRailsHeatAgeingAndSmbusRun_ageing : (∀ i k, i < 16 → k < 4 → ((Vector.replicate 64 (0 : Nat)).toList.getD (4 * i + k) 0) * topBinKhz i (base.island i) ≤
      1000000000 - 30 * topBinKhz i (base.island i)) ∧ (∀ i, i < 16 → topBinKhz i (base.island i) ≤ 30000000) ∧
    ((base.modIsl 15 fun x => { x with exhausted := true }).island 15).exhausted = true ∧
    ((base.island 15).exhausted = false ∧ (base.island 15).power < 2 ∧ ∃ k, k < 4 ∧ 1000000000 < ((List.replicate 64 3000).getD (4 * 15 + k) 0 + 30) * topBinKhz 15 (base.island 15)) := by
  have h : ∀ i, i < 16 → ∀ k, k < 4 → (Vector.replicate 64 (0 : Nat)).toList.getD (4 * i + k) 0 * topBinKhz i (base.island i) ≤
      1000000000 - 30 * topBinKhz i (base.island i) := by decide
  exact ⟨fun i k hi hk => h i hi k hk, by decide⟩
theorem witness_PowerRailsHeatAgeingAndSmbusRun_requirement : ∀ i, i < 16 → (base.island i).vReq ≤ Config.vInit i := by
  have h : ∀ i, i < 16 → (base.island i).vReq = 0 := by decide
  intro i hi; rw [h i hi]; exact Nat.zero_le _
theorem witness_PowerRailsHeatAgeingAndSmbusRun_smbus : base.smbOpen = true ∧ (base.img = some image0 ∧ image0.standbySmbus = true) ∧
    (let s := { base with img := none };
      s.smbOpen = true ∧ s.img = none) ∧ base.pwr.device ≠ 1 ∧
    (let s := base.modPwr fun p => { p with device := 1 };
      s.smbOpen = true ∧ s.pwr.device = 1) ∧
    (let s := base.modFlt fun f => { f with pin := true };
      s.smbOpen = true ∧ s.flt.pin = true ∧ s.boot.loadAt ≠ none) ∧ base.flt.pin = false := by decide

/-! ### Worked examples of the spec -/

/-- R227: the check value of CRC-32C over "123456789". -/
theorem test_crc32c : crc32c [0x31, 0x32, 0x33, 0x34, 0x35, 0x36, 0x37, 0x38, 0x39] = 0xE3069283 := by decide
/-- Chapter 2: SQ_LOG2 6, consumer 60: INDEX 1, GEN 1 leaves 5 slots, GEN 0 leaves 69. -/
theorem test_pending_slots : let s := base.modQ 2 0 fun u => { u with cons := 60 };
    s.doorbellSlots 2 0 1 true = 5 ∧ s.doorbellSlots 2 0 1 false = 69 := by decide
/-- Chapter 8: CH_MASK 0x0F, SIZE 64 at 0x0400_0000: usable offset 0x12345 and its check byte, both in CH3. -/
theorem test_interleave : let p : Part := { mask := 0x0F, size := 64, base := 1 };
    p.usable = 3584 * 1048576 ∧ p.devAddr 0x12345 = 3 * 2 ^ 34 + 0x04004845 ∧ p.chkAddr (p.devAddr 0x12345) = 3 * 2 ^ 34 + 0x3C000908 := by
  decide
/-- Chapter 3: mode 0x1B at ten bits: HBR3 x 4, UHBR10 x 4, UHBR13.5 x 4, UHBR10 x 2, UHBR13.5 x 2. -/
theorem test_candidates : candidates (modeOf 0x1B) 2 6 4 6 4 = [(4, 4), (4, 5), (4, 6), (2, 5), (2, 6)] := by decide
/-- Chapter 1: a signal with a limit of 100 ms stamped at 7200 ms is fresh until just before 7300 ms. -/
theorem test_freshness : let s := base.modSig 7 fun x => { x with stamp := some 7200000000 };
    s.staleAt 7 7299999999 = false ∧ s.staleAt 7 7300000000 = true := by decide
/-- Chapter 10: CHANGE_TIME 10.4 ms on a 1 ms cycle from 0: the new list takes over at 11 ms. -/
theorem test_takeover : ({ change := 10400000, oper := { enable := true } } : Gcl).takeover = 11000000 := by decide
/-- Chapter 1 (R40): stamps are quantised downward to the clock period: 1.25 ns in Watch, 2.5 ns at 400 MHz. -/
theorem test_stamp : ({ base with dt := 1000000003 }).stamp 1 = 1000000002 ∧ ({ base with dt := 1000000009 }).stamp 0 = 1000000007 := by decide
/-- FAB_ARB_PRIO at reset: the priorities of ports 0, 8 and 15. -/
theorem test_priorities : (base.target 0).prio 0 = 8 ∧ (base.target 0).prio 8 = 4 ∧ (base.target 0).prio 15 = 14 := by decide

/-- Chapter 3: a camera of 16.6750 ms per frame on a head in mode 0x0F is matched by a trim of -500 ppm. -/
theorem test_trim : trimTarget (modeOf 0x0F) 16675000 0 = -500 := by decide +kernel
/-- Chapter 7: E 4.6 ms, D 14.8 ms and a margin of 200 us: short of time first at the 1 us evaluation after 10 ms. -/
theorem test_deadline : let s := fun (t : Time) => { base.modCtx 0 fun x => { x with queue := [9], dls := [(9, 14800000)], ests := [4600000] } with dt := t };
    (s 10000000).short 0 = false ∧ (s 10001000).short 0 = true := by decide
/-- R312: 1024 x 1024 texels of 32 bits have 64, 16, 4 and 1 blocks above a mip tail of one page. -/
theorem test_sparse_pages : ({ table := 0, map := 0, w := 1024, h := 1024, levels := 11, bits := 32 } : SparseImage).layerPages = 86 := by decide
/-- Chapter 7: a pass of 3840 x 2160 has 8160 tiles. -/
theorem test_tiles : tileCount 3840 2160 = 8160 := by decide
/-- R337: of two runs of passing taps the longer one is the eye, and its first tap is kept. -/
theorem test_eye : eyeOf 0x7F8 = (8, 3) ∧ eyeOf 0x7F80F = (8, 11) := by decide

/-! ### What WellFormed refuses -/

theorem test_wf_access : (Instr.registerWrite 0 ⟨0, 0, 3, 0, false, false⟩).wellFormed = false ∧
    (Instr.registerWrite 0 ⟨0, 2 ^ 32 - 3, 4, 0, false, false⟩).wellFormed = false ∧
    (Instr.registerWrite 0 ⟨0, 2 ^ 32 - 4, 4, 0, false, false⟩).wellFormed = true ∧
    (Instr.hlRelease 0 2 .window 0).wellFormed = false ∧ (Instr.hlTornClear 0 127 .window 0).wellFormed = false ∧
    (Instr.hlRelease 0 1 .window 0).wellFormed = true := by decide
theorem test_wf_command : (Instr.nop 0 { cNop with words := [] }).wellFormed = false ∧
    (Instr.nop 0 { cNop with words := 0x2000001#32 :: cNop.words.drop 1 }).wellFormed = false ∧ (Instr.nop 0 cNop).wellFormed = true ∧
    (Instr.vfCreate 0 cCreate).wellFormed = true := by decide
theorem test_wf_line : (Instr.tailLine 0 0 4320 0 0).wellFormed = false ∧ (Instr.tailLine 0 0 0 8193 0).wellFormed = false ∧
    (Instr.tailLine 0 0 0 0 0x40000000#32).wellFormed = false ∧ (Instr.tailLine 0 0 4319 8192 0x3FFFFFFF#32).wellFormed = true ∧
    (Instr.safetyLineRender 0 0 4320 {}).wellFormed = false := by decide
theorem test_wf_aux : (Instr.auxReply 0 0 0 (List.replicate 17 0)).wellFormed = false ∧ (Instr.auxReply 0 0 0 (List.replicate 16 0)).wellFormed = true := by
  decide
theorem test_wf_telegram : (Instr.telegramAccept 0 0 (List.replicate 9217 0) 0).wellFormed = false := by decide +kernel
theorem test_wf_training : (Instr.channelTrainingDone 0 0 { trained 32 true with capacity := 0 }).wellFormed = false ∧
    (Instr.channelTrainingDone 0 0 { trained 32 true with rd := Vector.replicate 4 [] }).wellFormed = false ∧
    (Instr.channelTrainingDone 0 0 { trained 32 true with wr := Vector.replicate 4 (List.replicate 17 0) }).wellFormed = false ∧
    (Instr.channelTrainingDone 0 0 (trained 32 true)).wellFormed = true := by decide
theorem test_wf_request : ({ req0 1 0 0 with addr := 2 ^ 37 }).wellFormed = false ∧ ({ req0 1 0 0 with data := [0] }).wellFormed = false ∧ ({ req0 1 0 0 with wback := true }).wellFormed = false ∧
    ({ req0 1 0 0 with write := true, data := List.replicate 65 0 }).wellFormed = false ∧ ({ req0 1 0 0 with source := 256 }).wellFormed = false ∧
    (req0 1 0 0).wellFormed = true ∧ (Instr.controllerCycle 0 0 [{ req0 1 0 0 with addr := 2 ^ 37 }] 0).wellFormed = false ∧
    (Instr.cacheLineLost 0 (2 ^ 30)).wellFormed = false := by decide
theorem test_wf_frames : ({ frame0 64 with dst := 2 ^ 48 }).wellFormed = false ∧ ({ frame0 64 with vid := 4096 }).wellFormed = false ∧
    ({ frame0 64 with rtag := some 65536 }).wellFormed = false ∧ (frame0 17).wellFormed = false ∧
    ({ frame0 64 with macsec := false }).wellFormed = false ∧ (frame0 64).wellFormed = true := by decide
theorem test_wf_can : (CanFrame.wellFormed ⟨2048, false, false, []⟩) = false ∧ (CanFrame.wellFormed ⟨2 ^ 29, true, false, []⟩) = false ∧
    (CanFrame.wellFormed ⟨2048, true, false, List.replicate 65 0⟩) = false ∧ (CanFrame.wellFormed ⟨2047, false, false, List.replicate 64 0⟩) = true := by
  decide
theorem test_wf_media : (Instr.mediaPicture 0 0 0 (2 ^ 32)).wellFormed = false := by decide
theorem test_wf_audio : (Instr.sampleBoundary 0 [(64, 0)] []).wellFormed = false ∧ (Instr.sampleBoundary 0 [] [(1, 0), (1, 0)]).wellFormed = false ∧
    (Instr.sampleBoundary 0 [(0, 2147483648)] []).wellFormed = false ∧ (Instr.sampleBoundary 0 [] [(63, 2147483647)]).wellFormed = true := by decide
theorem test_wf_touch : (Instr.touchLongHold 0 false 4 0).wellFormed = false ∧ (Instr.maxHoldRecal 0 false 4 0).wellFormed = false ∧
    (Instr.touchLongHold 0 true 23 9).wellFormed = true := by decide
theorem test_wf_touchFrame : (Instr.touchFrame 0 0 (List.replicate 7693 0)).wellFormed = false := by decide +kernel
theorem test_wf_temperatures : (Instr.thermalCheck 0 (Vector.replicate 24 2048)).wellFormed = false ∧
    (Instr.thermalShutdown 0 (Vector.replicate 24 (-2049))).wellFormed = false ∧ (Instr.thermalCheck 0 (Vector.replicate 24 (-2048))).wellFormed = true ∧
    (Instr.railStep 0 0 65536).wellFormed = false := by decide
theorem test_wf_image : (Instr.imageLoad 0 { image0 with mapping := [(512, entry0)] }).wellFormed = false ∧
    (Instr.imageLoad 0 { image0 with rules := [(0, rule0), (0, rule0)] }).wellFormed = false ∧
    (Instr.imageLoad 0 { image0 with fallback := [(0x100000, 0)] }).wellFormed = false ∧
    (Instr.imageLoad 0 { image0 with macsecReq := [8] }).wellFormed = false ∧
    (Instr.imageLoad 0 { image0 with canNominal := Vector.replicate 2 124 }).wellFormed = false ∧
    (Instr.imageLoad 0 { image0 with canData := Vector.replicate 2 8001 }).wellFormed = false ∧ (Instr.imageLoad 0 image0).wellFormed = true := by decide
theorem test_wf_link : (Instr.pcieLinkUp 0 0 0 4).wellFormed = false ∧ (Instr.pcieLinkUp 0 0 5 3).wellFormed = false ∧
    (Instr.pcieLinkUp 0 0 5 16).wellFormed = true ∧ (Instr.sriovVfEnable 0 0 63).wellFormed = false ∧
    (Instr.arbitrationDecision 0 0 0x30).wellFormed = false := by decide
end Sys2Proof.Tests
end

section
/-! SUPPORT. Writes of registers (R10-R14, R55, R56, R62-R65, Table 02.2): where an offset lands, what REGISTER_WRITE does
there, and from it the statement on register accesses. -/

namespace Sys2Proof.Machine

/-! ### Offsets in an array of registers -/

theorem indexIn_beyond {off base stride n : Nat} (hs : 0 < stride) (h : base + stride * n ≤ off) :
    indexIn off base stride n = none := by
  have hn : n ≤ (off - base) / stride := (Nat.le_div_iff_mul_le hs).2 (by rw [Nat.mul_comm]; omega)
  simp [indexIn, Nat.not_lt.mpr hn]

theorem indexIn_entry {base stride n k : Nat} (hs : 0 < stride) (hk : k < n) :
    indexIn (base + stride * k) base stride n = some k := by
  simp [indexIn, Nat.mul_div_cancel_left k hs, hk]

/-! ### What device time and a queue's registers do not touch -/

@[simp] theorem at_reach (s : State) (t : Time) (fn : Nat) : (s.at t).reach fn = s.reach fn := rfl
@[simp] theorem at_nQueues (s : State) (t : Time) (fn : Nat) : (s.at t).nQueues fn = s.nQueues fn := rfl
@[simp] theorem at_barOpen (s : State) (t : Time) (fn : Nat) : (s.at t).barOpen fn = s.barOpen fn := rfl
@[simp] theorem modQ_reach (s : State) (fn q : Nat) (f : Queue → Queue) (i : Nat) : (s.modQ fn q f).reach i = s.reach i := rfl
@[simp] theorem modQ_nQueues (s : State) (fn q : Nat) (f : Queue → Queue) (i : Nat) :
    (s.modQ fn q f).nQueues i = s.nQueues i := rfl

/-! ### Updates that agree on the entry they change -/

theorem modFn_congr {s : State} {fn : Nat} {f g : Func → Func} (h : f (s.fnc fn) = g (s.fnc fn)) :
    s.modFn fn f = s.modFn fn g := by
  unfold State.modFn; rw [h]

theorem modQ_congr {s : State} {fn q : Nat} {f g : Queue → Queue} (h : f (s.que fn q) = g (s.que fn q)) :
    s.modQ fn q f = s.modQ fn q g := by
  unfold State.modQ; rw [h]

/-- With no event lost there is nothing to report (R78). -/
theorem flushLost_of_lost_zero (s : State) (fn : Nat) (h : (s.fnc fn).lost = 0) : flushLost s fn = s := by
  simp [flushLost, h]

/-! ### The function page (Table 02.2) -/

/-- The registers of the queues (R62). -/
theorem pageWrite_queue (s : State) (fn : Nat) {q r : Nat} (w : Word) (hq : q < 16) (hn : q < s.nQueues fn) (hr : r < 0x20) :
    pageWrite s fn (0x200 + 0x20 * q + r) w = s.modQ fn q fun u => queueWrite u r w := by
  have hev : 0x200 + 0x20 * q + r ≠ 0x104 := by omega
  have hsl : 0x200 + 0x20 * q + r ≠ 0x188 := by omega
  have hbeyond : ∀ base n, base + 4 * n ≤ 0x200 → indexIn (0x200 + 0x20 * q + r) base 4 n = none :=
    fun base n h => indexIn_beyond (by decide) (by omega)
  have hlow : 0x200 ≤ 0x200 + 0x20 * q + r := by omega
  have hin : 0x200 + 0x20 * q + r < 0x400 := by omega
  have hdiv : (0x200 + 0x20 * q + r - 0x200) / 0x20 = q := by omega
  have hmod : (0x200 + 0x20 * q + r) % 0x20 = r := by omega
  unfold pageWrite
  simp [hev, hsl, hbeyond, hlow, hin, hdiv, hmod, hn]

/-- FEAT_ACCEPT (R63). -/
theorem pageWrite_accept (s : State) (fn : Nat) {k : Nat} (w : Word) (hk : k < 4) :
    pageWrite s fn (0x1010 + 4 * k) w = s.modFn fn fun f => acceptWrite f k w := by
  have hev : 0x1010 + 4 * k ≠ 0x104 := by omega
  have hsl : 0x1010 + 4 * k ≠ 0x188 := by omega
  have hqueue : ¬ 0x1010 + 4 * k < 0x400 := by omega
  have hbeyond : ∀ base n, base + 4 * n ≤ 0x1010 → indexIn (0x1010 + 4 * k) base 4 n = none :=
    fun base n h => indexIn_beyond (by decide) (by omega)
  unfold pageWrite
  simp [hev, hsl, hqueue, hbeyond, indexIn_entry, hk]

/-- FN_CTRL.EVENT_QUEUE: with no event lost there is nothing to report to the new event queue (R78). -/
theorem pageWrite_eventQueue (s : State) (fn : Nat) (w : Word) (h : (s.fnc fn).lost = 0) :
    pageWrite s fn 0x104 w = s.modFn fn fun f => { f with eventQ := fld w 0 4 } := by
  unfold pageWrite
  simp [flushLost_of_lost_zero, h]

/-- Q_SQ_BASE_LO (R62). -/
theorem pageReg_sqBaseLo (s : State) (fn : Nat) {q : Nat} (hq : q < 16) (hn : q < s.nQueues fn) :
    pageReg s fn (0x200 + 0x20 * q) = lo32 (s.que fn q).sqBase := by
  have hst : 0x200 + 0x20 * q ≠ 0x100 := by omega
  have hev : 0x200 + 0x20 * q ≠ 0x104 := by omega
  have hsl : 0x200 + 0x20 * q ≠ 0x188 := by omega
  have hbeyond : ∀ base n, base + 4 * n ≤ 0x200 → indexIn (0x200 + 0x20 * q) base 4 n = none :=
    fun base n h => indexIn_beyond (by decide) (by omega)
  have hin : 0x200 + 0x20 * q < 0x400 := by omega
  have hmod : (0x200 + 0x20 * q) % 0x20 = 0 := by omega
  unfold pageReg
  simp [hst, hev, hsl, hbeyond, hin, hmod, Nat.not_le.mpr hn]

/-! ### What a queue register and FEAT_ACCEPT store -/

/-- Base registers, and Q_CFG without ENABLE, of an enabled queue are not written (R62). -/
theorem queueWrite_enabled {u : Queue} {r : Nat} (w : Word) (hu : u.enable = true) (hr : r ∈ [0, 4, 8, 12, 16]) :
    queueWrite u r w = u := by
  simp only [List.mem_cons, List.not_mem_nil, or_false] at hr
  rcases hr with rfl | rfl | rfl | rfl | rfl <;> simp [queueWrite, hu]

theorem queueWrite_sqBaseLo {u : Queue} (w : Word) (hu : u.enable = false) :
    queueWrite u 0 w = { u with sqBase := u.sqBase / 2 ^ 32 * 2 ^ 32 + w.toNat } := by
  simp [queueWrite, hu, setHalf]

theorem lo32_setLow (x : Nat) (w : Word) : lo32 (x / 2 ^ 32 * 2 ^ 32 + w.toNat) = w.toNat := by
  have := w.isLt
  unfold lo32; omega

/-- The acceptance stands while the 1240 decides and once FEATURES_OK is kept (R65). -/
theorem acceptWrite_bound {f : Func} (k : Nat) (w : Word) (h : f.deciding = true ∨ f.featOk = true) :
    acceptWrite f k w = f := by
  simp [acceptWrite, h]

/-! ### An access of a function reaches its page -/

/-- Where the page of a function begins in its BAR 0: 0x80000 for a PF (Table 02.1). -/
def pageBase (fn : Nat) : Nat := if fn < 2 then 0x80000 else 0

theorem barWrite_page (s : State) (fn : Nat) {off : Nat} (w : Word) (h : off < 0x10000) :
    barWrite s fn (0x80000 + off) w = pageWrite s fn off w := by
  have hwin : (0x80000 + off) / 0x100000 = 0 := by omega
  have hoff : (0x80000 + off) % 0x100000 = 0x80000 + off := by omega
  have hin : 0x80000 + off < 0x90000 := by omega
  simp [barWrite, hwin, hoff, ownRow, hin]

theorem barReg_page (s : State) (fn : Nat) {off : Nat} (h : off < 0x10000) :
    barReg s fn (0x80000 + off) = pageReg s fn off := by
  have hwin : (0x80000 + off) / 0x100000 = 0 := by omega
  have hoff : (0x80000 + off) % 0x100000 = 0x80000 + off := by omega
  have hin : 0x80000 + off < 0x90000 := by omega
  simp [barReg, hwin, hoff, hin]

theorem exec_registerWrite (t : Time) (a : Access) (s : State) : exec (.registerWrite t a) s = execRegisterWrite t a s := rfl

theorem registerWrite_page {s : State} (t : Time) {fn : Fin 64} {a off : Nat} (v : Word) (hr : s.reach fn = true)
    (ha : a = pageBase fn + off) (h4 : off % 4 = 0) (hoff : off < 0x10000) :
    exec (.registerWrite t (.word fn a v)) s = .next (pageWrite (s.at t) fn off v) := by
  subst ha
  rw [exec_registerWrite]
  by_cases hpf : fn.val < 2
  · have h4' : (0x80000 + off) % 4 = 0 := by omega
    simp [execRegisterWrite, Access.word, pageBase, hpf, hr, h4', barWrite_page, hoff]
  · simp [execRegisterWrite, Access.word, pageBase, hpf, hr, h4, hoff]

theorem readReg_page {s : State} {fn a off : Nat} (hr : s.reach fn = true) (ha : a = pageBase fn + off)
    (h4 : off % 4 = 0) (hoff : off < 0x10000) : s.readReg fn a 4 = pageReg s fn off := by
  subst ha
  by_cases hpf : fn < 2
  · have h4' : (0x80000 + off) % 4 = 0 := by omega
    simp [State.readReg, pageBase, hpf, hr, h4', barReg_page, hoff]
  · simp [State.readReg, pageBase, hpf, hr, h4, hoff]

/-! ### Group windows and the registers of a head -/

theorem groupWrite_noAccess {s : State} {fn grp : Nat} (k : State → State) (h : s.mayWrite fn grp = false) :
    groupWrite s fn grp true k = s.dropGroup := by
  simp [groupWrite, h]

/-- The Fabric, Media, Network, Sense, Audio and Watch windows, without write access (R55). -/
theorem barWrite_noAccess {s : State} {fn g isl o : Nat} (w : Word)
    (hg : (g, isl) ∈ [(1, 3), (5, 12), (6, 13), (7, 14), (8, 15), (9, 1)]) (ho : o < 0x100000)
    (hrow : ownRow g o = false) (hup : s.up isl = true) (hno : s.mayWrite fn g = false) :
    barWrite s fn (g * 0x100000 + o) w = s.dropGroup := by
  have hdiv : (g * 0x100000 + o) / 0x100000 = g := by omega
  have hmod : (g * 0x100000 + o) % 0x100000 = o := by omega
  unfold barWrite
  simp only [hdiv, hmod, hrow]
  simp only [List.mem_cons, Prod.mk.injEq, List.not_mem_nil, or_false] at hg
  rcases hg with ⟨rfl, rfl⟩ | ⟨rfl, rfl⟩ | ⟨rfl, rfl⟩ | ⟨rfl, rfl⟩ | ⟨rfl, rfl⟩ | ⟨rfl, rfl⟩ <;>
    simp [hup, groupWrite_noAccess _ hno]

/-- A register of a head's block that is not the secure world's, outside the check regions (R154). -/
theorem mntWrite_headReg (s : State) (fn : Nat) {h r : Nat} (w : Word) (hh : h < 12) (hr : r < 0x100) (hgamma : r ≠ 0x40)
    (haux : r ≠ 0x50) :
    mntWrite s fn (0x80000 + 0x1000 * h + r) w = headWrite s fn h false fun s => s.modHead h fun d => headReg d h r w := by
  have hlow : 0x80000 ≤ 0x80000 + 0x1000 * h + r := by omega
  have hin : 0x80000 + 0x1000 * h + r < 0x8C000 := by omega
  have hdiv : (0x80000 + 0x1000 * h + r - 0x80000) / 0x1000 = h := by omega
  have hmod : (0x80000 + 0x1000 * h + r) % 0x1000 = r := by omega
  unfold mntWrite
  simp [hlow, hin, hdiv, hmod, Nat.not_le.mpr hr, hgamma, haux]

/-! ### REGISTER_WRITE, clause by clause -/

/-- R10. -/
theorem registerWrite_narrow {s : State} (t : Time) {a : Access} (hb : a.bar2 = false) (h : a.size ≠ 4 ∨ a.off % 4 ≠ 0) :
    exec (.registerWrite t a) s = .next (s.at t) ∧ s.readReg a.fn a.off a.size = 0 := by
  constructor
  · rw [exec_registerWrite]
    rcases h with h | h <;> simp [execRegisterWrite, hb, h]
  · rcases h with h | h <;> simp [State.readReg, h]

/-- R56, R106. -/
theorem registerWrite_bar2 {s : State} (t : Time) {a : Access} (hb : a.bar2 = true) (hw : a.watch = false) :
    exec (.registerWrite t a) s = .next (if s.barOpen a.fn then
      memWrite (s.at t) a.fn a.off (leBytes (min a.size 4) a.val.toNat) else s.at t) := by
  cases ho : s.barOpen a.fn <;> simp [exec_registerWrite, execRegisterWrite, hb, hw, ho]

/-- MNT_BL_DUTY, written by the Watch island (R154). -/
theorem registerWrite_blDuty {s : State} (t : Time) (h : Fin 12) (fn : Fin 64) (v : Word)
    (ho : s.headOpen 0x41 h false = true) :
    exec (.registerWrite t { fn := fn, off := 0x80000 + 0x1000 * h.val + 0x34, size := 4, val := v, watch := true }) s =
      .next ((s.at t).modHead h fun d => { d with blDuty := v &&& 0x0FFF0FFF }) := by
  have hoff : (0x80000 + 0x1000 * h.val + 0x34) % 4 = 0 := by omega
  have hreg : (0x80000 + 0x1000 * h.val + 0x34) % 0x1000 = 0x34 := by omega
  have hrow : ownRow 4 (0x80000 + 0x1000 * h.val + 0x34) = false := by simp [ownRow, hreg]
  simp only [exec_registerWrite, execRegisterWrite, if_true, hoff, hrow, decide_true, Bool.not_false, Bool.and_self]
  rw [mntWrite_headReg _ _ _ h.isLt (by decide) (by decide) (by decide), headWrite_open _ _ _ _ _ _ ho]
  rfl

/-- R55, R576. -/
theorem registerWrite_noAccess {s : State} (t : Time) {fn : Fin 64} {g isl o : Nat} (v : Word) (hpf : fn.val < 2)
    (hg : (g, isl) ∈ [(1, 3), (5, 12), (6, 13), (7, 14), (8, 15), (9, 1)]) (ho : o < 0x100000) (h4 : o % 4 = 0)
    (hrow : ownRow g o = false) (hr : s.reach fn = true) (hup : s.up isl = true) (hno : s.mayWrite fn g = false) :
    exec (.registerWrite t (.word fn (g * 0x100000 + o) v)) s = .next (s.at t).dropGroup := by
  have hoff : (g * 0x100000 + o) % 4 = 0 := by omega
  simp [exec_registerWrite, execRegisterWrite, Access.word, hpf, hr, hoff, barWrite_noAccess (s := s.at t) v hg ho hrow hup hno]

/-- FN_CTRL.EVENT_QUEUE (Table 02.2). -/
theorem registerWrite_eventQueue {s : State} (t : Time) {fn : Fin 64} {a : Nat} (v : Word) (hr : s.reach fn = true)
    (ha : a = pageBase fn + 0x104) (hlost : (s.fnc fn).lost = 0) :
    exec (.registerWrite t (.word fn a v)) s = .next ((s.at t).modFn fn fun f => { f with eventQ := fld v 0 4 }) := by
  rw [registerWrite_page t v hr ha (by decide) (by decide), pageWrite_eventQueue _ _ _ (by simpa using hlost)]

/-- R65. -/
theorem registerWrite_acceptBound {s : State} (t : Time) {fn : Fin 64} {k a : Nat} (v : Word) (hr : s.reach fn = true)
    (ha : a = pageBase fn + (0x1010 + 4 * k)) (hk : k < 4) (hbound : (s.fnc fn).deciding = true ∨ (s.fnc fn).featOk = true) :
    exec (.registerWrite t (.word fn a v)) s = .next ((s.at t).modFn fn fun f => f) := by
  rw [registerWrite_page t v hr ha (by omega) (by omega), pageWrite_accept _ _ _ hk]
  exact congrArg _ (modFn_congr (acceptWrite_bound k v hbound))

/-- A register of a queue that the function has (R62). -/
theorem registerWrite_queue {s : State} (t : Time) {fn : Fin 64} {q r a : Nat} (v : Word) (hr : s.reach fn = true)
    (ha : a = pageBase fn + (0x200 + 0x20 * q + r)) (hq : q < 16) (hn : q < s.nQueues fn) (h4 : r % 4 = 0) (hblock : r < 0x20) :
    exec (.registerWrite t (.word fn a v)) s = .next ((s.at t).modQ fn q fun u => queueWrite u r v) := by
  rw [registerWrite_page t v hr ha (by omega) (by omega), pageWrite_queue _ _ _ hq (by simpa using hn) hblock]

/-- R62: an enabled queue keeps its base registers and Q_CFG. -/
theorem registerWrite_queueEnabled {s : State} (t : Time) {fn : Fin 64} {q r a : Nat} (v : Word) (hr : s.reach fn = true)
    (ha : a = pageBase fn + (0x200 + 0x20 * q + r)) (hq : q < 16) (hn : q < s.nQueues fn) (hen : (s.que fn q).enable = true)
    (hmem : r ∈ [0, 4, 8, 12, 16]) :
    exec (.registerWrite t (.word fn a v)) s = .next ((s.at t).modQ fn q fun u => u) := by
  obtain ⟨hr4, hblock⟩ : r % 4 = 0 ∧ r < 0x20 := by
    simp only [List.mem_cons, List.not_mem_nil, or_false] at hmem
    omega
  rw [registerWrite_queue t v hr ha hq hn hr4 hblock]
  exact congrArg _ (modQ_congr (queueWrite_enabled v hen hmem))

/-- R62: a base register of a disabled queue is stored and reads back. -/
theorem registerWrite_sqBaseLo {s : State} (t : Time) {fn : Fin 64} {q a : Nat} (v : Word) (hr : s.reach fn = true)
    (ha : a = pageBase fn + (0x200 + 0x20 * q)) (hq : q < 16) (hn : q < s.nQueues fn) (hdis : (s.que fn q).enable = false) :
    ∃ s', exec (.registerWrite t (.word fn a v)) s = .next s' ∧
      s' = (s.at t).modQ fn q (fun u => { u with sqBase := u.sqBase / 2 ^ 32 * 2 ^ 32 + v.toNat }) ∧
      s'.readReg fn a 4 = v.toNat := by
  refine ⟨_, ?_, rfl, ?_⟩
  · rw [registerWrite_queue (r := 0) t v hr ha hq hn rfl (by decide)]
    exact congrArg _ (modQ_congr (queueWrite_sqBaseLo v hdis))
  · rw [readReg_page (by simpa using hr) ha (by omega) (by omega), pageReg_sqBaseLo _ _ hq (by simpa using hn), modQ_que,
      lo32_setLow]

/-- Settles O12: each clause follows from where the access lands (the function's page, a group window, a head's block, the
function's memory) and from what the register there stores. -/
theorem registerAccessRules : Obligations.RegisterAccessRules := by
  unfold Obligations.RegisterAccessRules
  refine ⟨fun s t a => registerWrite_narrow t, fun s t a hb hw => ?memory,
    fun s t h fn v ho => registerWrite_blDuty t h fn v ho,
    fun s t pf g isl o v hg ho h4 hrow hr hup hno => registerWrite_noAccess t v pf.isLt hg ho h4 hrow hr hup hno,
    fun s t fn v hr => ⟨registerWrite_eventQueue t v hr rfl,
      fun hbound k hk => registerWrite_acceptBound t v hr (Nat.add_assoc _ _ _) hk hbound,
      fun q hn hq => ⟨?vector, fun hen r hmem _ => ?enabled,
        registerWrite_sqBaseLo t v hr (Nat.add_assoc _ _ _) hq hn⟩⟩⟩
  case memory =>
    rw [registerWrite_bar2 t hb hw]
    exact ⟨fun ho => by rw [if_pos ho], fun ho => by simp [ho]⟩
  case vector => exact registerWrite_queue (r := 0x14) t v hr (by unfold pageBase; omega) hq hn rfl (by decide)
  case enabled => exact registerWrite_queueEnabled t v hr (by unfold pageBase; omega) hq hn hen hmem

end Sys2Proof.Machine
end

section
/-! SUPPORT. What the heads make their frames of, and stamp them with: the heads, the layer slots, the islands but for the
hold of their performance counters. One lemma for each operation that leaves all of it as it is. -/

namespace Sys2Proof.Machine

/-- The heads, the layer slots, and the islands but for the hold of their performance counters. -/
structure Scene where
  heads : Tbl Head
  slots : Tbl Slot
  isl   : Nat → Island

/-- The scene of a state. -/
def sceneOf (s : State) : Scene := ⟨s.heads, s.slots, fun i => { s.island i with perfHold := false }⟩

theorem heads_of_scene {a b : State} (h : sceneOf a = sceneOf b) : a.heads = b.heads := congrArg Scene.heads h

theorem slots_of_scene {a b : State} (h : sceneOf a = sceneOf b) : a.slots = b.slots := congrArg Scene.slots h

theorem head_of_scene {a b : State} (h : sceneOf a = sceneOf b) (k : Nat) : a.head k = b.head k := by
  unfold State.head; rw [heads_of_scene h]

theorem slotOf_of_scene {a b : State} (h : sceneOf a = sceneOf b) (n : Nat) : a.slotOf n = b.slotOf n := by
  unfold State.slotOf; rw [slots_of_scene h]

/-- An operation that keeps the islands of the scene, the device time and the skews moves no stamp. -/
theorem stamp_of_isl {a b : State} (h : (sceneOf a).isl = (sceneOf b).isl) (k : kept a = kept b) (i : Nat) :
    a.stamp i = b.stamp i := by
  have hi : ({ a.island i with perfHold := false } : Island) = { b.island i with perfHold := false } := congrFun h i
  simp only [Island.mk.injEq] at hi
  have hdt : a.dt = b.dt := congrArg Kept.dt k
  have hskew : a.time.skew = b.time.skew := congrArg Kept.skew k
  simp only [State.stamp, State.clockKhz, hdt, hskew, hi]

/-! ### Updates and folds -/

@[simp] theorem ite_scene (p : Prop) [Decidable p] (a b : State) :
    sceneOf (if p then a else b) = if p then sceneOf a else sceneOf b := apply_ite sceneOf p a b

theorem foldl_scene {α : Type} (g : State → α → State) (h : ∀ s x, sceneOf (g s x) = sceneOf s) :
    ∀ (l : List α) (s : State), sceneOf (l.foldl g s) = sceneOf s
  | [], _ => rfl
  | x :: l, s => (foldl_scene g h l (g s x)).trans (h s x)

theorem foldl_fst_scene {α β : Type} (g : State × β → α → State × β) (h : ∀ a x, sceneOf (g a x).1 = sceneOf a.1) :
    ∀ (l : List α) (a : State × β), sceneOf (l.foldl g a).1 = sceneOf a.1
  | [], _ => rfl
  | x :: l, a => (foldl_fst_scene g h l (g a x)).trans (h a x)

@[simp] theorem modFn_scene (s : State) (i : Nat) (f : Func → Func) : sceneOf (s.modFn i f) = sceneOf s := rfl
@[simp] theorem modQ_scene (s : State) (i q : Nat) (f : Queue → Queue) : sceneOf (s.modQ i q f) = sceneOf s := rfl
@[simp] theorem modSafe_scene (s : State) (h : Nat) (f : SafeHead → SafeHead) : sceneOf (s.modSafe h f) = sceneOf s := rfl
@[simp] theorem modPair_scene (s : State) (p : Nat) (f : Pair → Pair) : sceneOf (s.modPair p f) = sceneOf s := rfl
@[simp] theorem modWl_scene (s : State) (f : Watchlamp → Watchlamp) : sceneOf (s.modWl f) = sceneOf s := rfl
@[simp] theorem modCtx_scene (s : State) (c : Nat) (f : Ctx → Ctx) : sceneOf (s.modCtx c f) = sceneOf s := rfl
@[simp] theorem modChand_scene (s : State) (f : Chand → Chand) : sceneOf (s.modChand f) = sceneOf s := rfl
@[simp] theorem modTaper_scene (s : State) (t : Nat) (f : Taper → Taper) : sceneOf (s.modTaper t f) = sceneOf s := rfl
@[simp] theorem modChan_scene (s : State) (c : Nat) (f : Chan → Chan) : sceneOf (s.modChan c f) = sceneOf s := rfl
@[simp] theorem modMem_scene (s : State) (f : Mem → Mem) : sceneOf (s.modMem f) = sceneOf s := rfl
@[simp] theorem modPart_scene (s : State) (p : Nat) (f : Part → Part) : sceneOf (s.modPart p f) = sceneOf s := rfl
@[simp] theorem modAudio_scene (s : State) (f : Audio → Audio) : sceneOf (s.modAudio f) = sceneOf s := rfl
@[simp] theorem modMbox_scene (s : State) (m : Nat) (f : Mbox → Mbox) : sceneOf (s.modMbox m f) = sceneOf s := rfl
@[simp] theorem modLan_scene (s : State) (f : Lantern → Lantern) : sceneOf (s.modLan f) = sceneOf s := rfl
@[simp] theorem modFlt_scene (s : State) (f : Faults → Faults) : sceneOf (s.modFlt f) = sceneOf s := rfl
@[simp] theorem emit_scene (s : State) (o : Output) : sceneOf (s.emit o) = sceneOf s := rfl
@[simp] theorem drawn_scene (s : State) : sceneOf s.drawn = sceneOf s := rfl
@[simp] theorem store_scene (s : State) (st : Store) : sceneOf { s with store := st } = sceneOf s := rfl
@[simp] theorem setFence_scene (s : State) (fn n v : Nat) : sceneOf (s.setFence fn n v) = sceneOf s := rfl

@[simp] theorem modIsl_scene (s : State) (i : Nat) (f : Island → Island)
    (h : ∀ x, ({ f x with perfHold := false } : Island) = { x with perfHold := false }) : sceneOf (s.modIsl i f) = sceneOf s := by
  have hi : (fun k => ({ (s.modIsl i f).island k with perfHold := false } : Island)) =
      fun k => { s.island k with perfHold := false } := by
    funext k
    by_cases e : k = i
    · subst e; rw [modIsl_island]; exact h _
    · rw [modIsl_island_ne _ _ _ e]
  unfold sceneOf
  rw [hi]; rfl

/-! ### Messages and completions -/

theorem onlyMessages_scene {a b : State} (h : onlyMessages a b) : sceneOf b = sceneOf a := by
  rw [h.1]; rfl

@[simp] theorem postEntry_scene (s : State) (fn q : Nat) (h : Held) : sceneOf (postEntry s fn q h) = sceneOf s :=
  onlyMessages_scene (postEntry_onlyMessages s fn q h)

@[simp] theorem sendEventAt_scene (s : State) (fn ev a b c : Nat) (stamp : Time) :
    sceneOf (sendEventAt s fn ev a b c stamp) = sceneOf s := onlyMessages_scene (sendEventAt_onlyMessages s fn ev a b c stamp)

@[simp] theorem sendEvent_scene (s : State) (isl fn ev a b c : Nat) : sceneOf (sendEvent s isl fn ev a b c) = sceneOf s :=
  onlyMessages_scene (sendEvent_onlyMessages s isl fn ev a b c)

@[simp] theorem sendManagers_scene (s : State) (isl ev a b c : Nat) : sceneOf (sendManagers s isl ev a b c) = sceneOf s :=
  onlyMessages_scene (sendManagers_onlyMessages s isl ev a b c)

@[simp] theorem sendTo_scene (s : State) (isl : Nat) (fn : Option Nat) (ev a b c : Nat) :
    sceneOf (sendTo s isl fn ev a b c) = sceneOf s := onlyMessages_scene (sendTo_onlyMessages s isl fn ev a b c)

@[simp] theorem faultEvents_scene (s : State) (fc cls opn : Nat) (stamp : Time) :
    sceneOf (faultEvents s fc cls opn stamp) = sceneOf s := onlyMessages_scene (faultEvents_onlyMessages s fc cls opn stamp)

@[simp] theorem signalFence_scene (s : State) (fn n v : Nat) : sceneOf (signalFence s fn n v) = sceneOf s := by
  simp [signalFence]

@[simp] theorem finishCmd_scene (s : State) (c : Cmd) (st : Nat) (pay : List Nat) (stamp : Time) :
    sceneOf (finishCmd s c st pay stamp) = sceneOf s := by
  simp [finishCmd]

@[simp] theorem completeAt_scene (s : State) (id st : Nat) (pay : List Nat) (stamp : Time) :
    sceneOf (completeAt s id st pay stamp) = sceneOf s := by
  unfold completeAt
  split
  · rfl
  · exact finishCmd_scene _ _ _ _ _

@[simp] theorem complete_scene (s : State) (id st : Nat) (pay : List Nat) : sceneOf (complete s id st pay) = sceneOf s := by
  unfold complete
  split
  · rfl
  · exact completeAt_scene _ _ _ _ _

/-! ### Faults, the system alarm, performance counters -/

@[simp] theorem updAlmout_scene (s : State) : sceneOf (updAlmout s) = sceneOf s := by simp [updAlmout]

@[simp] theorem raiseSysAlarm_scene (s : State) : sceneOf (raiseSysAlarm s) = sceneOf s := by
  simp [raiseSysAlarm, bumpGen, noteSys]

@[simp] theorem fatalResponse_scene (s : State) : sceneOf (fatalResponse s) = sceneOf s := by simp [fatalResponse, setTone]

@[simp] theorem report_scene (s : State) (isl src : Nat) (loss : Bool) : sceneOf (report s isl src loss) = sceneOf s := by
  simp [report, reportAt, countCorrected]

@[simp] theorem closeOneLoss_scene (s : State) (fc : Nat) : sceneOf (closeOneLoss s fc) = sceneOf s := by
  simp [closeOneLoss, closeLoss, updFaultPin]

@[simp] theorem holdPerf_scene (s : State) (i fn : Nat) : sceneOf (holdPerf s i fn) = sceneOf s := by
  simp [holdPerf, foldl_scene]

@[simp] theorem setFnState_scene (s : State) (fn new : Nat) : sceneOf (setFnState s fn new) = sceneOf s := by
  simp [setFnState]

/-! ### The safety plane -/

@[simp] theorem recheck_scene (s : State) (p : OpSpec) (f : Flight) (hrun : ∀ s f, sceneOf (p.run s f) = sceneOf s) :
    sceneOf (recheck s p f) = sceneOf s := by
  unfold recheck
  split
  · simp [countHeld, countRefused]
  · simp [execute, hrun]

@[simp] theorem fixStore_scene (s : State) (b : Bool) (ws : List Nat) : sceneOf (fixStore s b ws) = sceneOf s := by
  unfold fixStore
  exact foldl_scene _ (fun _ _ => by simp) _ _

@[simp] theorem sendSafety_scene (s : State) (h p d7 : Nat) : sceneOf (sendSafety s h p d7) = sceneOf s := by
  simp [sendSafety, foldl_scene]

@[simp] theorem relocate_scene (s : State) (h cause : Nat) : sceneOf (relocate s h cause) = sceneOf s := by
  simp [relocate, dropLoss]

@[simp] theorem endRelocation_scene (s : State) (h : Nat) : sceneOf (endRelocation s h) = sceneOf s := by
  simp [endRelocation]

@[simp] theorem fileDirectory_scene (s : State) (h : Nat) : sceneOf (fileDirectory s h) = sceneOf s :=
  store_scene _ _

@[simp] theorem writeStore_scene (s : State) (a : Nat) (l : List Byte) : sceneOf (writeStore s a l) = sceneOf s := by
  unfold writeStore
  extract_lets edge s1
  rw [store_scene]
  simp [s1]

@[simp] theorem readLists_scene (s : State) (bases : List Nat) : sceneOf (readLists s bases) = sceneOf s :=
  fixStore_scene _ _ _

@[simp] theorem applyUpdate_scene (s : State) (f : Flight) : sceneOf (applyUpdate s f) = sceneOf s := by
  unfold applyUpdate
  extract_lets c h bank base s0 s1 restore s2
  have hrestore : ∀ t, sceneOf (restore t) = sceneOf t := fun t => by simp only [restore]; split <;> rfl
  have h0 : sceneOf s0 = sceneOf s := writeStore_scene _ _ _
  clear_value s0
  have h1 : sceneOf s1 = sceneOf s := by
    simp only [s1, ite_scene, fileDirectory_scene, h0, ite_self]
  have h2 : sceneOf s2 = sceneOf s := (readLists_scene _ _).trans h1
  clear_value s1 restore s2
  split
  · split
    · rw [complete_scene, h2]
    · rw [hrestore, modSafe_scene, h2]
  · rw [complete_scene, hrestore, h1]

@[simp] theorem refreshBank_scene (s : State) (h : Nat) : sceneOf (refreshBank s h) = sceneOf s := by
  unfold refreshBank
  extract_lets bank s1 s2
  have h2 : sceneOf s2 = sceneOf s := by simp [s1, s2]
  clear_value s2
  split
  · rfl
  · rw [fileDirectory_scene, modSafe_scene, store_scene, h2]

@[simp] theorem runUpdatesN_scene (s : State) (n : Nat) : sceneOf (runUpdatesN s n) = sceneOf s := by
  induction n generalizing s with
  | zero => rfl
  | succ n ih =>
    unfold runUpdatesN
    dsimp only
    split
    · rfl
    · split
      · rfl
      · split
        · rw [ih, store_scene]
        · split
          · rfl
          · rw [ih, recheck_scene _ { specListUpdate with run := applyUpdate } _ applyUpdate_scene, store_scene]

@[simp] theorem runUpdates_scene (s : State) : sceneOf (runUpdates s) = sceneOf s := by
  simp [runUpdates, foldl_scene]

@[simp] theorem rebuild_scene (s : State) (p : Nat) (b : Bool) : sceneOf (rebuild s p b) = sceneOf s := by
  simp [rebuild, outOfService, unresolved, foldl_scene]

/-! ### Device memory and Chandelier -/

@[simp] theorem takeLine_scene (s : State) (line : Nat) (dirty : Bool) : sceneOf (takeLine s line dirty) = sceneOf s := by
  simp [takeLine]

@[simp] theorem waitChan_scene (s : State) (id c : Nat) (put : Option (Nat × List Byte × List Nat)) :
    sceneOf (waitChan s id c put) = sceneOf s := rfl

@[simp] theorem freezeChan_scene (s : State) (c : Nat) (r : MemReq) (syn : Nat) :
    sceneOf (freezeChan s c r syn) = sceneOf s := by
  simp [freezeChan]

@[simp] theorem readWord_scene (s : State) (fn a : Nat) (merge : Bool) : sceneOf (readWord s fn a merge) = sceneOf s := by
  unfold readWord
  dsimp only
  (repeat' split) <;> simp

@[simp] theorem readLine_scene (s : State) (fn a : Nat) : sceneOf (readLine s fn a) = sceneOf s := by
  unfold readLine
  split <;> simp

@[simp] theorem readRange_scene (s : State) (fn a n : Nat) : sceneOf (readRange s fn a n) = sceneOf s := by
  simp [readRange, foldl_scene]

@[simp] theorem memPut_scene (s : State) (fn a : Nat) (v : Byte) : sceneOf (memPut s fn a v) = sceneOf s := by
  unfold memPut
  split <;> simp

@[simp] theorem memPuts_scene (s : State) (fn a : Nat) (l : List Byte) : sceneOf (memPuts s fn a l) = sceneOf s := by
  induction l generalizing s a with
  | nil => rfl
  | cons v r ih => simp [memPuts, ih]

@[simp] theorem memWrite_scene (s : State) (fn a : Nat) (l : List Byte) : sceneOf (memWrite s fn a l) = sceneOf s := by
  simp [memWrite]

@[simp] theorem touch_scene (s : State) (c a n : Nat) : sceneOf (touch s c a n) = sceneOf s := by
  unfold touch
  dsimp only
  (repeat' split) <;> simp

@[simp] theorem chdRead_scene (s : State) (c a n : Nat) : sceneOf (chdRead s c a n) = sceneOf s := by
  simp [chdRead]

@[simp] theorem chdWrite_scene (s : State) (c a : Nat) (l : List Byte) : sceneOf (chdWrite s c a l) = sceneOf s := by
  simp [chdWrite]

@[simp] theorem writeBack_scene (s : State) : sceneOf (writeBack s) = sceneOf s := by
  simp [writeBack, foldl_scene]

@[simp] theorem spillTile_scene (c : Nat) (p : Pass) (s : State) (tile : Nat) : sceneOf (spillTile c p s tile) = sceneOf s := by
  simp [spillTile, foldl_scene]

@[simp] theorem partialRender_scene (s : State) (c : Nat) (p : Pass) : sceneOf (partialRender s c p).1 = sceneOf s := by
  simp [partialRender, foldl_scene]

@[simp] theorem binInto_scene (attrs : Nat) (q : BinPrim) (c : Nat) (a : State × Pass) (tiles : List Nat) :
    sceneOf (binInto attrs q c a tiles).1 = sceneOf a.1 := by
  unfold binInto
  dsimp only
  split <;> simp

@[simp] theorem binPrim_scene (attrs c : Nat) (a : State × Pass) (q : BinPrim) :
    sceneOf (binPrim attrs c a q).1 = sceneOf a.1 := by
  unfold binPrim
  dsimp only
  split
  · simp
  · refine foldl_fst_scene _ (fun b k => ?_) _ _
    split <;> simp

@[simp] theorem binDraw_scene (s : State) (c : Nat) (args : List Nat) : sceneOf (binDraw s c args) = sceneOf s := by
  unfold binDraw
  split
  · rfl
  · simp [foldl_fst_scene]

@[simp] theorem finishTile_scene (c : Nat) (p : Pass) (s : State) (tile : Nat) :
    sceneOf (finishTile c p s tile) = sceneOf s := by
  simp [finishTile, storePlane, putBlock, putElement, foldl_scene]

@[simp] theorem endPass_scene (s : State) (c : Nat) : sceneOf (endPass s c) = sceneOf s := by
  unfold endPass
  split
  · rfl
  · simp [foldl_scene]

@[simp] theorem sampleSparse_scene (s : State) (c : Nat) (g : SparseImage) (ts : List Texel) :
    sceneOf (sampleSparse s c g ts).1 = sceneOf s := by
  simp [sampleSparse, foldl_scene]

@[simp] theorem shaderAccess_scene (s : State) (c : Nat) (q : TaperAccess) : sceneOf (shaderAccess s c q).1 = sceneOf s := by
  cases q with
  | load base size a n => simp [shaderAccess, robust, apply_ite Prod.fst]
  | store base size a v => simp [shaderAccess, robust, apply_ite Prod.fst]
  | sample g ts => simp [shaderAccess]

@[simp] theorem runShaders_scene (s : State) (c : Nat) (args : List Nat) : sceneOf (runShaders s c args) = sceneOf s := by
  simp [runShaders, foldl_fst_scene]

@[simp] theorem fillTapers_scene (s : State) (c : Nat) : sceneOf (fillTapers s c) = sceneOf s := by
  unfold fillTapers
  rw [foldl_scene, drawn_scene]
  exact fun _ _ => rfl

@[simp] theorem indirectArgs_scene (s : State) (c a n : Nat) : sceneOf (indirectArgs s c a n).1 = sceneOf s := by
  unfold indirectArgs
  dsimp only
  split <;> simp [robust]

@[simp] theorem clampCount_scene (s : State) (n : Nat) : sceneOf (clampCount s n).1 = sceneOf s := by
  unfold clampCount
  split <;> simp [robust]

@[simp] theorem runDraw_scene (s : State) (c : Nat) (p : Packet) : sceneOf (runDraw s c p) = sceneOf s := by
  simp [runDraw, drawOne, foldl_scene]

@[simp] theorem runDispatch_scene (s : State) (c : Nat) (p : Packet) : sceneOf (runDispatch s c p) = sceneOf s := by
  unfold runDispatch
  dsimp only
  split
  · simp
  · rw [runShaders_scene, foldl_fst_scene, indirectArgs_scene]
    exact fun _ _ => clampCount_scene _ _

@[simp] theorem runPacket_scene (s : State) (c : Nat) (p : Packet) : sceneOf (runPacket s c p) = sceneOf s := by
  unfold runPacket
  dsimp only
  (repeat' split) <;> simp

@[simp] theorem releaseTapers_scene (s : State) (c : Nat) : sceneOf (releaseTapers s c) = sceneOf s := by
  refine foldl_scene _ (fun _ _ => ?_) _ _
  rfl

@[simp] theorem runPackets_scene (s : State) (c : Nat) (l : List Packet) : sceneOf (runPackets s c l) = sceneOf s := by
  induction l generalizing s with
  | nil => simp [runPackets]
  | cons p r ih =>
    unfold runPackets
    dsimp only
    (repeat' split) <;> simp [ih]

@[simp] theorem stopTapers_scene (s : State) (c : Nat) (ts : List Nat) : sceneOf (stopTapers s c ts) = sceneOf s := by
  unfold stopTapers
  split
  · rfl
  · rw [modCtx_scene, foldl_scene]
    exact fun _ _ => rfl

@[simp] theorem preempt_scene (s : State) (c : Nat) (ts : List Nat) : sceneOf (preempt s c ts) = sceneOf s := by
  simp [preempt]

@[simp] theorem giveTaper_scene (s : State) (t c : Nat) : sceneOf (giveTaper s t c) = sceneOf s := by
  unfold giveTaper
  extract_lets x s0 work s1
  have h1 : sceneOf s1 = sceneOf s := by
    simp only [s1, s0, modCtx_scene, modTaper_scene]
    split <;> simp
  clear_value s1
  split
  · rw [foldl_scene _ fun _ _ => preempt_scene _ _ _, h1]
  · exact h1

@[simp] theorem assignTapers_scene (s : State) : sceneOf (assignTapers s) = sceneOf s := by
  refine foldl_scene _ (fun s t => ?_) _ _
  split
  · rfl
  · split <;> simp

@[simp] theorem displace_scene (s : State) : sceneOf (displace s) = sceneOf s := by
  simp [displace, foldl_scene]

@[simp] theorem beginCtx_scene (k : Nat) (s : State) (c : Nat) : sceneOf (beginCtx k s c) = sceneOf s := by
  induction k generalizing s with
  | zero => rfl
  | succ k ih =>
    unfold beginCtx
    dsimp only
    (repeat' split) <;> simp [ih, foldl_scene]

@[simp] theorem leaveCtx_scene (s : State) (c : Nat) : sceneOf (leaveCtx s c) = sceneOf s := by
  simp [leaveCtx]

@[simp] theorem finishSub_scene (s : State) (c status : Nat) : sceneOf (finishSub s c status) = sceneOf s := by
  unfold finishSub
  dsimp only
  (repeat' split) <;> simp [reapPipelines]

@[simp] theorem chdLoop_scene (k : Nat) (s : State) : sceneOf (chdLoop k s) = sceneOf s := by
  induction k generalizing s with
  | zero => rfl
  | succ k ih => simp [chdLoop, ih, foldl_scene]

@[simp] theorem kickChandelier_scene (s : State) : sceneOf (kickChandelier s) = sceneOf s := by
  simp [kickChandelier, book, foldl_scene]

/-! ### A function that leaves -/

@[simp] theorem serveUndefined_scene (s : State) (l : List LanMsg) : sceneOf (serveUndefined s l) = sceneOf s := by
  induction l generalizing s with
  | nil => simp [serveUndefined]
  | cons g r ih =>
    unfold serveUndefined
    split <;> simp [ih, reply]

@[simp] theorem freeSlot_scene (s : State) (fn : Nat) : sceneOf (freeSlot s fn) = sceneOf s := by
  unfold freeSlot dropMail
  dsimp only
  rw [foldl_scene, serveUndefined_scene, foldl_scene]
  all_goals exact fun _ _ => rfl

@[simp] theorem endSecure_scene (s : State) (fn : Nat) (portReset : Bool) : sceneOf (endSecure s fn portReset) = sceneOf s := by
  have hfail : sceneOf (authFail s fn) = sceneOf s := by
    unfold authFail
    split <;> simp
  simp [endSecure, dropClaims, hfail]

@[simp] theorem dropPipelines_scene (s : State) (fn : Nat) : sceneOf (dropPipelines s fn) = sceneOf s := rfl
@[simp] theorem closeSessions_scene (s : State) (fn : Nat) : sceneOf (closeSessions s fn) = sceneOf s := rfl
@[simp] theorem dropStreams_scene (s : State) (fn : Nat) : sceneOf (dropStreams s fn) = sceneOf s := rfl
@[simp] theorem resetFnRegs_scene (s : State) (fn : Nat) : sceneOf (resetFnRegs s fn) = sceneOf s := rfl

@[simp] theorem clearEngines_scene (s : State) (fn : Nat) : sceneOf (clearEngines s fn) = sceneOf s := by
  have hctx : sceneOf (clearCtxs s fn) = sceneOf s := by simp [clearCtxs, reapPipelines, foldl_scene]
  have hfree : sceneOf (freeCtxs (clearCtxs s fn) fn) = sceneOf (clearCtxs s fn) := by
    refine foldl_scene _ (fun _ _ => ?_) _ _
    rfl
  have hengines : ∀ (s : State) (a : Media) (b : Net) (c : Sense),
      sceneOf { s with media := a, net := b, sense := c } = sceneOf s := fun _ _ _ _ => rfl
  unfold clearEngines
  extract_lets s1 s2 mine off
  rw [hengines]
  simp [s2, s1, hfree, hctx]

theorem foldl_heads {α : Type} (g : State → α → State) (h : ∀ s x, (g s x).heads = s.heads) :
    ∀ (l : List α) (s : State), (l.foldl g s).heads = s.heads
  | [], _ => rfl
  | x :: l, s => (foldl_heads g h l (g s x)).trans (h s x)

/-- A function that leaves disables its slots; the heads stay as they are (R97). -/
theorem tryLeave_heads (s : State) (fn : Nat) : (tryLeave s fn).heads = s.heads := by
  unfold tryLeave
  split
  · rfl
  · split
    · rfl
    · rw [heads_of_scene (complete_scene _ _ _ _), modFn_heads, heads_of_scene (setFnState_scene _ _ _)]
      rw [heads_of_scene (resetFnRegs_scene _ _), heads_of_scene (endSecure_scene _ _ _), heads_of_scene (clearEngines_scene _ _),
        foldl_heads, foldl_heads]
      all_goals exact fun _ _ => rfl

theorem tryLeaves_heads (s : State) : (tryLeaves s).heads = s.heads := foldl_heads _ tryLeave_heads _ _

end Sys2Proof.Machine
end

section
/-! SUPPORT. HEAD_CONFIG and the links (R120-R135): what each operation makes of its head, what a command does case by case,
and from it the statements on HEAD_CONFIG and on link training. -/

namespace Sys2Proof.Machine

/-! ### Rules of a head's update -/

theorem put_put {α : Type} (t : Tbl α) (k : Nat) (v w : α) : put (put t k v) k w = put t k w := by
  induction t with
  | nil => simp [put]
  | cons e r ih =>
    obtain ⟨j, x⟩ := e
    by_cases h : j = k <;> simp [put, h, ih]

theorem modHead_modHead (s : State) (h : Nat) (f g : Head → Head) :
    (s.modHead h f).modHead h g = s.modHead h fun d => g (f d) := by
  simp [State.modHead, State.head, put_put]

theorem modHead_congr {s : State} {h : Nat} {f g : Head → Head} (e : f (s.head h) = g (s.head h)) :
    s.modHead h f = s.modHead h g := by
  unfold State.modHead; rw [e]

theorem at_dt (s : State) (t : Time) : (s.at t).dt = max s.dt t := rfl
@[simp] theorem at_configBusy (s : State) (t : Time) (h : Nat) : (s.at t).configBusy h = s.configBusy h := rfl
@[simp] theorem at_headCands (s : State) (t : Time) (h : Nat) : (s.at t).headCands h = s.headCands h := rfl

/-! ### HEAD_CONFIG: its start and its turn -/

/-- A HEAD_CONFIG that runs joins those of its head (R120). -/
theorem headConfig_runs {s : State} {t : Time} {c : Cmd} (h : (s.at t).runs specHeadConfig c = true) :
    exec (.headConfig t c) s = .next (((s.at t).launched specHeadConfig c).modHead (c.f 10 0 4) fun d =>
      { d with configs := d.configs ++ [s.nextId] }) := by
  change Host.Outcome.next (startCmd (s.at t) specHeadConfig c) = _
  rw [startCmd_runs _ _ _ h]
  rfl

theorem exec_headConfigApply (t : Time) (h : Fin 12) (s : State) : exec (.headConfigApply t h) s = execHeadConfigApply t h s := rfl

theorem headConfigApply_busy {s : State} (t : Time) {h : Fin 12} (hb : s.configBusy h = true) :
    exec (.headConfigApply t h) s = .next (s.at t) := by
  simp [exec_headConfigApply, execHeadConfigApply, hb]

/-- A command that no check stops, whose island runs, executes when judged again (R85). -/
theorem recheck_clear {s : State} {p : OpSpec} {f : Flight} (hv : s.verdict p f.cmd = none)
    (hlive : (s.island f.isl).live = true) (hreset : (s.island f.isl).inReset = false) :
    recheck s p f = p.run (holdPerf s f.isl f.cmd.fn) f := by
  simp [recheck, hv, execute, hlive, hreset]

/-- The oldest HEAD_CONFIG of a head takes effect (R85, R120). -/
theorem headConfigApply_oldest {s : State} (t : Time) {h : Fin 12} {f : Flight} {r : List Flight}
    (hup : s.up (mantleOf h) = true) (hidle : s.configBusy h = false) (hf : (s.head h).configs.filterMap s.flight? = f :: r)
    (hv : ((s.at t).modHead h fun d => { d with configs := r.map (·.id) }).verdict specHeadConfig f.cmd = none)
    (hlive : (s.island f.isl).live = true) (hreset : (s.island f.isl).inReset = false) :
    exec (.headConfigApply t h) s = .next (showSends (s.at t)
      (applyConfig (holdPerf ((s.at t).modHead h fun d => { d with configs := r.map (·.id) }) f.isl f.cmd.fn) f) h) := by
  have hfirst : ((s.at t).head h).configs.filterMap (s.at t).flight? = f :: r := hf
  have hrun : recheck ((s.at t).modHead h fun d => { d with configs := r.map (·.id) })
      { specHeadConfig with run := applyConfig } f = _ := recheck_clear hv hlive hreset
  have hturn : (!(s.at t).up (mantleOf h) || (s.at t).configBusy h) = false := by simp [hup, hidle]
  rw [exec_headConfigApply]
  unfold execHeadConfigApply
  simp only [hturn, Bool.false_eq_true, if_false, hfirst]
  exact congrArg (fun x => Host.Outcome.next (showSends (s.at t) x h)) hrun

/-! ### What an output sends (R121) -/

theorem sends_off {d : Head} (h : Nat) (hr : d.role = 0) : d.sends h = .nothing := by
  simp [Head.sends, hr]

theorem sends_displayPort {d : Head} {h : Nat} (hr : d.role ≠ 0) (hdp : isDp h = true) :
    d.sends h = if d.link = 2 then .training else if d.link = 3 && d.running && d.applied.isNone then .picture else .idle := by
  simp [Head.sends, hr, hdp]

theorem sends_lvds {d : Head} {h : Nat} (hr : d.role ≠ 0) (hdp : isDp h = false) :
    d.sends h = if d.applied.isSome then .blank else .picture := by
  simp [Head.sends, hr, hdp]

/-- The sends of a head that is on, in the cases of Table 03.4 (R121). -/
theorem sends_on {d : Head} (h : Nat) (hr : d.role ≠ 0) :
    (isDp h = true → d.link = 2 → d.sends h = .training) ∧ (isDp h = true → d.link ≠ 2 → d.link ≠ 3 → d.sends h = .idle) ∧
    (isDp h = true → d.link = 3 → d.running = true → d.applied = none → d.sends h = .picture) ∧
    (isDp h = false → d.applied ≠ none → d.sends h = .blank) ∧ (isDp h = false → d.applied = none → d.sends h = .picture) := by
  refine ⟨fun hdp hl => ?training, fun hdp h2 h3 => ?idle, fun hdp hl hrun ha => ?picture, fun hdp ha => ?blank,
    fun hdp ha => ?lvds⟩
  case training => simp [sends_displayPort hr hdp, hl]
  case idle => simp [sends_displayPort hr hdp, h2, h3]
  case picture => simp [sends_displayPort hr hdp, hl, hrun, ha]
  case blank => simp [sends_lvds hr hdp, Option.isSome_iff_ne_none.mpr ha]
  case lvds => simp [sends_lvds hr hdp, ha]

/-! ### HEAD_CONFIG takes effect -/

theorem turnOff_head (s : State) (h : Nat) :
    ((turnOff s h).head h).role = 0 ∧ ((turnOff s h).head h).link = 0 ∧ ((turnOff s h).head h).running = false := by
  simp [turnOff]

theorem applyConfig_off {s : State} {f : Flight} (h : hcRole f.cmd = 0) :
    applyConfig s f = linkEvent (complete (turnOff s (hcHead f.cmd)) f.id stOk [0, 0, 0, 0]) (hcHead f.cmd) 0 := by
  simp [applyConfig, h, noPay]

/-- The state in which a HEAD_CONFIG that leaves its head on has entered its settings: a clone gives up its slots first. -/
def configuredBy (s : State) (f : Flight) : State :=
  (if hcRole f.cmd = 2 then dropSlots s (hcHead f.cmd) else s).modHead (hcHead f.cmd) fun d =>
    d.configured f.cmd (s.csi (hcLockCsi f.cmd)).starts

theorem dropSlots_hpd (s : State) (h : Nat) : ((dropSlots s h).head h).hpd = (s.head h).hpd := by
  have hslots : ∀ l : List Nat, (l.foldl (fun s n => s.modSlot n fun x =>
      { x with layer := { x.layer with enable := false } }) s).heads = s.heads :=
    fun l => foldl_heads _ (fun _ _ => by rfl) l s
  unfold dropSlots
  rw [modHead_head, State.head, hslots]
  rfl

@[simp] theorem configuredBy_hpd (s : State) (f : Flight) :
    ((configuredBy s f).head (hcHead f.cmd)).hpd = (s.head (hcHead f.cmd)).hpd := by
  unfold configuredBy
  rw [modHead_head]
  split
  · exact dropSlots_hpd _ _
  · rfl

@[simp] theorem configuredBy_dt (s : State) (f : Flight) : (configuredBy s f).dt = s.dt := by
  unfold configuredBy
  rw [modHead_dt]
  split
  · exact congrArg Kept.dt (dropSlots_keep _ _)
  · rfl

/-- On a head that is no safety head the settings are entered, and then the link decides (R121, R130-R132). -/
theorem applyConfig_on {s : State} {f : Flight} (hr : hcRole f.cmd ≠ 0) (hs : (s.safeOf (hcHead f.cmd)).safety = false) :
    applyConfig s f =
      let h := hcHead f.cmd
      let new := configuredBy s f
      if !isDp h then startTiming (setLink (new.modHead h fun d => { d with applied := some (f.id, 0) }) h 3 0 0) h
      else if !(s.head h).hpd then
        let s1 := startTiming (setLink new h 1 0 0) h
        linkEvent (complete s1 f.id stOk [linkD4 (s1.head h), 0, 0, 0]) h 0
      else train new h 0 (new.headCands h) (some f.id) := by
  dsimp only
  rw [← configuredBy_hpd s f]
  simp only [applyConfig, hr, hs, Bool.false_and, Bool.false_eq_true, if_false]
  rfl

/-- LINK_STATE, RATE and LANES stay as set when the timing starts. -/
theorem linkD4_startTiming_setLink (s : State) (h link : Nat) :
    linkD4 ((startTiming (setLink s h link 0 0) h).head h) = 2 ^ 8 * link := by
  simp only [startTiming, setLink, modHead_head]
  split <;> simp [linkD4]

theorem train_start {s : State} (h cause : Nat) {cands : List (Nat × Nat)} (flight : Option Nat) (hc : cands ≠ []) :
    train s h cause cands flight = setLink (s.modHead h fun d => { d with
      training := some { cands := cands, cause := cause, limit := s.dt + 2000000000, flight := flight } }) h 2 0 0 := by
  simp [train, hc, ms]

/-- Settles O29: a HEAD_CONFIG joins its head's, its turn comes when none is in progress, and what it then does follows its
ROLE, the kind of its head and the sink. -/
theorem headConfigWaitsThenTakesEffect : Obligations.HeadConfigWaitsThenTakesEffect := by
  unfold Obligations.HeadConfigWaitsThenTakesEffect
  refine ⟨fun s t c h => headConfig_runs h, fun s t h hb => headConfigApply_busy t hb,
    fun s t h f r hup hidle hf hv hlive hreset => headConfigApply_oldest t hup hidle hf hv hlive hreset,
    fun d h => ⟨sends_off h, sends_on h⟩, fun s f => ⟨fun hr => ⟨applyConfig_off hr, turnOff_head s _⟩, fun hr hs => ?_⟩⟩
  have happly := applyConfig_on hr hs
  refine ⟨fun hdp => ?lvds, fun hdp hpd => ?noSink, fun hdp hpd hc => ?sink⟩
  case lvds =>
    have hdp' : isDp (hcHead f.cmd) = false := hdp
    simp only [happly, hdp']
    rfl
  case noSink =>
    have hdp' : isDp (hcHead f.cmd) = true := hdp
    have hpd' : (s.head (hcHead f.cmd)).hpd = false := hpd
    simp only [happly, hdp', hpd', linkD4_startTiming_setLink]
    rfl
  case sink =>
    have hdp' : isDp (hcHead f.cmd) = true := hdp
    have hpd' : (s.head (hcHead f.cmd)).hpd = true := hpd
    have htrain := train_start (s := configuredBy s f) (hcHead f.cmd) 0 (some f.id) hc
    rw [configuredBy_dt] at htrain
    simp only [happly, hdp', hpd']
    exact htrain

end Sys2Proof.Machine
end

section
/-! SUPPORT. Link training, HPD and IRQ_HPD (R130-R135): what each command does to a head that it concerns, and from it the
statement on link training. -/

namespace Sys2Proof.Machine

/-! ### LINK_TRAINING_RESULT and LINK_TRAINING_TIMEOUT -/

theorem exec_linkTrainingResult (t : Time) (h : Fin 12) (ok : Bool) (s : State) :
    exec (.linkTrainingResult t h ok) s = execLinkTrainingResult t h ok s := rfl

/-- What a training result leads to: the training is over, the candidate has trained, or the next one is tried. -/
theorem linkTrainingResult_eq {s : State} (t : Time) {h : Fin 12} (ok : Bool) {tr : Training} {c : Nat × Nat}
    {r : List (Nat × Nat)} (htr : (s.head h).training = some tr) (hup : s.up (mantleOf h) = true) (hc : tr.cands = c :: r) :
    exec (.linkTrainingResult t h ok) s = .next
      (if tr.limit < max s.dt t ∨ (ok = false ∧ r = []) then showSends (s.at t) (trainingOver (s.at t) h tr (tr.attempts + 1)) h
      else if ok = true then showSends (s.at t) (trainedOn (s.at t) h tr c) h
      else (s.at t).modHead h fun d => { d with training := some { tr with cands := r, attempts := tr.attempts + 1 } }) := by
  rw [← at_dt]
  simp only [exec_linkTrainingResult, execLinkTrainingResult, at_head, at_up, htr, hup, hc]
  by_cases hlate : tr.limit < (s.at t).dt
  · simp [hlate]
  · cases ok
    · by_cases hlast : r = [] <;> simp [hlate, hlast]
    · simp [hlate]

theorem exec_linkTrainingTimeout (t : Time) (h : Fin 12) (s : State) :
    exec (.linkTrainingTimeout t h) s = execLinkTrainingTimeout t h s := rfl

theorem linkTrainingTimeout_due {s : State} {t : Time} {h : Fin 12} {tr : Training} (htr : (s.head h).training = some tr)
    (hup : s.up (mantleOf h) = true) (hdue : tr.limit ≤ max s.dt t) :
    exec (.linkTrainingTimeout t h) s = .next (showSends (s.at t) (trainingOver (s.at t) h tr (tr.attempts + 1)) h) := by
  have hpast : ¬(s.at t).dt < tr.limit := Nat.not_lt.mpr hdue
  simp [exec_linkTrainingTimeout, execLinkTrainingTimeout, htr, hup, hpast]

theorem trainingOver_failed {s : State} {h : Nat} {tr : Training} {n : Nat} (hb : tr.boot = false) :
    trainingOver s h tr n = trainingFailed s h tr.flight n := by
  simp [trainingOver, hb]

/-- The candidate of a HEAD_CONFIG has trained: its timing starts, and it waits for its frame start (R122, R131). -/
theorem trainedOn_config {s : State} {h : Nat} {tr : Training} {c : Nat × Nat} {id : Nat} (hb : tr.boot = false)
    (hf : tr.flight = some id) :
    trainedOn s h tr c = startTiming ((setLink (s.modHead h fun d => { d with training := none }) h 3 c.2 c.1).modHead h
      fun d => { d with applied := some (id, tr.attempts + 1) }) h := by
  simp [trainedOn, hb, hf]

/-- The candidate of another training has trained: HEAD_LINK tells its cause (R155). -/
theorem trainedOn_other {s : State} {h : Nat} {tr : Training} {c : Nat × Nat} (hb : tr.boot = false) (hf : tr.flight = none) :
    trainedOn s h tr c =
      linkEvent (setLink (s.modHead h fun d => { d with training := none }) h 3 c.2 c.1) h tr.cause := by
  simp [trainedOn, hb, hf]

/-- A failed training of no HEAD_CONFIG: FAILED, and HEAD_LINK with cause 4 (R131, Table 03.7). -/
theorem trainingFailed_noFlight (s : State) (h n : Nat) :
    trainingFailed s h none n = linkEvent (s.modHead h fun d => { d with
      training := none, link := 4, rate := 0, lanes := 0, auxSince := if d.link = 2 then s.dt else d.auxSince }) h 4 := by
  simp [trainingFailed, setLink, modHead_modHead]

/-! ### HPD and IRQ_HPD -/

theorem exec_hpdRise (t : Time) (h : Fin 12) (rate lanes : Fin 8) (s : State) :
    exec (.hpdRise t h rate lanes) s = execHpdRise t h rate lanes s := rfl
theorem exec_hpdUnplug (t : Time) (h : Fin 12) (s : State) : exec (.hpdUnplug t h) s = execHpdUnplug t h s := rfl
theorem exec_irqHpd (t : Time) (h : Fin 12) (lost : Bool) (s : State) : exec (.irqHpd t h lost) s = execIrqHpd t h lost s := rfl

/-- A sink comes to a head that is on and has no link (R132). -/
theorem hpdRise_trains {s : State} {t : Time} {h : Fin 12} {rate lanes : Fin 8} (hdp : isDp h = true)
    (hup : s.up (mantleOf h) = true) (hr : (s.head h).role ≠ 0) (hl : (s.head h).link = 1 ∨ (s.head h).link = 4)
    (ht : (s.head h).training = none) (hpd : (s.head h).hpd = false) :
    let s1 := (s.at t).modHead h fun d => { d with hpd := true, sinkRate := rate, sinkLanes := lanes }
    exec (.hpdRise t h rate lanes) s = .next (showSends (s.at t) (train s1 h 1 (s1.headCands h) none) h) := by
  rw [exec_hpdRise]
  unfold execHpdRise
  dsimp only
  rw [if_neg (by simp [hdp]), if_pos (by rcases hl with hl | hl <;> simp [hup, hr, hl, ht, hpd])]

/-- A sink comes to a head that is off, or whose link is UP: its capabilities are taken (R132). -/
theorem hpdRise_notes {s : State} {t : Time} {h : Fin 12} {rate lanes : Fin 8} (hdp : isDp h = true)
    (hd : (s.head h).role = 0 ∨ (s.head h).link = 3) :
    exec (.hpdRise t h rate lanes) s =
      .next ((s.at t).modHead h fun d => { d with hpd := true, sinkRate := rate, sinkLanes := lanes }) := by
  rcases hd with hd | hd <;> simp [exec_hpdRise, execHpdRise, hdp, hd]

theorem hpdUnplug_off {s : State} {t : Time} {h : Fin 12} (hdp : isDp h = true) (hr : (s.head h).role = 0) :
    exec (.hpdUnplug t h) s = .next ((s.at t).modHead h fun d => { d with hpd := false }) := by
  simp [exec_hpdUnplug, execHpdUnplug, hdp, hr]

/-- The sink of a link that is UP goes: NO_SINK, HEAD_LINK with cause 2, and the plane it carried is relocated (R133, R135). -/
theorem hpdUnplug_up {s : State} {t : Time} {h : Fin 12} (hdp : isDp h = true) (hup : s.up (mantleOf h) = true)
    (hr : (s.head h).role ≠ 0) (ht : (s.head h).training = none) (hl : (s.head h).link = 3) :
    exec (.hpdUnplug t h) s = .next (showSends (s.at t) (linkLost (linkEvent (setLink
      (((s.at t).modHead h fun d => { d with hpd := false }).modHead h fun d => { d with training := none }) h 1 0 0) h 2) h) h) := by
  simp [exec_hpdUnplug, execHpdUnplug, hdp, hup, hr, hl, Head.configTraining, ht]

/-- Lock is lost on a link that is UP: it is trained again, first in the configuration in use (R133, R135). -/
theorem irqHpd_lockLost {s : State} {t : Time} {h : Fin 12} (hdp : isDp h = true) (hup : s.up (mantleOf h) = true)
    (hl : (s.head h).link = 3) :
    exec (.irqHpd t h true) s = .next (showSends (s.at t) (linkLost (train (s.at t) h 3 (((s.head h).lanes, (s.head h).rate) ::
      (s.headCands h).filter (· ≠ ((s.head h).lanes, (s.head h).rate))) none) h) h) := by
  rw [exec_irqHpd]
  unfold execIrqHpd
  dsimp only
  rw [if_neg (by simp [hdp, hup, hl])]
  rfl

/-- Settles O30: a result or the limit ends a training or moves it on, and HPD and IRQ_HPD start and end trainings. -/
theorem linksTrainThroughTheirCandidates : Obligations.LinksTrainThroughTheirCandidates := by
  unfold Obligations.LinksTrainThroughTheirCandidates
  refine ⟨fun s t h ok tr c r htr hup hb hc => ?results, trainingFailed_noFlight,
    fun s t h rate lanes hdp => ⟨hpdRise_trains hdp, hpdRise_notes hdp⟩,
    fun s t h hdp => ⟨hpdUnplug_off hdp, fun hup => hpdUnplug_up hdp hup⟩, fun s t h => irqHpd_lockLost⟩
  case results =>
    have hresult := linkTrainingResult_eq t ok htr hup hc
    refine ⟨fun hin hok => ?trained, fun hin hok hr => ?next, fun hdone => ?done, fun hdue => ?timeout⟩
    case trained =>
      have hgoes : ¬(tr.limit < max s.dt t ∨ (ok = false ∧ r = [])) := by simp [Nat.not_lt.mpr hin, hok]
      rw [hresult, if_neg hgoes, if_pos hok]
      exact ⟨fun id hf => by rw [trainedOn_config hb hf], fun hf => by rw [trainedOn_other hb hf]⟩
    case next =>
      have hgoes : ¬(tr.limit < max s.dt t ∨ (ok = false ∧ r = [])) := by simp [Nat.not_lt.mpr hin, hr]
      rw [hresult, if_neg hgoes, if_neg (by simp [hok])]
    case done => rw [hresult, if_pos hdone, trainingOver_failed hb]
    case timeout => rw [linkTrainingTimeout_due htr hup hdue, trainingOver_failed hb]

end Sys2Proof.Machine
end

section
/-! SUPPORT. Gamma, night and AUX (R149-R153), writes by a function that does not own the head (R154), and the frame stamp
(R42): what each command does, and from it the statement on them. -/

namespace Sys2Proof.Machine

/-! ### Gamma and night -/

theorem gammaDataWrite_open {s : State} {t : Time} {fn : Fin 128} {h : Fin 12} (ho : s.headOpen fn h true = true) (w : Word) :
    let k := 1024 * (if (s.head h).gBank then 1 else 0) + (s.head h).gIndex
    exec (.gammaDataWrite t fn h w) s = .next (((s.at t).modHead h fun d => { d with
      gShadow := put d.gShadow k (w.toNat % 2 ^ 30), gIndex := (d.gIndex + 1) % 1024 }).modSafe h fun o =>
        if o.safety then { o with gmShadow := put o.gmShadow k (w.toNat % 2 ^ 30) } else o) :=
  congrArg Host.Outcome.next (headWrite_open s t fn h true _ ho)

theorem gammaCommit_open {s : State} {t : Time} {fn : Fin 128} {h : Fin 12} (ho : s.headOpen fn h true = true) :
    exec (.gammaCommit t fn h) s = .next ((s.at t).modHead h fun d =>
      if d.gCommit then d else { d with gCommit := true, gCommitAt := max s.dt t }) :=
  congrArg Host.Outcome.next (headWrite_open s t fn h true _ ho)

theorem nightWrite_open {s : State} {t : Time} {fn : Fin 128} {h : Fin 12} (ho : s.headOpen fn h false = true) (night : Bool) :
    exec (.nightWrite t fn h night) s = .next ((s.at t).modHead h fun d => { d with
      night := match d.nightW with
        | some w => if w.2 < max s.dt t then w.1 else d.night
        | none => d.night
      nightW := some (night, max s.dt t), nightP := true }) :=
  congrArg Host.Outcome.next (headWrite_open s t fn h false _ ho)

/-- A write by a function that reaches the registers and does not own the head is dropped and counted (R154). -/
theorem headWrite_notOwner {s : State} {fn h : Nat} (k : State → State) (hfn : fn < 64) (hr : s.reach fn = true)
    (hup : s.up (mantleOf h) = true) (hgrp : 2 ≤ fn ∨ s.mayWrite fn 4 = true) (hown : s.ownsHead fn h = false) :
    headWrite s fn h false k = s.dropHead := by
  have hmay : (decide (fn < 2) && !s.mayWrite fn 4) = false := by
    rcases hgrp with hvf | hpf
    · simp [Nat.not_lt.mpr hvf]
    · simp [hpf]
  unfold headWrite
  rw [if_neg (Nat.not_le.mpr hfn), if_neg (by simp [hr, hup]), hmay]
  simp [hown]

theorem nightWrite_notOwner {s : State} (t : Time) {fn : Fin 128} {h : Fin 12} (night : Bool) (hfn : fn.val < 64)
    (hr : s.reach fn = true) (hup : s.up (mantleOf h) = true) (hgrp : 2 ≤ fn.val ∨ s.mayWrite fn 4 = true)
    (hown : s.ownsHead fn h = false) :
    exec (.nightWrite t fn h night) s = .next { s.at t with hdDrop := s.hdDrop + 1 } :=
  congrArg Host.Outcome.next (headWrite_notOwner (s := s.at t) _ hfn hr hup hgrp hown)

/-! ### AUX -/

theorem exec_auxStart (t : Time) (fn : Fin 128) (h : Fin 12) (s : State) : exec (.auxStart t fn h) s = execAuxStart t fn h s := rfl

/-- What AUX_START does on a DisplayPort head that has no transaction: the normal world is refused native writes of a safety
head (R151, R153). -/
theorem auxStart_open {s : State} {t : Time} {fn : Fin 128} {h : Fin 12} (ho : s.headOpen fn h false = true)
    (hdp : isDp h = true) (hbusy : (s.head h).auxBusy = false) :
    exec (.auxStart t fn h) s = .next (
      if (s.safeOf h).safety && !s.isSecure fn && (s.head h).auxShut then (s.at t).modHead h fun d => { d with auxRes := 3 }
      else if (s.safeOf h).safety && auxNativeWrite (s.head h) && !s.isSecure fn then
        worldViolation ((s.at t).modHead h fun d => { d with auxRes := 3 }) (mantleOf h) fn
      else (s.at t).modHead h fun d => { d with auxBusy := true, auxRun := d.aux, auxTries := 0, auxSince := max s.dt t }) := by
  have hfree : (!isDp h || ((s.at t).head h).auxBusy) = false := by simp [hdp, hbusy]
  rw [exec_auxStart]
  unfold execAuxStart
  rw [headWrite_open _ _ _ _ _ _ ho, hfree]
  rfl

theorem exec_auxReply (t : Time) (h : Fin 12) (reply : Fin 3) (data : List Byte) (s : State) :
    exec (.auxReply t h reply data) s = execAuxReply t h reply data s := rfl

@[simp] theorem at_auxLive (s : State) (t : Time) (h : Nat) : (s.at t).auxLive h = s.auxLive h := rfl

/-- A DEFER is retried, seven times (R153). -/
theorem auxReply_defer {s : State} {t : Time} {h : Fin 12} {reply : Fin 3} {data : List Byte} (hl : s.auxLive h = true)
    (hd : reply = 2) (ht : (s.head h).auxTries < 7) :
    exec (.auxReply t h reply data) s = .next ((s.at t).modHead h fun d =>
      { d with auxTries := d.auxTries + 1, auxSince := max s.dt t }) := by
  simp only [exec_auxReply, execAuxReply, at_auxLive, hl, Bool.not_true, Bool.false_eq_true, if_false]
  exact congrArg _ (modHead_congr (by simp [hd, ht, at_dt]))

/-- The head when a reply has ended its transaction: the bytes of a read that was acknowledged are stored (R153). -/
def Head.answered (d : Head) (reply : Fin 3) (data : List Byte) : Head :=
  if reply = 0 && d.auxRun.getLsbD 0 then
    auxStore { d with auxBusy := false, auxRes := reply.val } (fld d.auxRun 24 4 + 1) data
  else { d with auxBusy := false, auxRes := reply.val }

theorem answered_ended (d : Head) (reply : Fin 3) (data : List Byte) :
    (d.answered reply data).auxBusy = false ∧ (d.answered reply data).auxRes = reply.val := by
  unfold Head.answered
  split <;> exact ⟨rfl, rfl⟩

/-- Any other reply ends the transaction with its result, and changes nothing but its head (R153). -/
theorem auxReply_ends {s : State} {t : Time} {h : Fin 12} {reply : Fin 3} {data : List Byte} (hl : s.auxLive h = true)
    (he : reply ≠ 2 ∨ 7 ≤ (s.head h).auxTries) :
    ∃ s', exec (.auxReply t h reply data) s = .next s' ∧ (s'.head h).auxBusy = false ∧ (s'.head h).auxRes = reply.val ∧
      s' = { s.at t with heads := s'.heads } ∧ ∀ k, k ≠ h.val → s'.head k = s.head k := by
  have hends : ¬(reply = 2 ∧ (s.head h).auxTries < 7) := by
    rcases he with he | he
    · simp [he]
    · simp [Nat.not_lt.mpr he]
  have hexec : exec (.auxReply t h reply data) s = .next ((s.at t).modHead h fun d => d.answered reply data) := by
    simp only [exec_auxReply, execAuxReply, at_auxLive, hl, Bool.not_true, Bool.false_eq_true, if_false]
    refine congrArg _ (modHead_congr ?_)
    rw [if_neg (by rwa [Bool.and_eq_true, decide_eq_true_eq, decide_eq_true_eq])]
    rfl
  have hhead : ((s.at t).modHead h fun d => d.answered reply data).head h = (s.head h).answered reply data := modHead_head _ _ _
  obtain ⟨hbusy, hres⟩ := answered_ended (s.head h) reply data
  exact ⟨_, hexec, by rw [hhead, hbusy], by rw [hhead, hres], rfl, fun k hk => modHead_head_ne _ _ _ hk⟩

theorem exec_auxTimeout (t : Time) (h : Fin 12) (s : State) : exec (.auxTimeout t h) s = execAuxTimeout t h s := rfl

theorem auxTimeout_due {s : State} {t : Time} {h : Fin 12} (hl : s.auxLive h = true)
    (hdue : (s.head h).auxSince + 400000 ≤ max s.dt t) :
    exec (.auxTimeout t h) s = .next ((s.at t).modHead h fun d => { d with auxBusy := false, auxRes := 2 }) := by
  have hpast : (s.head h).auxSince + 400 * us ≤ (s.at t).dt := hdue
  simp [exec_auxTimeout, execAuxTimeout, hl, hpast]

/-! ### The frame stamp -/

theorem exec_frameDtLoRead (t : Time) (ini : Fin 128) (h : Fin 12) (s : State) :
    exec (.frameDtLoRead t ini h) s = execFrameDtLoRead t ini h s := rfl

@[simp] theorem at_canRead (s : State) (t : Time) (ini isl : Nat) : (s.at t).canRead ini isl = s.canRead ini isl := rfl

/-- The read of the low word captures the whole stamp for its reader and head (R42). -/
theorem frameDtLoRead_captures {s : State} (t : Time) {ini : Fin 128} {h : Fin 12} (hr : s.canRead ini (mantleOf h) = true) :
    ∃ s', exec (.frameDtLoRead t ini h) s = .next s' ∧
      s' = { s.at t with time := { s.time with snapFrame := s'.time.snapFrame }
                         out := s.out ++ [.readData ini ((s.head h).frameDt % 2 ^ 32)] } ∧
      (∀ k, look s'.time.snapFrame k 0 = if k = 16 * ini.val + h.val then (s.head h).frameDt else look s.time.snapFrame k 0) := by
  have hexec : exec (.frameDtLoRead t ini h) s = .next (({ s.at t with time := { s.time with
      snapFrame := put s.time.snapFrame (16 * ini.val + h.val) (s.head h).frameDt } } : State).emit
        (.readData ini (lo32 (s.head h).frameDt))) := by
    simp only [exec_frameDtLoRead, execFrameDtLoRead, at_canRead, hr, Bool.not_true, Bool.false_eq_true, if_false]
    rfl
  exact ⟨_, hexec, rfl, fun k => look_put_if s.time.snapFrame _ _ _ _⟩

/-- Settles O33: each write reaches its register for the owner and the Watch island and is dropped for another function, a
reply or the limit ends an AUX transaction, and the stamp is captured whole. -/
theorem gammaNightAuxAndFrameStamp : Obligations.GammaNightAuxAndFrameStamp := by
  unfold Obligations.GammaNightAuxAndFrameStamp
  refine ⟨fun s t fn h ho => ⟨gammaDataWrite_open ho, gammaCommit_open ho⟩,
    fun s t fn h ho => ⟨nightWrite_open ho, fun hdp hbusy => ?aux⟩,
    fun s t h reply data hl => ⟨auxReply_defer hl, auxReply_ends hl, auxTimeout_due hl⟩,
    fun s t fn h night hfn hr hup hgrp hown => nightWrite_notOwner t night hfn hr hup hgrp hown,
    fun s t ini h hr => frameDtLoRead_captures t hr⟩
  case aux =>
    have hstart := auxStart_open (t := t) ho hdp hbusy
    refine ⟨fun hfit => ?starts, fun hnormal hshut => ?refused, fun hnormal hshut hnative => ?violation⟩
    case starts =>
      have hshut : ¬((s.safeOf h).safety && !s.isSecure fn && (s.head h).auxShut) = true := by
        intro hc
        simp only [Bool.and_eq_true, Bool.not_eq_true'] at hc
        exact hfit ⟨hc.1, .inr hc.2⟩
      have hnative : ¬((s.safeOf h).safety && auxNativeWrite (s.head h) && !s.isSecure fn) = true := by
        intro hc
        simp only [Bool.and_eq_true, Bool.not_eq_true', auxNativeWrite, decide_eq_true_eq] at hc
        obtain ⟨⟨hsafe, hwrite⟩, hworld⟩ := hc
        exact hfit ⟨⟨hsafe, hworld⟩, .inl hwrite⟩
      rw [hstart, if_neg hshut, if_neg hnative]
    case refused =>
      obtain ⟨hsafe, hworld⟩ := hnormal
      rw [hstart, if_pos (by simp [hsafe, hworld, hshut])]
    case violation =>
      obtain ⟨hsafe, hworld⟩ := hnormal
      have hwrite : auxNativeWrite (s.head h) = true := by simpa [auxNativeWrite] using hnative
      rw [hstart, if_neg (by simp [hshut]), if_pos (by simp [hsafe, hworld, hwrite])]

end Sys2Proof.Machine
end

section
/-! SUPPORT. Output lines at the tail (R143-R145) and the backlight's PWM (R151, R152): what a line that passes the tail leaves
behind, and from it the statement on underruns. -/

namespace Sys2Proof.Machine

/-! ### The plane line of an output line (R217, R220) -/

/-- A line that is rendered joins the rows of its head, of which nothing else changes. -/
theorem renderLine_head (s : State) (h y : Nat) (nxt : Bool) (d : PassFault) :
    ∃ rows, (renderLine s h y nxt d).head h = { s.head h with rows := rows } := by
  unfold renderLine
  extract_lets p pic w ta tb wa wb s1 s2 la lb crc fa fb differ m2 s3 line row
  have hs3 : sceneOf s3 = sceneOf s := by
    simp [s3, m2, s2, s1, unresolved, foldl_scene]
  exact ⟨_, by rw [modHead_head, head_of_scene hs3]⟩

theorem readyRow_head (s : State) (h y : Nat) : ∃ rows, (readyRow s h y).head h = { s.head h with rows := rows } := by
  unfold readyRow
  split
  · exact ⟨_, rfl⟩
  · exact renderLine_head _ _ _ _ _

/-- No line is rendered at the tail of a head without a safety plane, nor one that is held already. -/
theorem readyRow_held {s : State} {h y : Nat}
    (hk : (s.safeOf h).safety = false ∨ ∃ r ∈ (s.head h).rows, r.y = y ∧ r.next = false) : readyRow s h y = s := by
  unfold readyRow
  refine if_pos ?_
  rcases hk with hk | hk
  · simp [hk]
  · simp [hk]

/-! ### A line passes the tail -/

/-- A head after line `y` with `rep` repeated pixels: its rows up to there are done, the underruns are counted (R143-R146). -/
def Head.passed (d : Head) (y rep last : Nat) : Head :=
  { d with
    rows := d.rows.filter fun r => r.next || r.y > y
    lastPix := last
    undPix := satAdd d.undPix rep 0xFFFFFFFF
    undLines := if rep = 0 then d.undLines else satInc d.undLines 0xFFFFFFFF
    undFrame := if rep = 0 then d.undFrame else d.undFrame + 1 }

/-- The state after that line has also run through the check regions of the head. -/
def linePassed (s : State) (h y rep : Nat) (last : Head → Nat) (g : Check → Check) : State :=
  mapChecks (s.modHead h fun d => d.passed y rep (last d)) h g

theorem linePassed_head (s : State) (h y rep : Nat) (last : Head → Nat) (g : Check → Check) :
    ∃ checks, (linePassed s h y rep last g).head h = { (s.head h).passed y rep (last (s.head h)) with checks := checks } := by
  exact ⟨_, by rw [linePassed, mapChecks, modHead_head, modHead_head]⟩

theorem linePassed_head_ne (s : State) {h k : Nat} (y rep : Nat) (last : Head → Nat) (g : Check → Check) (hk : k ≠ h) :
    (linePassed s h y rep last g).head k = s.head k := by
  rw [linePassed, mapChecks, modHead_head_ne _ _ _ hk, modHead_head_ne _ _ _ hk]

theorem exec_tailLine (t : Time) (h : Fin 12) (y ready : Nat) (fault : Word) (s : State) :
    exec (.tailLine t h y ready fault) s = execTailLine t h y ready fault s := rfl

/-- What TAIL_LINE does to a line of the mode on a head that makes frames: the line passes, and leaves while the link is UP. -/
theorem tailLine_passes {s : State} (t : Time) {h : Fin 12} {y : Nat} (ready : Nat) (fault : Word) (hf : s.framing h = true)
    (hy : y < (modeOf (s.head h).mode).h) :
    ∃ (last : Head → Nat) (g : Check → Check) (l : List (List Nat)), exec (.tailLine t h y ready fault) s =
      .next (let s' := linePassed (readyRow (s.at t) h y) h y ((modeOf (s.head h).mode).w - ready) last g
        if (s.head h).link = 3 then s'.emit (.line h y l) else s') := by
  have hruns : (!(s.at t).framing h || decide (y ≥ (modeOf ((s.at t).head h).mode).h)) = false := by
    have hf' : (s.at t).framing h = true := hf
    simp [hf', hy]
  rw [exec_tailLine]
  unfold execTailLine
  simp only [hruns, Bool.false_eq_true, if_false]
  exact ⟨_, _, _, rfl⟩

/-- The counts that a line of the mode leaves (R143-R146). -/
theorem tailLine_counts {s : State} (t : Time) {h : Fin 12} {y : Nat} (ready : Nat) (fault : Word) (hf : s.framing h = true)
    (hy : y < (modeOf (s.head h).mode).h) :
    let rep := (modeOf (s.head h).mode).w - ready
    let d := s.head h
    ∃ s', exec (.tailLine t h y ready fault) s = .next s' ∧
      (s'.head h).undPix = min (d.undPix + rep) (max d.undPix 0xFFFFFFFF) ∧
      (s'.head h).undLines = (if rep = 0 then d.undLines else if d.undLines < 0xFFFFFFFF then d.undLines + 1 else d.undLines) ∧
      (s'.head h).undFrame = (if rep = 0 then d.undFrame else d.undFrame + 1) ∧
      ((s.safeOf h).safety = false ∨ (∃ r ∈ d.rows, r.y = y ∧ r.next = false) →
      (d.link = 3 → ∃ l, s'.out = s.out ++ [.line h y l]) ∧ (d.link ≠ 3 → s'.out = s.out) ∧
      s' = { s.at t with heads := s'.heads, out := s'.out } ∧ ∀ k, k ≠ h.val → s'.head k = s.head k) := by
  intro rep d
  obtain ⟨last, g, l, hexec⟩ := tailLine_passes t ready fault hf hy
  obtain ⟨rows, hrows⟩ := readyRow_head (s.at t) h y
  obtain ⟨checks, hpassed⟩ := linePassed_head (readyRow (s.at t) h y) h y rep last g
  rw [hrows] at hpassed
  have hleaves : ∀ k, (if (s.head h).link = 3 then (linePassed (readyRow (s.at t) h y) h y rep last g).emit (.line h y l)
      else linePassed (readyRow (s.at t) h y) h y rep last g).head k =
      (linePassed (readyRow (s.at t) h y) h y rep last g).head k := fun k => by split <;> rfl
  refine ⟨_, hexec, ?_, ?_, ?_, fun hheld => ?_⟩
  · rw [hleaves, hpassed]; rfl
  · rw [hleaves, hpassed]; rfl
  · rw [hleaves, hpassed]; rfl
  · have hrow : readyRow (s.at t) h y = s.at t := readyRow_held hheld
    refine ⟨fun hup => ⟨l, ?_⟩, fun hdown => ?_, ?_, fun k hk => ?_⟩
    · rw [hrow, if_pos hup]; rfl
    · rw [hrow, if_neg hdown]; rfl
    · rw [hrow]; split <;> rfl
    · rw [hleaves, linePassed_head_ne _ _ _ _ _ hk, hrow]; rfl

/-! ### UNDERRUN_CLR and the PWM -/

theorem underrunClr_open {s : State} {t : Time} {fn : Fin 128} {h : Fin 12} {w : Word} (ho : s.headOpen fn h false = true)
    (hw : w.getLsbD 0 = true) :
    exec (.underrunClr t fn h w) s = .next ((s.at t).modHead h fun d => { d with undPix := 0, undLines := 0 }) := by
  change Host.Outcome.next (headWrite (s.at t) fn h false fun s =>
    if w.getLsbD 0 then s.modHead h fun d => { d with undPix := 0, undLines := 0 } else s) = _
  rw [headWrite_open _ _ _ _ _ _ ho, if_pos hw]

theorem exec_pwmPeriodEnd (t : Time) (h : Fin 12) (s : State) : exec (.pwmPeriodEnd t h) s = execPwmPeriodEnd t h s := rfl

/-- The settings written take effect once the period in progress is over (R151, R152). -/
theorem pwmPeriodEnd_due {s : State} {t : Time} {h : Fin 12} (hup : s.up (mantleOf h) = true)
    (hdue : (s.head h).blStart + (s.head h).blPeriod ≤ max s.dt t) :
    let duty := if (s.head h).next.night then fld (s.head h).blDuty 16 12 else fld (s.head h).blDuty 0 12
    exec (.pwmPeriodEnd t h) s = .next ((s.at t).modHead h fun d => { d with
      blPeriod := pwmPeriod d, blStart := max s.dt t, blDutyA := if (s.safeOf h).safety then max (s.safeOf h).floor duty else duty
      blOn := d.blCfg.getLsbD 0 || ((s.safeOf h).safety && d.running) }) := by
  have hpast : (s.head h).blStart + (s.head h).blPeriod ≤ (s.at t).dt := hdue
  have hends : exec (.pwmPeriodEnd t h) s = .next (pwmEnd (s.at t) h) := by
    simp [exec_pwmPeriodEnd, execPwmPeriodEnd, hup, hpast]
  rw [hends, pwmEnd]
  exact congrArg _ (modHead_congr rfl)

/-- Settles O32: a line counts its repeated pixels and leaves while the link is UP, UNDERRUN_CLR clears the counts, and a period
end takes the settings written. -/
theorem tailLinesCountUnderruns : Obligations.TailLinesCountUnderruns := by
  unfold Obligations.TailLinesCountUnderruns
  exact ⟨fun s t h y ready fault hf hy => tailLine_counts t ready fault hf hy,
    fun s t fn h w ho hw => underrunClr_open ho hw, fun s t h hup hdue => pwmPeriodEnd_due hup hdue⟩

end Sys2Proof.Machine
end

section
/-! SUPPORT. The frame start of a head and of its clones (R111, R122, R127, R233): what it leaves of each head, whatever line-lock,
the backlight and the check regions make of theirs. -/

namespace Sys2Proof.Machine

/-! ### The head under a scene that an operation keeps -/

@[simp] theorem linkEvent_scene (s : State) (h cause : Nat) : sceneOf (linkEvent s h cause) = sceneOf s := sendTo_scene _ _ _ _ _ _ _

@[simp] theorem lockEvent_scene (s : State) (h old : Nat) : sceneOf (lockEvent s h old) = sceneOf s := by
  simp [lockEvent]

@[simp] theorem showSends_scene (old s : State) (h : Nat) : sceneOf (showSends old s h) = sceneOf s := by
  simp [showSends]

/-! ### Steps of a frame start that touch one head only -/

/-- A head but for what line-lock, the backlight and the check regions set at a frame start. -/
def Head.steady (d : Head) : Head :=
  { d with
    lock := 0, trim := 0, phase := 0, lockGood := 0, lockBad := 0, lockMiss := 0, camSeen := 0
    blPeriod := 0, blStart := 0, blDutyA := 0, blOn := false, checks := [], srcAt := [] }

/-- From `a` to `b` a step of the frame start of head `h` sets such fields of that head, and leaves the other heads and the
islands as they are. -/
def steadyStep (h : Nat) (a b : State) : Prop :=
  (b.head h).steady = (a.head h).steady ∧ (∀ k, k ≠ h → b.head k = a.head k) ∧ (sceneOf b).isl = (sceneOf a).isl

theorem steadyStep_refl (h : Nat) (s : State) : steadyStep h s s := ⟨rfl, fun _ _ => rfl, rfl⟩

theorem steadyStep_trans {h : Nat} {a b c : State} (hab : steadyStep h a b) (hbc : steadyStep h b c) : steadyStep h a c := by
  obtain ⟨d1, o1, i1⟩ := hab
  obtain ⟨d2, o2, i2⟩ := hbc
  exact ⟨d2.trans d1, fun k hk => (o2 k hk).trans (o1 k hk), i2.trans i1⟩

theorem steadyStep_of_scene {a b : State} (h : Nat) (e : sceneOf b = sceneOf a) : steadyStep h a b :=
  ⟨by rw [head_of_scene e], fun k _ => head_of_scene e k, by rw [e]⟩

theorem steadyStep_modHead (s : State) (h : Nat) (f : Head → Head) (e : (f (s.head h)).steady = (s.head h).steady) :
    steadyStep h s (s.modHead h f) :=
  ⟨by rw [modHead_head, e], fun _ hk => modHead_head_ne _ _ _ hk, rfl⟩

theorem lineLock_steadyStep (s : State) (h : Nat) : steadyStep h s (lineLock s h) := by
  unfold lineLock
  dsimp only
  split
  · exact steadyStep_refl _ _
  · split <;>
    · refine steadyStep_trans (steadyStep_modHead s h _ ?_) (steadyStep_of_scene h (lockEvent_scene _ _ _))
      rfl

/-- A head that follows no camera keeps its trim. -/
theorem lineLock_free {s : State} {h : Nat} (hl : (s.head h).lockEn = false) : lineLock s h = s := by
  simp [lineLock, hl]

/-! ### The frame start of a head -/

/-- What the frame start of head `k` makes of it: the frame is counted and stamped, the picture of the last latch is shown, and
a clone that follows no camera takes the trim of its source (R111, R122, R127, R192). -/
def startedFrom (s : State) (k : Nat) (d : Head) : Prop :=
  d.frames = ((s.head k).frames + 1) % 2 ^ 32 ∧ d.frameDt = s.stamp (mantleOf k) ∧ d.pic = (s.head k).next ∧ d.applied = none ∧
  ((s.head k).lockEn = false → d.trim = if (s.head k).role = 2 then (s.head (s.head k).cloneSrc).trim else (s.head k).trim)

theorem startedFrom_of_steady {s : State} {k : Nat} {d e : Head} (h : startedFrom s k d) (hs : e.steady = d.steady)
    (ht : (s.head k).lockEn = false → e.trim = d.trim) : startedFrom s k e := by
  obtain ⟨hframes, hdt, hpic, happlied, htrim⟩ := h
  have same : ∀ {α : Type} (g : Head → α), g e.steady = g d.steady := fun g => by rw [hs]
  exact ⟨(same Head.frames).trans hframes, (same Head.frameDt).trans hdt, (same Head.pic).trans hpic,
    (same Head.applied).trans happlied, fun hl => (ht hl).trans (htrim hl)⟩

/-- The frame start of a head: what it makes of that head, and that it leaves the other heads and the islands as they are. -/
theorem frameStart_starts (s : State) (h : Nat) (loopOk : Bool) :
    startedFrom s h ((frameStart s h loopOk).head h) ∧ (∀ k, k ≠ h → (frameStart s h loopOk).head k = s.head k) ∧
      (sceneOf (frameStart s h loopOk)).isl = (sceneOf s).isl := by
  unfold frameStart
  extract_lets stamp was s1 s2 s3 s4 s5 s6
  have h1 : startedFrom s h (s1.head h) := by
    simp only [s1, modHead_head]
    exact ⟨rfl, rfl, rfl, rfl, fun _ => rfl⟩
  have hlock : (s1.head h).lockEn = (s.head h).lockEn := by simp only [s1, modHead_head]
  have hothers : ∀ k, k ≠ h → s1.head k = s.head k := fun k hk => modHead_head_ne _ _ _ hk
  have hisl : (sceneOf s1).isl = (sceneOf s).isl := rfl
  clear_value was s1
  have h2 : sceneOf s2 = sceneOf s1 := by
    simp only [s2]
    split <;> simp
  clear_value s2
  have h4 : steadyStep h s3 s4 := by
    simp only [s4]
    split
    · exact steadyStep_modHead _ _ _ rfl
    · exact steadyStep_refl _ _
  have htrim4 : (s4.head h).trim = (s3.head h).trim := by
    simp only [s4]
    split
    · rw [pwmEnd, modHead_head]
    · rfl
  have h3 : steadyStep h s2 s3 := lineLock_steadyStep _ _
  have htrim3 : (s.head h).lockEn = false → (s3.head h).trim = (s1.head h).trim := fun hl => by
    have hl2 : (s2.head h).lockEn = false := by rw [head_of_scene h2, hlock, hl]
    simp only [s3, lineLock_free hl2, head_of_scene h2]
  clear_value s3 s4
  have h5 : steadyStep h s4 s5 := steadyStep_trans (steadyStep_of_scene h (showSends_scene s s4 h))
    (steadyStep_trans (steadyStep_modHead _ _ _ rfl) (steadyStep_modHead _ _ _ rfl))
  have htrim5 : (s5.head h).trim = (s4.head h).trim := by
    simp only [s5, mapChecks, modHead_head, head_of_scene (showSends_scene s s4 h)]
  clear_value s5
  have hend : sceneOf (if !(s5.safeOf h).safety then s5 else if loopOk then s6 else relocate s6 h 1) = sceneOf s5 := by
    simp [s6]
  obtain ⟨hsteady, hkeep, hisl5⟩ := steadyStep_trans (steadyStep_of_scene h h2) (steadyStep_trans h3 (steadyStep_trans h4 h5))
  refine ⟨?_, fun k hk => ?_, ?_⟩
  · rw [head_of_scene hend]
    exact startedFrom_of_steady h1 hsteady fun hl => by rw [htrim5, htrim4, htrim3 hl]
  · rw [head_of_scene hend, hkeep k hk, hothers k hk]
  · rw [hend, hisl5, hisl]

/-- The frame start of a head moves no stamp. -/
theorem frameStart_stamp (s : State) (h : Nat) (loopOk : Bool) (i : Nat) : (frameStart s h loopOk).stamp i = s.stamp i :=
  stamp_of_isl (frameStart_starts s h loopOk).2.2 (frameStart_keep s h loopOk) i

/-! ### The frame starts of clones (R127) -/

theorem frameStarts_other {l : List Nat} {k : Nat} (hk : k ∉ l) (s : State) :
    (l.foldl (fun s k => frameStart s k true) s).head k = s.head k := by
  induction l generalizing s with
  | nil => rfl
  | cons x r ih =>
    rw [List.mem_cons, not_or] at hk
    obtain ⟨hx, hr⟩ := hk
    rw [List.foldl_cons, ih hr, (frameStart_starts s x true).2.1 k hx]

/-- Each head of a list has its frame start, as in the state before them all, if its source is not in the list. -/
theorem frameStarts_started {l : List Nat} (hl : l.Nodup) (s : State) {k : Nat} (hk : k ∈ l)
    (hsrc : (s.head k).cloneSrc ∉ l) : startedFrom s k ((l.foldl (fun s k => frameStart s k true) s).head k) := by
  induction l generalizing s with
  | nil => cases hk
  | cons x r ih =>
    obtain ⟨hx, hr⟩ := List.nodup_cons.mp hl
    obtain ⟨hstarted, hothers, _⟩ := frameStart_starts s x true
    rw [List.foldl_cons]
    rcases List.mem_cons.mp hk with rfl | hkr
    · rw [frameStarts_other hx]
      exact hstarted
    · rw [List.mem_cons, not_or] at hsrc
      obtain ⟨hsx, hsr⟩ := hsrc
      have hkx : k ≠ x := fun e => hx (e ▸ hkr)
      have hhead := hothers k hkx
      have hstart := ih hr (frameStart s x true) hkr (by rw [hhead]; exact hsr)
      unfold startedFrom at hstart ⊢
      rwa [hhead, hothers _ hsx, frameStart_stamp] at hstart

/-! ### FRAME_START and FRAME_START_ABSENT -/

theorem exec_frameStart (t : Time) (h : Fin 12) (loopOk : Bool) (s : State) :
    exec (.frameStart t h loopOk) s = execFrameStart t h loopOk s := rfl

/-- A clone has no frame start but its source's. -/
theorem frameStart_clone {s : State} (t : Time) {h : Fin 12} (loopOk : Bool) (hr : (s.head h).role = 2) :
    exec (.frameStart t h loopOk) s = .next (s.at t) := by
  simp [exec_frameStart, execFrameStart, hr]

theorem mem_clonesOf {s : State} {h k : Nat} : k ∈ s.clonesOf h ↔ k < 12 ∧ (s.head k).role = 2 ∧ (s.head k).cloneSrc = h ∧
    (s.head k).running = true ∧ s.up (mantleOf k) = true := by
  simp [State.clonesOf, and_assoc]

theorem clonesOf_nodup (s : State) (h : Nat) : (s.clonesOf h).Nodup := List.nodup_range.filter _

/-- The frame start of a head and of its running clones (R111, R122, R127, R192). -/
theorem frameStart_runs {s : State} (t : Time) {h : Fin 12} (loopOk : Bool) (hup : s.up (mantleOf h) = true)
    (hrun : (s.head h).running = true) (hr : (s.head h).role ≠ 2) :
    ∃ s', exec (.frameStart t h loopOk) s = .next s' ∧ startedFrom (s.at t) h (s'.head h) ∧
      ∀ k ∈ s.clonesOf h, (s'.head k).frames = ((s.head k).frames + 1) % 2 ^ 32 ∧
        (s'.head k).frameDt = (s.at t).stamp (mantleOf k) ∧ ((s.head k).lockEn = false → (s'.head k).trim = (s'.head h).trim) := by
  obtain ⟨hstarted, hothers, _⟩ := frameStart_starts (s.at t) h loopOk
  have hnot : h.val ∉ s.clonesOf h := fun hmem => hr (mem_clonesOf.mp hmem).2.1
  have hself := frameStarts_other hnot (frameStart (s.at t) h loopOk)
  have hexec : exec (.frameStart t h loopOk) s = .next (runUpdates
      ((s.clonesOf h).foldl (fun s k => frameStart s k true) (frameStart (s.at t) h loopOk))) := by
    rw [exec_frameStart]
    unfold execFrameStart
    dsimp only
    rw [if_neg (by simp [hup, hrun, hr])]
    rfl
  refine ⟨_, hexec, ?_, fun k hk => ?_⟩
  · rw [head_of_scene (runUpdates_scene _), hself]
    exact hstarted
  · obtain ⟨_, hrole, hsrc, _, _⟩ := mem_clonesOf.mp hk
    have hhead : (frameStart (s.at t) h loopOk).head k = s.head k := hothers k fun e => hnot (e ▸ hk)
    obtain ⟨hframes, hdt, _, _, htrim⟩ := frameStarts_started (clonesOf_nodup s h) (frameStart (s.at t) h loopOk) hk
      (by rw [hhead, hsrc]; exact hnot)
    rw [hhead] at hframes htrim
    rw [head_of_scene (runUpdates_scene _), head_of_scene (runUpdates_scene _), hself]
    exact ⟨hframes, hdt.trans (frameStart_stamp _ _ _ _), fun hl => by rw [htrim hl, if_pos hrole, hsrc]⟩

theorem exec_frameStartAbsent (t : Time) (h : Fin 12) (s : State) :
    exec (.frameStartAbsent t h) s = execFrameStartAbsent t h s := rfl

/-- A safety head whose frame start is missing for two periods is relocated (R233). -/
theorem frameStartAbsent_due {s : State} {t : Time} {h : Fin 12} (hsafe : (s.safeOf h).safety = true)
    (hup : s.up (mantleOf h) = true) (hrun : (s.head h).running = true)
    (hdue : max (s.head h).frameDt (s.head h).runAt + 2 * (modeOf (s.head h).mode).period ≤ max s.dt t) :
    exec (.frameStartAbsent t h) s = .next (relocate (s.at t) h 1) := by
  have hpast : max (s.head h).frameDt (s.head h).runAt + 2 * (modeOf (s.head h).mode).period ≤ (s.at t).dt := hdue
  simp [exec_frameStartAbsent, execFrameStartAbsent, hsafe, hup, hrun, hpast]

end Sys2Proof.Machine
end

section
/-! SUPPORT. The blanking start and the latch of a head (R146, R149, R150, R179, R192-R196, R235-R239): what each step leaves of the
head and of its slots, and from it the statement on frames. -/

namespace Sys2Proof.Machine

/-! ### BLANKING_START: the commands judged at the latch -/

/-- Completing what was judged leaves no judged command and none that timed out (R194-R196). -/
theorem completeDone_scene (s : State) (h : Nat) : sceneOf (completeDone s h) =
    sceneOf (s.modHead h fun d => { d with done := [], pend := d.pend.filter fun p => !p.timedOut }) := by
  simp [completeDone, foldl_scene]

/-! ### BLANKING_START: the check regions -/

/-- From `a` to `b` the check regions of head `h` changed, and neither the rest of it nor a slot. -/
def checksOnly (h : Nat) (a b : State) : Prop :=
  (∃ checks, b.head h = { a.head h with checks := checks }) ∧ b.slots = a.slots

theorem checksOnly_trans {h : Nat} {a b c : State} (hab : checksOnly h a b) (hbc : checksOnly h b c) : checksOnly h a c := by
  obtain ⟨⟨x, hx⟩, hs⟩ := hab
  obtain ⟨⟨y, hy⟩, ht⟩ := hbc
  exact ⟨⟨y, by rw [hy, hx]⟩, ht.trans hs⟩

theorem checksOnly_of_scene {a b : State} (h : Nat) (e : sceneOf b = sceneOf a) : checksOnly h a b :=
  ⟨⟨_, head_of_scene e h⟩, slots_of_scene e⟩

theorem modCheck_checksOnly (s : State) (h k : Nat) (g : Check → Check) : checksOnly h s (s.modCheck h k g) :=
  ⟨⟨_, modHead_head _ _ _⟩, rfl⟩

@[simp] theorem frozenEvent_scene (s : State) (h k d7 : Nat) : sceneOf (frozenEvent s h k d7) = sceneOf s := by
  simp [frozenEvent, foldl_scene]

theorem freezeDetect_checksOnly (s : State) (h i : Nat) (k : Check) (crc : Nat) : checksOnly h s (freezeDetect s h i k crc) := by
  unfold freezeDetect
  split
  · exact modCheck_checksOnly _ _ _ _
  · extract_lets adv same thaw frz hit s1 s2
    have hevents : sceneOf s2 = sceneOf s := by simp [s2, s1]
    exact checksOnly_trans (checksOnly_of_scene h hevents) (modCheck_checksOnly _ _ _ _)

theorem ckEnd_checksOnly (s : State) (h i : Nat) (k : Check) : checksOnly h s (ckEnd s h i k) := by
  unfold ckEnd
  dsimp only
  split
  · exact modCheck_checksOnly _ _ _ _
  · split
    · exact modCheck_checksOnly _ _ _ _
    · split
      · exact checksOnly_trans (modCheck_checksOnly _ _ _ _) (freezeDetect_checksOnly _ _ _ _ _)
      · split <;> exact modCheck_checksOnly _ _ _ _

theorem ckEnds_checksOnly (l : List (Nat × Check)) (s : State) (h : Nat) :
    checksOnly h s (l.foldl (fun s e => ckEnd s h e.1 e.2) s) := by
  induction l generalizing s with
  | nil => exact checksOnly_of_scene h rfl
  | cons e r ih => exact checksOnly_trans (ckEnd_checksOnly _ _ _ _) (ih _)

/-! ### BLANKING_START: HIDDEN of the slots, the comparison of the frame -/

/-- The slots of a head among a list take HIDDEN from what the frame showed (R179). -/
def hideSlots (l : List Nat) (h : Nat) (hidden : Nat → Bool) (s : State) : State :=
  l.foldl (fun s n => if (s.slotOf n).head = h then s.modSlot n fun x => { x with hidden := hidden n } else s) s

theorem hideSlots_heads (l : List Nat) (h : Nat) (hidden : Nat → Bool) (s : State) : (hideSlots l h hidden s).heads = s.heads :=
  foldl_heads _ (fun s n => by split <;> rfl) l s

theorem hideSlots_slotOf (l : List Nat) (h : Nat) (hidden : Nat → Bool) (s : State) (n : Nat) :
    (hideSlots l h hidden s).slotOf n =
      if n ∈ l ∧ (s.slotOf n).head = h then { s.slotOf n with hidden := hidden n } else s.slotOf n := by
  unfold hideSlots
  induction l generalizing s with
  | nil => simp
  | cons x r ih =>
    rw [List.foldl_cons, ih]
    by_cases hx : (s.slotOf x).head = h
    · by_cases hn : n = x
      · subst hn; simp [hx]
      · simp [hx, hn, modSlot_slotOf_ne _ _ _ hn]
    · by_cases hn : n = x
      · subst hn; simp [hx]
      · simp [hx, hn]

@[simp] theorem safetyFrame_scene (s : State) (h : Nat) : sceneOf (safetyFrame s h) = sceneOf s := by
  unfold safetyFrame
  split <;> simp

theorem exec_blankingStart (t : Time) (h : Fin 12) (cmpOk : Bool) (s : State) :
    exec (.blankingStart t h cmpOk) s = execBlankingStart t h cmpOk s := rfl

/-- What a blanking start leaves of a head that makes frames, and of its slots (R146, R179, R194-R196). -/
theorem blankingStart_leaves {s : State} (t : Time) {h : Fin 12} (cmpOk : Bool) (hf : s.framing h = true) :
    ∃ s', exec (.blankingStart t h cmpOk) s = .next s' ∧ (s'.head h).done = [] ∧ (s'.head h).undFrame = 0 ∧
      (s'.head h).pend = (s.head h).pend.filter (fun p => !p.timedOut) ∧
      ∀ n, n < 64 → (s.slotOf n).head = h.val → (s'.slotOf n).hidden = (s.head h).pic.hidden.contains n := by
  have hf' : (s.at t).framing h = true := hf
  rw [exec_blankingStart]
  unfold execBlankingStart
  rw [if_neg (by simp [hf'])]
  extract_lets s1 d s2 s3 s4
  have hdone : sceneOf s1 = _ := completeDone_scene (s.at t) h
  have hd : d = { s.head h with done := [], pend := (s.head h).pend.filter fun p => !p.timedOut } := by
    rw [show d = s1.head h from rfl, head_of_scene hdone, modHead_head]
    rfl
  have hs1 : s1.slots = s.slots := (slots_of_scene hdone).trans rfl
  have hdhead : s1.head h = d := rfl
  clear_value s1 d
  have hs2 : s2.head h = { d with undFrame := 0 } ∧ s2.slots = s.slots := by
    simp only [s2]
    split
    · next hz => exact ⟨by rw [hdhead, ← hz], hs1⟩
    · exact ⟨by rw [head_of_scene (sendTo_scene _ _ _ _ _ _ _), modHead_head, hdhead],
        (slots_of_scene (sendTo_scene _ _ _ _ _ _ _)).trans hs1⟩
  clear_value s2
  obtain ⟨⟨checks, hchecks⟩, hs3⟩ := ckEnds_checksOnly d.checks s2 h
  have hhead : s4.head h = { d with undFrame := 0, checks := checks } := by
    have hheads : s4.heads = s3.heads := hideSlots_heads (List.range 64) h d.pic.hidden.contains s3
    rw [State.head, hheads]
    exact hchecks.trans (by rw [hs2.1])
  have hslots : ∀ n, n < 64 → (s.slotOf n).head = h.val → (s4.slotOf n).hidden = d.pic.hidden.contains n := by
    intro n hn hs
    have hslot : s3.slotOf n = s.slotOf n := by rw [State.slotOf, hs3, hs2.2]; rfl
    have hhide : s4.slotOf n = _ := hideSlots_slotOf (List.range 64) h d.pic.hidden.contains s3 n
    rw [hhide, hslot, if_pos ⟨List.mem_range.mpr hn, hs⟩]
  have hend : ∃ s', (if !((s.at t).safeOf h).safety then Host.Outcome.next (φ := Fault) (ρ := Refusal) s4
      else .next (safetyFrame (if cmpOk then s4 else report s4 1 0x14) h)) = .next s' ∧ sceneOf s' = sceneOf s4 := by
    split
    · exact ⟨_, rfl, rfl⟩
    · exact ⟨_, rfl, by simp⟩
  obtain ⟨s', hexec, hscene⟩ := hend
  refine ⟨s', hexec, ?_, ?_, ?_, fun n hn hs => ?_⟩
  · rw [head_of_scene hscene, hhead, hd]
  · rw [head_of_scene hscene, hhead]
  · rw [head_of_scene hscene, hhead, hd]
  · rw [slotOf_of_scene hscene, hslots n hn hs, hd]

/-! ### LATCH: night, flips, commit, the picture of the next frame -/

/-- A head but for what judging flips and commits sets (R191-R196, R250). -/
def Head.unjudged (d : Head) : Head := { d with pend := [], nApplied := 0, night := false, done := [] }

theorem applyLayers_heads (s : State) (h : Nat) (p : PFlip) : (applyLayers s h p).heads = s.heads := by
  have hentry : ∀ (s : State) (e : Layer), (applyEntry p.fn h s e).heads = s.heads := fun s e => by
    unfold applyEntry
    split
    · exact (modSlot_heads _ _ _).trans (heads_of_scene (holdPerf_scene _ _ _))
    · rfl
  unfold applyLayers
  dsimp only
  rw [foldl_heads _ hentry]
  split
  · exact foldl_heads _ (fun _ _ => by rfl) _ _
  · rfl

/-- Judging flips touches no more of a head than that. -/
theorem judge_unjudged (h : Nat) (L : Time) (s : State) (l : List PFlip) (blocked : List Nat) (k : Nat) :
    ((judge h L s l blocked).head k).unjudged = (s.head k).unjudged := by
  induction l generalizing s blocked with
  | nil => rfl
  | cons p r ih =>
    have hmod : ∀ (s : State) (f : Head → Head), (f (s.head h)).unjudged = (s.head h).unjudged →
        ((s.modHead h f).head k).unjudged = (s.head k).unjudged := by
      intro s f e
      by_cases hk : k = h
      · subst hk; rw [modHead_head, e]
      · rw [modHead_head_ne _ _ _ hk]
    unfold judge
    dsimp only
    split
    · rw [ih, hmod]
      rfl
    · split
      · rw [ih, hmod _ _ rfl, State.head, applyLayers_heads]
        rfl
      · rw [ih, head_of_scene (complete_scene _ _ _ _)]

theorem applyCommit_unjudged (s : State) (h : Nat) (L : Time) :
    ((applyCommit s h L).head h).unjudged = (s.head h).unjudged ∧ ((applyCommit s h L).head h).night = (s.head h).night := by
  unfold applyCommit
  split
  · split
    · exact ⟨rfl, rfl⟩
    · rw [modHead_head, head_of_scene (fileDirectory_scene _ _)]
      exact ⟨rfl, rfl⟩
  · exact ⟨rfl, rfl⟩

theorem latchRelocated_scene (s : State) (p : Nat) : sceneOf (latchRelocated s p) = sceneOf s := by
  simp [latchRelocated, foldl_scene]

/-- Letting ready groups go changes only the pending flips of a head (R199). -/
theorem releaseGroups_head (s : State) (k : Nat) : ∃ g, (releaseGroups s).head k = { s.head k with pend := (s.head k).pend.map g } := by
  have hfold : ∀ (l : List Nat) (a : State), (∃ g, a.head k = { s.head k with pend := (s.head k).pend.map g }) →
      ∃ g, (l.foldl (fun s' h => s'.modHead h fun d => { d with
        pend := d.pend.map fun p => if p.group ≠ 0 && !p.go && s.groupReady p false then { p with go := true } else p }) a).head k =
          { s.head k with pend := (s.head k).pend.map g } := by
    intro l
    induction l with
    | nil => exact fun _ ha => ha
    | cons x r ih =>
      rintro a ⟨g, hg⟩
      refine ih _ ?_
      by_cases hk : k = x
      · subst hk
        exact ⟨_, by rw [modHead_head, hg, List.map_map]⟩
      · exact ⟨g, by rw [modHead_head_ne _ _ _ hk, hg]⟩
  exact hfold _ s ⟨id, by simp⟩

/-- A latch takes a write of NIGHT before its instant (R44, R150). -/
theorem takeNight_head (s : State) (h : Nat) : ∃ night nightW,
    (takeNight s h).head h = { s.head h with night := night, nightW := nightW } ∧
    ∀ w, (s.head h).nightW = some w →
      night = (if w.2 < s.dt then w.1 else (s.head h).night) ∧ nightW = if w.2 < s.dt then none else some w := by
  unfold takeNight
  rw [modHead_head]
  cases hw : (s.head h).nightW with
  | none => exact ⟨_, _, rfl, fun w e => by cases e⟩
  | some w =>
    by_cases ht : w.2 < s.dt
    · refine ⟨w.1, none, by simp [ht], ?_⟩
      rintro _ ⟨⟩
      simp [ht]
    · refine ⟨(s.head h).night, some w, by simp [ht, ← hw], ?_⟩
      rintro _ ⟨⟩
      simp [ht]

/-- What the latch makes of its head from the shadows: the picture of the next frame, and what is still pending (R149, R150). -/
theorem latchPicture_head (s : State) (h : Nat) (L : Time) : ∃ pic checks, (latchPicture s h L).head h = { s.head h with
      next := pic, checks := checks, nightP := (s.head h).nightW.isSome, lastLatch := s.dt
      gCommit := (s.head h).gCommit && !((s.head h).gCommit && decide ((s.head h).gCommitAt < s.dt)) } ∧
    pic.night = (s.head h).night ∧ pic.bg = (s.head h).bg.toNat % 2 ^ 30 ∧
    pic.gamma = if (s.head h).gCommit && decide ((s.head h).gCommitAt < s.dt) then (s.head h).gShadow else (s.head h).next.gamma := by
  unfold latchPicture
  extract_lets d layers lists commit pic s1
  have h1 : s1.head h = s.head h := head_of_scene (by simp [s1]) h
  have hdt : s1.dt = s.dt := by
    simp only [s1]
    split <;> rfl
  exact ⟨pic, _, by rw [mapChecks, modHead_head, modHead_head, h1], rfl, rfl, rfl⟩

/-- A latch forms the picture of its head from a head that differs from the one before by NIGHT and by what judging sets. -/
theorem latchHead_head (s : State) (h : Nat) : ∃ (d : Head) (pic : Pic) (checks : Tbl Check) (night : Bool)
      (nightW : Option (Bool × Time)),
    d.unjudged = ({ s.head h with nightW := nightW } : Head).unjudged ∧ ((s.head h).pend = [] → d.night = night) ∧
    (∀ w, (s.head h).nightW = some w →
      night = (if w.2 < s.dt then w.1 else (s.head h).night) ∧ nightW = if w.2 < s.dt then none else some w) ∧
    (latchHead s h).head h = { d with
      next := pic, checks := checks, nightP := d.nightW.isSome, lastLatch := s.dt
      gCommit := d.gCommit && !(d.gCommit && decide (d.gCommitAt < s.dt)) } ∧
    pic.night = d.night ∧ pic.bg = d.bg.toNat % 2 ^ 30 ∧
    pic.gamma = if d.gCommit && decide (d.gCommitAt < s.dt) then d.gShadow else d.next.gamma := by
  unfold latchHead
  extract_lets src L s1 s2 s3
  have hhead1 : s1.head h = s.head h := by
    rw [State.head, show s1.heads = s.heads from foldl_heads _ (fun _ _ => by rfl) _ _]
    rfl
  have hkept1 : kept s1 = kept s := keep_foldl _ (fun _ _ => by rfl) _ _
  have hdt1 : s1.dt = s.dt := congrArg Kept.dt hkept1
  clear_value s1
  obtain ⟨night, nightW, hnight, htaken⟩ := takeNight_head s1 h
  rw [hhead1] at hnight htaken
  rw [hdt1] at htaken
  obtain ⟨g, hg⟩ := releaseGroups_head (takeNight s1 h) h
  have hhead2 : s2.head h = { s.head h with night := night, nightW := nightW, pend := (s.head h).pend.map g } := by
    simp only [s2, hg, hnight]
  have hkept2 : kept s2 = kept s := ((releaseGroups_keep _).trans (takeNight_keep _ _)).trans hkept1
  clear_value s2
  have hhead3 : (s3.head h).unjudged = ({ s.head h with nightW := nightW } : Head).unjudged := by
    simp only [s3, judge_unjudged, modHead_head, hhead2]
    rfl
  have hnight3 : (s.head h).pend = [] → (s3.head h).night = night := by
    intro hp
    simp [s3, hhead2, hp, judge]
  have hkept3 : kept s3 = kept s := (judge_keep _ _ _ _ _).trans hkept2
  clear_value s3
  obtain ⟨hcommit, hnight4⟩ := applyCommit_unjudged s3 h L
  have hscene4 := head_of_scene (latchRelocated_scene (applyCommit s3 h L) h) h
  have hdt4 : (latchRelocated (applyCommit s3 h L) h).dt = s.dt :=
    congrArg Kept.dt ((latchRelocated_keep _ _).trans ((applyCommit_keep _ _ _).trans hkept3))
  obtain ⟨pic, checks, hpic, hpn, hpb, hpg⟩ := latchPicture_head (latchRelocated (applyCommit s3 h L) h) h L
  rw [hdt4] at hpic hpg
  rw [hscene4] at hpic hpn hpb hpg
  refine ⟨_, pic, checks, night, nightW, hcommit.trans hhead3, fun hp => hnight4.trans (hnight3 hp), htaken, ?_, hpn, hpb, hpg⟩
  rw [head_of_scene (runUpdates_scene _), hpic]

theorem exec_latch (t : Time) (h : Fin 12) (s : State) : exec (.latch t h) s = execLatch t h s := rfl

/-- What a latch leaves of a head that makes frames (R44, R149, R150, R190). -/
theorem latch_leaves {s : State} (t : Time) {h : Fin 12} (hf : s.framing h = true) :
    ∃ s', exec (.latch t h) s = .next s' ∧ (s'.head h).lastLatch = max s.dt t ∧
      (s'.head h).nightP = (s'.head h).nightW.isSome ∧
      (s'.head h).gCommit = ((s.head h).gCommit && decide (max s.dt t ≤ (s.head h).gCommitAt)) ∧
      ((s.head h).pend = [] → ∀ w, (s.head h).nightW = some w →
        (s'.head h).night = (if w.2 < max s.dt t then w.1 else (s.head h).night) ∧
        ((s'.head h).nightW = if w.2 < max s.dt t then none else some w)) ∧ (s'.head h).next.night = (s'.head h).night ∧
      (s'.head h).next.bg = (s.head h).bg.toNat % 2 ^ 30 ∧
      (s'.head h).next.gamma =
        if (s.head h).gCommit = true ∧ (s.head h).gCommitAt < max s.dt t then (s.head h).gShadow else (s.head h).next.gamma := by
  have hf' : (s.at t).framing h = true := hf
  have hexec : exec (.latch t h) s = .next (tryLeaves (latchHead (s.at t) h)) := by
    simp [exec_latch, execLatch, hf']
  obtain ⟨d, pic, checks, night, nightW, hd, hnight, htaken, hhead, hpn, hpb, hpg⟩ := latchHead_head (s.at t) h
  rw [at_head] at hd hnight htaken
  rw [at_dt] at htaken hhead hpg
  have same : ∀ {α : Type} (g : Head → α), g d.unjudged = g ({ s.head h with nightW := nightW } : Head).unjudged := fun g => by rw [hd]
  have hbg : d.bg = (s.head h).bg := same Head.bg
  have hcommit : d.gCommit = (s.head h).gCommit := same Head.gCommit
  have hat : d.gCommitAt = (s.head h).gCommitAt := same Head.gCommitAt
  have hshadow : d.gShadow = (s.head h).gShadow := same Head.gShadow
  have hnext : d.next = (s.head h).next := same Head.next
  have hnightW : d.nightW = nightW := same Head.nightW
  have hlatch : (tryLeaves (latchHead (s.at t) h)).head h = (latchHead (s.at t) h).head h := by
    rw [State.head, tryLeaves_heads]
    rfl
  refine ⟨_, hexec, ?_⟩
  rw [hlatch, hhead]
  refine ⟨rfl, rfl, ?gCommit, fun hp w hw => ?night, hpn, ?bg, ?gamma⟩
  case gCommit =>
    simp only [hcommit, hat]
    cases (s.head h).gCommit <;> simp [← decide_not]
  case night =>
    obtain ⟨hn, hnw⟩ := htaken w hw
    exact ⟨(hnight hp).trans hn, hnightW.trans hnw⟩
  case bg => rw [← hbg]; exact hpb
  case gamma =>
    rw [← hcommit, ← hat, ← hshadow, ← hnext]
    exact hpg.trans (by simp)

/-- Settles O31: the frame start of a head and its clones, the blanking start, the latch, and a frame start that is missing. -/
theorem framesStartBlankAndLatch : Obligations.FramesStartBlankAndLatch := by
  unfold Obligations.FramesStartBlankAndLatch
  refine ⟨fun s t h loopOk hup hrun hr => ?start, fun s t h loopOk hr => frameStart_clone t loopOk hr,
    fun s t h cmpOk hf => blankingStart_leaves t cmpOk hf, fun s t h hf => latch_leaves t hf,
    fun s t h hsafe hup hrun hdue => frameStartAbsent_due hsafe hup hrun hdue⟩
  case start =>
    obtain ⟨s', hexec, ⟨hframes, hdt, hpic, happlied, _⟩, hclones⟩ := frameStart_runs t loopOk hup hrun hr
    exact ⟨s', hexec, hframes, hdt, hpic, happlied, fun k hk hkr hks hkrun hkup =>
      hclones k (mem_clonesOf.mpr ⟨hk, hkr, hks, hkrun, hkup⟩)⟩

end Sys2Proof.Machine
end

section
/-! SUPPORT. FLIP, its timeout, the judgement of pending flips at a latch and the fetch of layers (R156-R203): what each case
does, and from it the statements on flips and layers. -/

namespace Sys2Proof.Machine

/-! ### FLIP -/

/-- A command that runs is well-formed for its opcode (R70, R86). -/
theorem runs_not_malformed {s : State} {p : OpSpec} {c : Cmd} (h : s.runs p c = true) : p.malformed (consume s c) c = false := by
  simp only [State.runs, Bool.and_eq_true, Bool.not_eq_true'] at h
  obtain ⟨⟨⟨⟨⟨_, hform⟩, _⟩, _⟩, _⟩, _⟩ := h
  simp only [State.malformed, Bool.or_eq_false_iff] at hform
  exact hform.2

theorem launched_head (s : State) (p : OpSpec) (c : Cmd) : (s.launched p c).head = s.head := by
  rw [launched_only]
  rfl

theorem launched_forming (s : State) (p : OpSpec) (c : Cmd) (fn g : Nat) : (s.launched p c).forming fn g = s.forming fn g := by
  unfold State.forming
  rw [launched_head]

theorem launched_flipJoinBad (s : State) (p : OpSpec) (c : Cmd) : flipJoinBad (s.launched p c) c = flipJoinBad s c := by
  unfold flipJoinBad
  rw [launched_head, launched_forming]

/-- A FLIP that runs keeps R198 against the groups in formation, and R188. -/
theorem flip_joins {s : State} {c : Cmd} (h : s.runs specFlip c = true) : flipJoinBad s c = false := by
  have hform : flipMalformed (consume s c) c = false := runs_not_malformed h
  simp only [flipMalformed, Bool.or_eq_false_iff] at hform
  exact hform.2

/-- The group of a FLIP: the one in formation that it meets, or one of its own (R198). -/
def State.joins (s : State) (c : Cmd) (own : Nat) : Nat := (((s.forming c.fn (flGroup c)).head?).map fun e => e.2.gid).getD own

/-- The pending flip that a FLIP makes (Table 04.4). -/
def pendingOf (c : Cmd) (id gid : Nat) (arrive limit : Time) : PFlip where
  flight := id
  fn := c.fn
  arrive := arrive
  limit := limit
  entries := flLayers c
  replace := c.b 10 8
  night := flNight c
  group := flGroup c
  gsize := flGsize c
  gid := gid
  target := c.d 11

theorem pendFlip_pends {s : State} {f : Flight} (hj : flipJoinBad s f.cmd = false) :
    pendFlip s f = s.modHead (flHead f.cmd) fun d => { d with
      pend := d.pend ++ [pendingOf f.cmd f.id (s.joins f.cmd f.id) s.dt (s.dt + flipLimit d)] } := by
  simp only [pendFlip, hj, State.joins]
  cases (s.forming f.cmd.fn (flGroup f.cmd)).head? <;> rfl

theorem flip_runs {s : State} {t : Time} {c : Cmd} (h : (s.at t).runs specFlip c = true) :
    exec (.flip t c) s = .next (((s.at t).launched specFlip c).modHead (flHead c) fun d => { d with
      pend := d.pend ++ [pendingOf c s.nextId (s.joins c s.nextId) (max s.dt t) (max s.dt t + flipLimit (s.head (flHead c)))] }) := by
  have hexec : exec (.flip t c) s = .next (pendFlip ((s.at t).launched specFlip c) (flightOf (s.at t) specFlip c)) :=
    congrArg Host.Outcome.next (startCmd_runs _ _ _ h)
  have hj : flipJoinBad ((s.at t).launched specFlip c) c = false := (launched_flipJoinBad _ _ _).trans (flip_joins h)
  have hgroup : ((s.at t).launched specFlip c).joins c s.nextId = s.joins c s.nextId := by
    unfold State.joins
    rw [launched_forming]
    rfl
  rw [hexec, pendFlip_pends (f := flightOf (s.at t) specFlip c) hj]
  refine congrArg Host.Outcome.next (modHead_congr ?_)
  rw [launched_head, launched_dt, at_dt, ← hgroup]
  rfl

/-! ### FLIP_TIMEOUT -/

theorem foldl_modHead_only (f : Head → Head) (l : List Nat) (s : State) :
    l.foldl (fun s k => s.modHead k f) s = { s with heads := (l.foldl (fun s k => s.modHead k f) s).heads } := by
  induction l generalizing s with
  | nil => rfl
  | cons k r ih => exact ih (s.modHead k f)

/-- Each head of a list is changed once. -/
theorem foldl_modHead_head (f : Head → Head) {l : List Nat} (hl : l.Nodup) (s : State) (k : Nat) :
    (l.foldl (fun s k => s.modHead k f) s).head k = if k ∈ l then f (s.head k) else s.head k := by
  induction l generalizing s with
  | nil => rfl
  | cons x r ih =>
    obtain ⟨hx, hr⟩ := List.nodup_cons.mp hl
    rw [List.foldl_cons, ih hr]
    by_cases hk : k = x
    · subst hk
      simp [hx]
    · simp [hk, modHead_head_ne _ _ _ hk]

/-- A flip goes with those that have expired: it is one of them, or of the group of one (R195, R200). -/
def goesWith (gone : List PFlip) (p : PFlip) : Bool :=
  gone.any fun q => q.flight = p.flight || (q.group ≠ 0 && q.fn = p.fn && q.group = p.group && q.gid = p.gid)

/-- A head with the flips marked that go with those that have expired. -/
def Head.timeOut (d : Head) (gone : List PFlip) : Head :=
  { d with pend := d.pend.map fun p => if goesWith gone p then { p with timedOut := true } else p }

theorem flipTimeout_marks {s : State} (t : Time) {h : Fin 12} (hup : s.up (mantleOf h) = true) :
    exec (.flipTimeout t h) s = .next ((List.range 12).foldl
      (fun a k => a.modHead k fun d => d.timeOut ((s.head h).pend.filter (s.at t).flipExpired)) (s.at t)) := by
  change execFlipTimeout t h s = _
  unfold execFlipTimeout
  rw [if_neg (by simp [hup])]
  rfl

/-- Settles O34: a FLIP that runs is pending at its head; FLIP_TIMEOUT marks the flips that have expired and their groups. -/
theorem flipsPendAndTimeOut : Obligations.FlipsPendAndTimeOut := by
  unfold Obligations.FlipsPendAndTimeOut
  refine ⟨fun s t c h => flip_runs h, fun s t h hup => ⟨_, flipTimeout_marks t hup, foldl_modHead_only _ _ _, fun k hk => ?marked⟩⟩
  case marked =>
    rw [foldl_modHead_head _ List.nodup_range, if_pos (List.mem_range.mpr hk)]
    rfl

/-! ### The judgement of pending flips -/

/-- A flip that stays pending at a latch: one latch more, and LATE from the first latch that it could have met (R191, R196). -/
def PFlip.passedAt (p : PFlip) (dt : Time) : PFlip :=
  { p with passed := p.passed + 1, due := p.due || (decide (p.arrive < dt) && (decide (p.target = 0) || decide (p.target ≤ dt))) }

/-- What a flip that is applied at latch `L` leaves of its head, apart from the slots (R192, R196). -/
def Head.flippedBy (d : Head) (p : PFlip) (L : Time) : Head :=
  { d with
    nApplied := (d.nApplied + 1) % 65536
    night := if p.night = 2 then false else if p.night = 3 then true else d.night
    done := d.done ++ [{ flight := p.flight, status := if p.due then stLate else stOk
                         pay := [(d.frames + 1) % 2 ^ 32, p.passed, lo32 L, hi32 L] }] }

section
variable {h : Nat} {L : Time} {s : State} {p : PFlip} {r : List PFlip} {blocked : List Nat}

/-- A flip that is not ready, or whose function has an earlier one that is not, waits and holds its function back. -/
theorem judge_waits (hw : p.fn ∈ blocked ∨ s.latchReady p = false) :
    judge h L s (p :: r) blocked =
      judge h L (s.modHead h fun d => { d with pend := d.pend ++ [p.passedAt s.dt] }) r (p.fn :: blocked) := by
  have hturn : (blocked.contains p.fn || !s.latchReady p) = true := by simpa using hw
  rw [judge, if_pos hturn]
  rfl

/-- A flip whose turn it is is applied whole if it keeps the limits and its head takes entries; else it completes. -/
theorem judge_turn (hb : p.fn ∉ blocked) (hr : s.latchReady p = true) :
    judge h L s (p :: r) blocked =
      if flipFits s (applyLayers s h p) h p = true ∧ ((s.head h).role ≠ 2 ∨ p.entries = []) then
        judge h L ((applyLayers s h p).modHead h fun d => d.flippedBy p L) r blocked
      else judge h L (complete s p.flight stNoResource [0, p.passed + 1, 0, 0]) r blocked := by
  have hturn : ¬ (blocked.contains p.fn || !s.latchReady p) = true := by simp [hb, hr]
  rw [judge, if_neg hturn]
  simp only [Bool.and_eq_true, Bool.or_eq_true, decide_eq_true_eq]
  rfl

end

/-! ### The entries of a flip -/

/-- An entry that enables its slot binds it to head and function with its settings (R192, R235). -/
theorem applyEntry_enables {e : Layer} (he : e.enable = true) (fn h : Nat) (s : State) :
    applyEntry fn h s e = (holdPerf s (mantleOf h) fn).modSlot e.slot fun x => { x with
      layer := e, head := h, fn := fn, flips := x.flips + 1, bcsErr := 0, ringMiss := 0, dropAt := false } := if_pos he

/-- One that disables it leaves its other settings (R204). -/
theorem applyEntry_disables {e : Layer} (he : e.enable = false) (fn h : Nat) (s : State) :
    applyEntry fn h s e = (disableSlot s e.slot).modSlot e.slot fun x => { x with flips := x.flips + 1 } :=
  if_neg (by simp [he])

theorem applyEntry_enable (fn h : Nat) (s : State) (e : Layer) :
    ((applyEntry fn h s e).slotOf e.slot).layer.enable = e.enable := by
  cases he : e.enable
  · simp [applyEntry_disables he, disableSlot]
  · simp [applyEntry_enables he, he]

theorem applyEntry_binds {e : Layer} (he : e.enable = true) (fn h : Nat) (s : State) :
    ((applyEntry fn h s e).slotOf e.slot).layer = e ∧ ((applyEntry fn h s e).slotOf e.slot).head = h ∧
      ((applyEntry fn h s e).slotOf e.slot).fn = fn := by
  simp [applyEntry_enables he]

theorem applyEntry_slot_ne (fn h : Nat) (s : State) (e : Layer) {n : Nat} (hn : n ≠ e.slot) :
    (applyEntry fn h s e).slotOf n = s.slotOf n := by
  cases he : e.enable
  · rw [applyEntry_disables he, modSlot_slotOf_ne _ _ _ hn, disableSlot, modSlot_slotOf_ne _ _ _ hn]
  · rw [applyEntry_enables he, modSlot_slotOf_ne _ _ _ hn, slotOf_of_scene (holdPerf_scene _ _ _)]

theorem applyEntry_only (fn h : Nat) (s : State) (e : Layer) :
    applyEntry fn h s e = { s with slots := (applyEntry fn h s e).slots, isl := (applyEntry fn h s e).isl } := by
  cases he : e.enable
  · rw [applyEntry_disables he]
    rfl
  · rw [applyEntry_enables he, holdPerf_only]
    rfl

/-- Settles O35: at a latch a ready flip is applied or ends, one that is not ready waits; each entry sets its slot only. -/
theorem flipsApplyInOrderAtTheLatch : Obligations.FlipsApplyInOrderAtTheLatch := by
  unfold Obligations.FlipsApplyInOrderAtTheLatch
  refine ⟨fun h L s p r blocked => ⟨fun hw => judge_waits hw, fun hb hr hfits hrole => ?applied, fun hb hr hbad => ?ends⟩,
    fun fn h s e => ⟨applyEntry_enable fn h s e, fun he => applyEntry_binds he fn h s,
      fun n hn => applyEntry_slot_ne fn h s e hn, applyEntry_only fn h s e⟩⟩
  case applied =>
    rw [judge_turn hb hr, if_pos ⟨hfits, hrole⟩]
    rfl
  case ends =>
    rw [judge_turn hb hr, if_neg]
    rintro ⟨hfits, hrole⟩
    rcases hbad with hover | ⟨hclone, hentries⟩
    · exact absurd hfits (by simp [hover])
    · exact hrole.elim (fun hr => hr hclone) hentries

/-! ### LAYER_FETCH -/

@[simp] theorem at_shownBy (s : State) (t : Time) (n : Nat) : (s.at t).shownBy n = s.shownBy n := rfl
@[simp] theorem at_perfHeld (s : State) (t : Time) (i : Nat) : (s.at t).perfHeld i = s.perfHeld i := rfl

theorem exec_layerFetch (t : Time) (slot : Fin 64) (s : State) : exec (.layerFetch t slot) s = execLayerFetch t slot s := rfl

/-- The fetch of a memory layer counts its lines unless the island's performance counters are held (R165, R171, R178, R538). -/
theorem layerFetch_memory {s : State} (t : Time) {slot : Fin 64} {h : Nat} {p : PicLayer} (hs : s.shownBy slot = some (h, p))
    (hl : p.layer.lineLock = false) :
    let m := modeOf (s.head h).mode
    let held := s.perfHeld (mantleOf h)
    exec (.layerFetch t slot) s = .next ((fetchReads (s.at t) m p).modSlot slot fun x => { x with
      fetched := if held then x.fetched else (fetchLines m p).1 % 65536
      skipped := if held then x.skipped else (fetchLines m p).2 % 65536
      bcsErr := satAdd x.bcsErr (badBlocks (s.at t) m p) 0xFFFF, beyond := x.beyond + beyondReads (s.at t) m p }) := by
  simp only [exec_layerFetch, execLayerFetch, at_shownBy, hs, hl]
  rfl

/-- A line-locked layer counts the line at hand where the ring lacks it (R183, R184). -/
theorem layerFetch_lineLock {s : State} (t : Time) {slot : Fin 64} {h : Nat} {p : PicLayer} (hs : s.shownBy slot = some (h, p))
    (hl : p.layer.lineLock = true) :
    exec (.layerFetch t slot) s = .next (if (s.at t).ringMissed h p ((s.at t).lineNow h)
      then (s.at t).modSlot slot fun x => { x with ringMiss := satInc x.ringMiss 0xFFFF } else s.at t) := by
  rw [apply_ite Host.Outcome.next]
  simp [exec_layerFetch, execLayerFetch, hs, hl]

/-- Settles O36: what LAYER_FETCH counts for a slot that a running frame shows, and that it counts nothing else. -/
theorem layerFetchCountsLines : Obligations.LayerFetchCountsLines := by
  unfold Obligations.LayerFetchCountsLines
  refine fun s t slot => ⟨fun hs => ?unshown, fun h p hs => ⟨fun hl hperf => ?memory, fun hl => layerFetch_lineLock t hs hl⟩⟩
  case unshown => simp [exec_layerFetch, execLayerFetch, hs]
  case memory =>
    rw [layerFetch_memory t hs hl, hperf]
    rfl

end Sys2Proof.Machine
end

section
/-! SUPPORT. The updates of the safety lists (R245-R250): what SAFETY_LIST_UPDATE, an update whose turn has come, the refresh of
a shadow bank and a commit at its latch do, and from it the statement on list updates. -/

namespace Sys2Proof.Machine

/-! ### SAFETY_LIST_UPDATE -/

/-- What the Watch island has read when it judges an update: every list for a write of targets 4 to 8 (R245). -/
def State.lookedThrough (s : State) (c : Cmd) : State :=
  if 4 ≤ slTarget c ∧ slTarget c ≤ 8 ∧ slCount c ≠ 0 then readLists s s.allBases else s

theorem exec_safetyListUpdate (t : Time) (c : Cmd) (s : State) :
    exec (.safetyListUpdate t c) s = .next (runUpdates (startCmd ((s.at t).lookedThrough c) specListUpdate c)) := by
  change execSafetyListUpdate t c s = _
  simp only [execSafetyListUpdate, State.lookedThrough, Bool.and_eq_true, decide_eq_true_eq, and_assoc]

/-- An update that runs joins those that have started (R247). -/
theorem safetyListUpdate_runs {s : State} {t : Time} {c : Cmd}
    (h : ((s.at t).lookedThrough c).runs specListUpdate c = true) :
    let s1 := ((s.at t).lookedThrough c).launched specListUpdate c
    exec (.safetyListUpdate t c) s =
      .next (runUpdates { s1 with store := { s1.store with queue := s1.store.queue ++ [((s.at t).lookedThrough c).nextId] } }) := by
  rw [exec_safetyListUpdate, startCmd_runs _ _ _ h]
  rfl

/-! ### An update whose turn has come -/

/-- The data of an update written to both copies, with the Directory where it wrote a list (R205, R247). -/
def State.updated (s : State) (c : Cmd) : State :=
  let s0 := writeStore s (slBase (slHead c) (1 - (s.safeOf (slHead c)).bankL) (slTarget c) +
    slStart c * (slSize (slTarget c)).2) (slData c)
  if slTarget c ≤ 1 then fileDirectory s0 (slHead c) else s0

/-- The state in which the shadow bank of a commit is validated (R248). -/
def State.toValidate (s : State) (c : Cmd) : State :=
  readLists (s.updated c) ((s.updated c).validateBases (slHead c))

/-- RESTORE of a relocated head is noted (R244). -/
def State.noteRestore (s : State) (c : Cmd) : State :=
  if slRestore c && (s.safeOf (slHead c)).fault then
    s.modSafe (slHead c) fun o => { o with restore := true, goodRun := 0 } else s

section
variable {s : State} {f : Flight}

theorem applyUpdate_uncommitted (hc : slCommit f.cmd = false) :
    applyUpdate s f = complete ((s.updated f.cmd).noteRestore f.cmd) f.id stOk noPay := by
  unfold applyUpdate
  extract_lets c h bank base s0 s1 restore s2
  rw [if_neg (show ¬ slCommit c = true by simp [c, hc])]
  rfl

theorem applyUpdate_invalid {i : Nat} (hc : slCommit f.cmd = true)
    (hv : (s.toValidate f.cmd).validateBank (slHead f.cmd) = some i) :
    applyUpdate s f = complete (s.toValidate f.cmd) f.id stMalformed [0, i, 0, 0] := by
  unfold applyUpdate
  extract_lets c h bank base s0 s1 restore s2
  have hbad : s2.validateBank h = some i := hv
  rw [if_pos hc, hbad]
  rfl

theorem applyUpdate_valid (hc : slCommit f.cmd = true) (hv : (s.toValidate f.cmd).validateBank (slHead f.cmd) = none) :
    applyUpdate s f = ((s.toValidate f.cmd).modSafe (slHead f.cmd) fun o =>
      { o with commit := some (f.id, s.dt) }).noteRestore f.cmd := by
  unfold applyUpdate
  extract_lets c h bank base s0 s1 restore s2
  have hgood : s2.validateBank h = none := hv
  rw [if_pos hc, hgood]
  rfl

end

/-! ### The shadow bank and the commit -/

/-- The shadow bank is written once no frame draws the lists that it held (R192, R207, R250). -/
theorem refreshBank_undrawn {s : State} {h : Nat} (hr : (s.safeOf h).refresh = true)
    (hd : s.bankDrawn h (1 - (s.safeOf h).bankL) = false) :
    let bank := (s.safeOf h).bankL
    let s1 := fixStore s false (s.store.listedIn false (bankRanges h bank))
    let s2 := fixStore s1 true (s1.store.listedIn true (bankRanges h bank))
    refreshBank s h = fileDirectory
      ({ s2 with store := s2.store.refreshShadow h bank }.modSafe h fun o => { o with refresh := false }) h :=
  if_neg (by simp [hr, hd])

theorem withStore_safeOf (s : State) (st : Store) (k : Nat) : ({ s with store := st } : State).safeOf k = s.safeOf k := rfl

@[simp] theorem fileDirectory_safeOf (s : State) (h k : Nat) : (fileDirectory s h).safeOf k = s.safeOf k :=
  withStore_safeOf _ _ _

@[simp] theorem fileDirectory_head (s : State) (h k : Nat) : (fileDirectory s h).head k = s.head k :=
  head_of_scene (fileDirectory_scene _ _) _

/-- A commit validated before the latch is applied there (R250). -/
theorem applyCommit_due {s : State} {h id : Nat} (L : Time) {v : Time} (hs : (s.safeOf h).safety = true)
    (hz : s.wl.frozen = false) (hc : (s.safeOf h).commit = some (id, v)) (hv : v < s.dt) :
    applyCommit s h L = (fileDirectory (s.modSafe h fun o =>
      { o with bankL := 1 - (s.safeOf h).bankL, commit := none, refresh := true }) h).modHead h fun d =>
        { d with done := d.done ++
          [{ flight := id, status := stOk, pay := [(d.frames + 1) % 2 ^ 32, 0, lo32 L, hi32 L] }] } := by
  unfold applyCommit
  simp only [hc]
  exact if_neg (by simp [hs, hz, hv])

/-- Settles O37: updates run in turn; one writes both copies, a commit is validated, applied at the latch and copied later. -/
theorem safetyListUpdatesTakeTurns : Obligations.SafetyListUpdatesTakeTurns := by
  unfold Obligations.SafetyListUpdatesTakeTurns
  refine ⟨fun s t c => safetyListUpdate_runs, fun s f => ⟨applyUpdate_uncommitted, fun i => applyUpdate_invalid, applyUpdate_valid⟩,
    fun s h => refreshBank_undrawn, fun s h id L v hs hz hc hv => ?applied⟩
  case applied =>
    rw [applyCommit_due L hs hz hc hv]
    refine ⟨?bank, ?commit, ?refresh, ?done⟩
    case done => rw [modHead_head]; rfl
    all_goals simp

end Sys2Proof.Machine
end

section
/-! SUPPORT. The renderers of the safety plane (R207, R208, R218-R225): what a rendered line, a rebuild and its end and a scrub of
the store do, and from it the statement on renderers. -/

namespace Sys2Proof.Machine

/-! ### Rules of a pair's update -/

theorem modPair_modPair (s : State) (p : Nat) (f g : Pair → Pair) :
    (s.modPair p f).modPair p g = s.modPair p fun x => g (f x) := by
  simp [State.modPair, State.pair, put_put]

theorem modPair_congr {s : State} {p : Nat} {f g : Pair → Pair} (e : f (s.pair p) = g (s.pair p)) :
    s.modPair p f = s.modPair p g := by
  unfold State.modPair; rw [e]

/-! ### The comparison of a line (R218-R222, R225) -/

/-- The CRC of a pass over a line, as disturbed (R218). -/
def passCrc (line : List Nat) (x : Word) : Nat := crc32c (line.flatMap (leBytes 4)) ^^^ x.toNat

/-- A renderer is self-faulted on a line: its passes differ, or it read an uncorrectable word (R219). -/
def Store.selfFault (st : Store) (b : Bool) (ws line : List Nat) (main check : Word) : Bool :=
  passCrc line main ≠ passCrc line check || st.broken b ws

theorem selfFault_iff {st : Store} {b : Bool} {ws line : List Nat} {main check : Word} :
    st.selfFault b ws line main check = true ↔ passCrc line main ≠ passCrc line check ∨ st.broken b ws = true := by
  simp [Store.selfFault]

/-- A line whose main CRCs differ is counted (R221). -/
def countDiffer (s : State) (p : Nat) (differ : Prop) [Decidable differ] : State :=
  if differ then s.modPair p fun x => { x with misLines := satInc x.misLines 0xFFFF } else s

/-- What the comparison of two renderers does to their pair; `fa` and `fb` say which are self-faulted. -/
def comparePair (s : State) (p : Nat) (differ : Prop) [Decidable differ] (fa fb : Bool) : State :=
  let s3 := countDiffer s p differ
  if fa && !fb then rebuild s3 p false else if fb && !fa then rebuild s3 p true
  else if differ || fa then unresolved s3 p else s3

section
variable {s : State} {p : Nat} {differ : Prop} [Decidable differ] {fa fb : Bool}

theorem comparePair_agrees (hd : ¬differ) (ha : ¬fa = true) (hb : ¬fb = true) : comparePair s p differ fa fb = s := by
  simp [comparePair, countDiffer, hd, ha, hb]

theorem comparePair_masks_a (ha : fa = true) (hb : ¬fb = true) :
    comparePair s p differ fa fb = rebuild (countDiffer s p differ) p false := by
  simp [comparePair, ha, hb]

theorem comparePair_masks_b (ha : ¬fa = true) (hb : fb = true) :
    comparePair s p differ fa fb = rebuild (countDiffer s p differ) p true := by
  simp [comparePair, ha, hb]

theorem comparePair_unresolved (h : (fa = true ∧ fb = true) ∨ (differ ∧ ¬fa = true ∧ ¬fb = true)) :
    comparePair s p differ fa fb = unresolved (countDiffer s p differ) p := by
  rcases h with ⟨ha, hb⟩ | ⟨hd, ha, hb⟩
  · simp [comparePair, ha, hb]
  · simp [comparePair, hd, ha, hb]

end

/-! ### SAFETY_LINE_RENDER -/

/-- The line is held for the tail as the feeding and the checking renderer rendered it (R220, R221). -/
def holdLine (s : State) (h y : Nat) (nxt : Bool) (la lb : List Nat) : State :=
  s.modHead h fun x => { x with rows := x.rows.filter (fun r => r.y ≠ y || r.next ≠ nxt) ++
    [{ y := y, next := nxt, feed := if s.feeding h then lb else la, check := if s.checking h then lb else la }] }

/-- A line with both renderers in service: what they read is corrected, they are compared, and the line is held. -/
theorem renderLine_both {s : State} {h : Nat} (y : Nat) (nxt : Bool) (d : PassFault) (ha : s.takes h false = true)
    (hb : s.takes h true = true) :
    let pic := if nxt then (s.head h).next else (s.head h).pic
    let wa := s.lineWords pic y false
    let wb := s.lineWords pic y true
    let s2 := fixStore (fixStore s false wa) true wb
    let la := s2.planeLine pic (modeOf (s.head h).mode).w y false
    let lb := s2.planeLine pic (modeOf (s.head h).mode).w y true
    renderLine s h y nxt d = holdLine (comparePair s2 (pairOf h) (passCrc la d.mainA ≠ passCrc lb d.mainB)
      (s2.store.selfFault false wa la d.mainA d.checkA) (s2.store.selfFault true wb lb d.mainB d.checkB)) h y nxt la lb := by
  unfold renderLine
  simp only [ha, hb, Bool.and_self, if_true]
  rfl

theorem safetyLineRender_renders {s : State} (t : Time) {h : Fin 12} {y : Nat} (d : PassFault)
    (hs : (s.safeOf h).safety = true) (hup : s.up (mantleOf h) = true) (hrun : (s.head h).running = true)
    (hlive : (s.island 1).live = true) (hy : y < (modeOf (s.head h).mode).h) :
    exec (.safetyLineRender t h y d) s = .next (renderLine (s.at t) h y ((s.at t).rowNext h y) d) :=
  if_neg (by simp [hs, hup, hrun, hlive, hy])

/-! ### The rebuild of a renderer (R222-R224) -/

/-- The rebuilds of renderer A in the last 10 s (R224). -/
def State.recentA (s : State) (p : Nat) : List Time := (s.pair p).timesA.filter fun t => s.dt < t + 10000 * ms

section
variable {s : State} {p : Nat} (ha : (s.pair p).stA = 0) (hb : (s.pair p).stB = 0) (hc : s.flt.coresUp = true)
  (hz : s.wl.frozen = false)
include ha hb hc hz

/-- Renderer B masks a fault of A: it feeds, and A is rebuilt or, at a third rebuild within 10 s, retired (R222-R224). -/
theorem rebuild_a_masked :
    let retire := (s.recentA p).length ≥ 2
    let s1 := s.modPair p fun x => { x with
      feedB := true, rebuilds := if retire then x.rebuilds else satInc x.rebuilds 0xFF, stA := if retire then 2 else 1
      timesA := s.recentA p ++ [s.dt] }
    rebuild s p false = if retire then report s1 1 0x13 false else report s1 1 0x12 := by
  intro retire s1
  have hpair : (outOfService s p false (if retire then 2 else 1)).modPair p (fun x => { x with
      rebuilds := if retire then x.rebuilds else satInc x.rebuilds 0xFF, timesA := s.recentA p ++ [s.dt] }) = s1 := by
    rw [outOfService, modPair_modPair]
    exact modPair_congr (by simp [hb])
  rw [← hpair]
  simp [rebuild, State.recentA, retire, ha, hb, hc, hz]

theorem rebuild_a_counts (hn : (s.recentA p).length < 2) :
    rebuild s p false = report (s.modPair p fun x => { x with
      feedB := true, rebuilds := satInc x.rebuilds 0xFF, stA := 1, timesA := s.recentA p ++ [s.dt] }) 1 0x12 := by
  simp only [rebuild_a_masked ha hb hc hz, if_neg (Nat.not_le.mpr hn)]

theorem rebuild_a_retires (hn : 2 ≤ (s.recentA p).length) :
    rebuild s p false = report (s.modPair p fun x => { x with
      feedB := true, stA := 2, timesA := s.recentA p ++ [s.dt] }) 1 0x13 false := by
  simp only [rebuild_a_masked ha hb hc hz, if_pos hn]

end

/-- A rebuilt renderer takes part again from the next frame starts, with a copy of the good one's words (R222, R223). -/
theorem rendererRebuildDone_returns {s : State} (t : Time) {p : Fin 2} {b : Bool}
    (hst : (if b then (s.pair p).stB else (s.pair p).stA) = 1) (hc : s.flt.coresUp = true) :
    let s1 := fixStore (s.at t) (!b) (s.store.listed (!b))
    exec (.rendererRebuildDone t p b) s = .next ({ s1 with store := s1.store.rebuilt b }.modPair p fun x =>
      if b then { x with stB := 0, backB := s.safeHeads p } else { x with stA := 0, backA := s.safeHeads p }) :=
  if_neg (by simp [hst, hc])

/-! ### STORE_SCRUB -/

/-- Every word of both copies is read and corrected where it can be (R208). -/
def scrubbed (s : State) : State :=
  let s1 := fixStore s false (s.store.listed false)
  fixStore s1 true (s1.store.listed true)

theorem storeScrub_clean {s : State} (t : Time) (hc : s.flt.coresUp = true) (hz : s.wl.frozen = false)
    (ha : (scrubbed (s.at t)).store.broken false ((scrubbed (s.at t)).store.listed false) = false)
    (hb : (scrubbed (s.at t)).store.broken true ((scrubbed (s.at t)).store.listed true) = false) :
    exec (.storeScrub t) s = .next (scrubbed (s.at t)) := by
  change execStoreScrub t s = _
  unfold execStoreScrub
  rw [if_neg (by simp [hc, hz])]
  extract_lets scrub s1 bad
  have hbad : ∀ b, bad b = false := fun b => by
    cases b
    · exact ha
    · exact hb
  have hs1 : s1 = scrubbed (s.at t) := rfl
  simp [hbad, hs1]

/-- Settles O38: the outcomes of a rendered line, the rebuild or retirement of a renderer, its return, and a scrub that only
corrects. -/
theorem renderersMaskRebuildAndRetire : Obligations.RenderersMaskRebuildAndRetire := by
  unfold Obligations.RenderersMaskRebuildAndRetire
  refine ⟨fun s t h y d hs hup hrun hlive hy hta htb => ?line, fun s p ha hb hc hz =>
      ⟨rebuild_a_counts ha hb hc hz, rebuild_a_retires ha hb hc hz⟩,
    fun s t p hc => ⟨fun hst => rendererRebuildDone_returns t (b := false) hst hc,
      fun hst => rendererRebuildDone_returns t (b := true) hst hc⟩,
    fun s t hc hz => storeScrub_clean t hc hz⟩
  case line =>
    intro u nxt pic wa wb s2 la lb crc fa fb shown differ s3
    have hexec : exec (.safetyLineRender t h y d) s = .next (holdLine (comparePair s2 (pairOf h) differ
        (s2.store.selfFault false wa la d.mainA d.checkA) (s2.store.selfFault true wb lb d.mainB d.checkB)) h y nxt la lb) :=
      (safetyLineRender_renders t d hs hup hrun hlive hy).trans (congrArg _ (renderLine_both y nxt d hta htb))
    have hfa : s2.store.selfFault false wa la d.mainA d.checkA = true ↔ fa := selfFault_iff
    have hfb : s2.store.selfFault true wb lb d.mainB d.checkB = true ↔ fb := selfFault_iff
    rw [hexec]
    refine ⟨fun hd ha hb => ?_, fun ha hb => ?_, fun ha hb => ?_, fun hpair => ?_⟩
    · rw [comparePair_agrees hd (mt hfa.mp ha) (mt hfb.mp hb)]
      rfl
    · rw [comparePair_masks_a (hfa.mpr ha) (mt hfb.mp hb)]
      rfl
    · rw [comparePair_masks_b (mt hfa.mp ha) (hfb.mpr hb)]
      rfl
    · rw [comparePair_unresolved (by rwa [hfa, hfb])]
      rfl

end Sys2Proof.Machine
end

section
/-! SUPPORT. The ring commands of Chandelier (R299, R304, R313-R319): what a command that reads and writes its issuer's memory
does, case by case, and from it the statement on COPY, SPARSE_BIND, PIPELINE and submissions. -/

namespace Sys2Proof.Machine

/-! ### A command that reads and writes memory (R350, R361, R366) -/

/-- One of the ranges of an issuer's memory touches a lost partition. -/
def State.lostUnder (s : State) (fn : Nat) (ranges : List (Nat × Nat)) : Bool := ranges.any fun r => s.touchesLost fn r.1 r.2

/-- The first channel that does not answer under ranges of an issuer's memory. -/
def State.stallUnder (s : State) (fn : Nat) (ranges : List (Nat × Nat)) : Option Nat :=
  (ranges.filterMap fun r => s.stallAt fn r.1 r.2).head?

section
variable {s : State} {f : Flight} {reads writes : List (Nat × Nat)} {k : State → State}

theorem withMem_lost (hl : s.lostUnder f.cmd.fn (reads ++ writes) = true) :
    withMem s f reads writes k = complete s f.id stPartLost noPay := if_pos hl

theorem withMem_waits {ch : Nat} (hl : s.lostUnder f.cmd.fn (reads ++ writes) = false)
    (hs : s.stallUnder f.cmd.fn (reads ++ writes) = some ch) : withMem s f reads writes k = waitChan s f.id ch := by
  simp only [State.lostUnder, State.stallUnder] at hl hs
  simp only [withMem, hl, hs]
  rfl

theorem withMem_freezes {ch : Nat} (hl : s.lostUnder f.cmd.fn (reads ++ writes) = false)
    (hs : s.stallUnder f.cmd.fn (reads ++ writes) = none)
    (hr : (afterReads s f.cmd.fn reads).stallUnder f.cmd.fn (reads ++ writes) = some ch) :
    withMem s f reads writes k = waitChan (afterReads s f.cmd.fn reads) f.id ch := by
  simp only [State.lostUnder, State.stallUnder, afterReads] at hl hs hr
  simp only [withMem, hl, hs, hr]
  rfl

theorem withMem_goes (hl : s.lostUnder f.cmd.fn (reads ++ writes) = false)
    (hs : s.stallUnder f.cmd.fn (reads ++ writes) = none)
    (hr : (afterReads s f.cmd.fn reads).stallUnder f.cmd.fn (reads ++ writes) = none) :
    withMem s f reads writes k = k (afterReads s f.cmd.fn reads) := by
  simp only [State.lostUnder, State.stallUnder, afterReads] at hl hs hr
  simp only [withMem, hl, hs, hr]
  rfl

theorem stallUnder_eq_none {fn : Nat} {ranges : List (Nat × Nat)} (h : ∀ r ∈ ranges, s.stallAt fn r.1 r.2 = none) :
    s.stallUnder fn ranges = none := by
  simp [State.stallUnder, List.filterMap_eq_nil_iff.mpr h]

/-- Where the memory of a command answers, the command goes on after its reads. -/
theorem withMem_served (h : served s f.cmd.fn reads writes) :
    withMem s f reads writes k = k (afterReads s f.cmd.fn reads) :=
  withMem_goes (List.any_eq_false.mpr fun r hr => by simp [(h r hr).1])
    (stallUnder_eq_none fun r hr => (h r hr).2.1) (stallUnder_eq_none fun r hr => (h r hr).2.2)

end

/-! ### COPY (R304) -/

def copyReads (c : Cmd) : List (Nat × Nat) := if c.b 15 0 then [] else [(c.d 10, c.w 14)]
def copyWrites (c : Cmd) : List (Nat × Nat) := [(c.d 12, c.w 14)]

/-- The bytes of a COPY follow the writes of the tapers, and it completes. -/
def copied (f : Flight) (s : State) : State :=
  complete (memWrite (writeBack s) f.cmd.fn (f.cmd.d 12) (copyBytes s f.cmd)) f.id stOk noPay

theorem runCopy_eq (s : State) (f : Flight) : runCopy s f = withMem s f (copyReads f.cmd) (copyWrites f.cmd) (copied f) := rfl

/-! ### SPARSE_BIND (R315, R316) -/

/-- The entries of the bind list of a command, and one that would bind a page at a wrong place (R316). -/
def bindList (s : State) (c : Cmd) : List (Nat × Bool × Nat) := (List.range (c.w 18)).map (bindEntry s c.fn (c.d 16))
def badBind (s : State) (c : Cmd) : Bool :=
  (bindList s c).any fun (e : Nat × Bool × Nat) => e.2.1 && (e.2.2 % 65536 ≠ 0 || !s.inMem c.fn e.2.2 65536)

/-- The bind list of a command as a range of memory; its residency bits, and its page-table entries, as ranges. -/
def bindRead (c : Cmd) : List (Nat × Nat) := [(c.d 16, 16 * c.w 18)]
def bindMaps (s : State) (c : Cmd) : List (Nat × Nat) := (bindList s c).map fun e => (c.d 12 + e.1 / 8, 1)
def bindPages (s : State) (c : Cmd) : List (Nat × Nat) := (bindList s c).map fun e => (c.d 10 + 8 * e.1, 8)

section
variable {s s2 : State} {f : Flight} (hl : served s f.cmd.fn (bindRead f.cmd) [])
  (h2 : afterReads s f.cmd.fn (bindRead f.cmd) = s2)
include hl h2

theorem runSparse_malformed (hb : badBind s2 f.cmd = true) : runSparse s f = complete s2 f.id stMalformed noPay := by
  subst h2
  unfold runSparse
  refine (withMem_served hl).trans ?_
  exact if_pos hb

theorem runSparse_binds (hb : badBind s2 f.cmd = false) (hs : served s2 f.cmd.fn (bindMaps s2 f.cmd) (bindPages s2 f.cmd)) :
    runSparse s f = complete ((bindList s2 f.cmd).foldl (bindPage f.cmd.fn (f.cmd.d 10) (f.cmd.d 12))
      (writeBack (afterReads s2 f.cmd.fn (bindMaps s2 f.cmd)))) f.id stOk noPay := by
  subst h2
  unfold runSparse
  refine (withMem_served hl).trans ((if_neg (Bool.eq_false_iff.mp hb)).trans ?_)
  exact withMem_served hs

end

/-! ### PIPELINE_COMPILE and DESTROY (R317-R319) -/

/-- The submissions under way of a function that bind a pipeline (R319). -/
def State.pipeUsers (s : State) (fn h : Nat) : List Nat :=
  (s.ctxsOf fn).filterMap fun k => if ((s.ctx k).state = 3 ∨ (s.ctx k).state = 4) ∧ (s.ctx k).bound.contains h = true
    then (s.ctx k).queue.head? else none

/-- The code store once a pipeline is destroyed: it is gone, or waits for the submissions that bind it (R319). -/
def State.destroyed (s : State) (fn h : Nat) : List Pipeline :=
  if s.pipeUsers fn h = [] then s.chand.pipes.filter fun p => p.handle ≠ h
  else s.chand.pipes.map fun p => if p.handle = h then { p with dying := s.pipeUsers fn h } else p

/-- A pipeline that a function may share: of an equal record, and not being destroyed (R317). -/
def samePipe (fn digest : Nat) (p : Pipeline) : Bool := p.fn = fn && p.digest = digest && p.dying = []

section
variable {s : State} {f : Flight}

theorem runPipeline_destroys (hd : f.cmd.b 10 0 = true) (ho : s.ownsPipe f.cmd.fn (f.cmd.d 11) = true) :
    runPipeline s f = complete (s.modChand fun d => { d with pipes := s.destroyed f.cmd.fn (f.cmd.d 11) }) f.id stOk noPay := by
  simp [runPipeline, hd, ho, State.destroyed, State.pipeUsers]

theorem runPipeline_notOwned (hd : f.cmd.b 10 0 = true) (ho : s.ownsPipe f.cmd.fn (f.cmd.d 11) = false) :
    runPipeline s f = complete s f.id stMalformed noPay := by
  simp [runPipeline, hd, ho]

end

/-- The state in which a pipeline's record has been read. -/
def recordRead (s : State) (c : Cmd) : State := afterReads s c.fn [(c.d 11, c.w 13)]

/-- The record of a pipeline. -/
def pipeRecord (s : State) (c : Cmd) : List Byte := memRead s c.fn (c.d 11) (c.w 13)

section
variable {s s2 : State} {f : Flight} (hc : f.cmd.b 10 0 = false) (hl : served s f.cmd.fn [(f.cmd.d 11, f.cmd.w 13)] [])
  (h2 : recordRead s f.cmd = s2)
include hc hl h2

theorem runPipeline_shares {p : Pipeline}
    (hp : s2.chand.pipes.find? (samePipe f.cmd.fn (Config.sha384 (pipeRecord s2 f.cmd))) = some p) :
    runPipeline s f = complete s2.drawn f.id stOk [lo32 p.handle, hi32 p.handle, 1, s2.free % 2 ^ 32] := by
  subst h2
  unfold samePipe recordRead pipeRecord at hp
  simp [runPipeline, hc, withMem_served hl, recordRead, hp]

variable (hp : s2.chand.pipes.find? (samePipe f.cmd.fn (Config.sha384 (pipeRecord s2 f.cmd))) = none)
include hp

theorem runPipeline_fails {k : Nat} (hk : failingStage (pipeRecord s2 f.cmd) = some k) :
    runPipeline s f = complete s2 f.id stMalformed [0, 0, k % 256 * 256, 0] := by
  subst h2
  unfold samePipe recordRead pipeRecord at hp
  unfold recordRead pipeRecord at hk
  simp [runPipeline, hc, withMem_served hl, recordRead, hp, hk]

/-- A record without a fault becomes a pipeline while the code store has room. -/
theorem runPipeline_stores (hk : failingStage (pipeRecord s2 f.cmd) = none) :
    runPipeline s f =
      if Config.codeSize (pipeRecord s2 f.cmd) + s2.chand.pipes.foldl (fun m p => m + p.size) 0 ≤ codeStore then
        complete (s2.modChand fun d => { d with nextH := d.nextH + 1, pipes := d.pipes ++
            [{ handle := s2.chand.nextH, fn := f.cmd.fn, digest := Config.sha384 (pipeRecord s2 f.cmd),
               size := Config.codeSize (pipeRecord s2 f.cmd) }] }).drawn
          f.id stOk [lo32 s2.chand.nextH, hi32 s2.chand.nextH, 0, s2.free % 2 ^ 32]
      else complete s2 f.id stNoResource noPay := by
  subst h2
  unfold samePipe recordRead pipeRecord at hp
  unfold recordRead pipeRecord at hk
  simp only [runPipeline, hc, withMem_served hl, recordRead, pipeRecord, hp, hk, gt_iff_lt, ← Nat.not_le, ite_not]
  rfl

end

/-! ### Submissions (R299) -/

theorem launched_chand (s : State) (p : OpSpec) (c : Cmd) : (s.launched p c).chand = s.chand := by
  rw [launched_only]

theorem launched_hwCtx (s : State) (p : OpSpec) (c : Cmd) (fn l : Nat) : (s.launched p c).hwCtx fn l = s.hwCtx fn l := by
  have hctx : (s.launched p c).ctx = s.ctx := by
    unfold State.ctx
    rw [launched_chand]
  unfold State.hwCtx
  rw [hctx]

/-- A submission joins the queue of its context with its deadline, and Chandelier goes on. -/
theorem runSubmit_joins {s : State} {f : Flight} {k : Nat} (hk : s.hwCtx f.cmd.fn (subCtx f.cmd) = some k) :
    runSubmit s f = kickChandelier (s.modCtx k fun x => { x with
      queue := x.queue ++ [f.id], dls := x.dls ++ ((s.deadline f.cmd f.start).map fun d => (f.id, d)).toList }) := by
  unfold runSubmit
  rw [hk]
  cases s.deadline f.cmd f.start <;> rfl

/-- Of a context that runs a submission nothing begins (R299). -/
theorem beginCtx_running {s : State} {k : Nat} (n : Nat) (h : (s.ctx k).state = 3 ∨ (s.ctx k).state = 4) :
    beginCtx n s k = s := by
  cases n with
  | zero => rfl
  | succ n =>
    unfold beginCtx
    exact if_pos (by rcases h with h | h <;> simp [h])

/-- Settles O45: each command that runs is its opcode's work on the state in which it is launched, and that work follows the
state of its memory, its bind list, the code store or its context. -/
theorem chandelierCommandsRun : Obligations.ChandelierCommandsRun := by
  unfold Obligations.ChandelierCommandsRun
  refine ⟨fun s t c h => ?copy, fun s t c h => ?sparse, fun s t c h => ?pipeline,
    fun s t c k => ⟨fun h hk => ?gfx, fun h hk => ?compute, fun n => beginCtx_running n⟩⟩
  case copy =>
    intro s1 fill rs ws s2 data lost stall
    let flight := flightOf (s.at t) specCopy c
    have hexec : exec (.copy t c) s = .next (withMem s1 flight (copyReads c) (copyWrites c) (copied flight)) :=
      congrArg Host.Outcome.next ((startCmd_runs _ _ _ h).trans (runCopy_eq _ _))
    exact ⟨fun hl h1 h2 => hexec.trans (congrArg _ (withMem_goes hl h1 h2)),
      fun hl => hexec.trans (congrArg _ (withMem_lost hl)),
      fun ch hl h1 => hexec.trans (congrArg _ (withMem_waits hl h1)),
      fun ch hl h1 h2 => hexec.trans (congrArg _ (withMem_freezes hl h1 h2))⟩
  case sparse =>
    intro s1 list s2 es bad maps s3 hl
    have hexec : exec (.sparseBind t c) s = .next (runSparse s1 (flightOf (s.at t) specSparse c)) :=
      congrArg Host.Outcome.next (startCmd_runs _ _ _ h)
    exact ⟨fun hb => hexec.trans (congrArg _ (runSparse_malformed hl rfl hb)),
      fun hb hs => hexec.trans (congrArg _ (runSparse_binds hl rfl hb hs))⟩
  case pipeline =>
    intro s1 s2 bytes same live users doomed
    let flight := flightOf (s.at t) specPipeline c
    have hexec : exec (.pipelineCompile t c) s = .next (runPipeline s1 flight) :=
      congrArg Host.Outcome.next (startCmd_runs _ _ _ h)
    refine ⟨fun hd ho => hexec.trans (congrArg _ (runPipeline_notOwned hd ho)),
      fun hd ho => hexec.trans (congrArg _ (runPipeline_destroys hd ho)),
      fun p hc hl hp => ⟨s2.drawn, _, hexec.trans (congrArg _ (runPipeline_shares hc hl rfl hp)), rfl⟩,
      fun hc hl hp => hexec.trans (congrArg _ ?_)⟩
    cases hk : failingStage bytes with
    | some k => exact runPipeline_fails (f := flight) hc hl rfl hp hk
    | none => exact runPipeline_stores (f := flight) hc hl rfl hp hk
  case gfx =>
    have hctx : ((s.at t).launched specGfxSubmit c).hwCtx c.fn (subCtx c) = some k := (launched_hwCtx _ _ _ _ _).trans hk
    exact congrArg Host.Outcome.next
      ((startCmd_runs _ _ _ h).trans (runSubmit_joins (f := flightOf (s.at t) specGfxSubmit c) hctx))
  case compute =>
    have hctx : ((s.at t).launched specComputeSubmit c).hwCtx c.fn (subCtx c) = some k := (launched_hwCtx _ _ _ _ _).trans hk
    exact congrArg Host.Outcome.next
      ((startCmd_runs _ _ _ h).trans (runSubmit_joins (f := flightOf (s.at t) specComputeSubmit c) hctx))

end Sys2Proof.Machine
end

section
/-! SUPPORT. What Chandelier leaves alone while it goes on: the commands in flight but for those it completes, and the accounting
window with its budgets (R322). One lemma for each operation. -/

namespace Sys2Proof.Machine

/-- The commands in flight, and the accounting window with its budgets. -/
structure Desk where
  flights : List Flight
  window  : Time
  budget  : Tbl Nat

/-- The desk of a state. -/
def deskOf (s : State) : Desk := ⟨s.flights, s.chand.window, s.chand.budget⟩

theorem flights_of_desk {a b : State} (h : deskOf a = deskOf b) : a.flights = b.flights := congrArg Desk.flights h

theorem flight?_of_desk {a b : State} (h : deskOf a = deskOf b) (id : Nat) : a.flight? id = b.flight? id := by
  unfold State.flight?
  rw [flights_of_desk h]

/-! ### Updates and folds -/

@[simp] theorem ite_desk (p : Prop) [Decidable p] (a b : State) :
    deskOf (if p then a else b) = if p then deskOf a else deskOf b := apply_ite deskOf p a b

/-- What every step of a fold keeps, the fold keeps. -/
theorem foldl_keeps {α β : Type} (v : State → β) (g : State → α → State) (h : ∀ s x, v (g s x) = v s) :
    ∀ (l : List α) (s : State), v (l.foldl g s) = v s
  | [], _ => rfl
  | x :: l, s => (foldl_keeps v g h l (g s x)).trans (h s x)

theorem foldl_desk {α : Type} (g : State → α → State) (h : ∀ s x, deskOf (g s x) = deskOf s) (l : List α) (s : State) :
    deskOf (l.foldl g s) = deskOf s := foldl_keeps deskOf g h l s

theorem foldl_fst_desk {α β : Type} (g : State × β → α → State × β) (h : ∀ a x, deskOf (g a x).1 = deskOf a.1) :
    ∀ (l : List α) (a : State × β), deskOf (l.foldl g a).1 = deskOf a.1
  | [], _ => rfl
  | x :: l, a => (foldl_fst_desk g h l (g a x)).trans (h a x)

@[simp] theorem modFn_desk (s : State) (i : Nat) (f : Func → Func) : deskOf (s.modFn i f) = deskOf s := rfl
@[simp] theorem modWl_desk (s : State) (f : Watchlamp → Watchlamp) : deskOf (s.modWl f) = deskOf s := rfl
@[simp] theorem modFlt_desk (s : State) (f : Faults → Faults) : deskOf (s.modFlt f) = deskOf s := rfl
@[simp] theorem modCtx_desk (s : State) (c : Nat) (f : Ctx → Ctx) : deskOf (s.modCtx c f) = deskOf s := rfl
@[simp] theorem modTaper_desk (s : State) (t : Nat) (f : Taper → Taper) : deskOf (s.modTaper t f) = deskOf s := rfl
@[simp] theorem modChan_desk (s : State) (c : Nat) (f : Chan → Chan) : deskOf (s.modChan c f) = deskOf s := rfl
@[simp] theorem modMem_desk (s : State) (f : Mem → Mem) : deskOf (s.modMem f) = deskOf s := rfl
@[simp] theorem drawn_desk (s : State) : deskOf s.drawn = deskOf s := rfl
@[simp] theorem setFence_desk (s : State) (fn n v : Nat) : deskOf (s.setFence fn n v) = deskOf s := rfl
@[simp] theorem modChand_desk (s : State) (f : Chand → Chand) (hw : (f s.chand).window = s.chand.window)
    (hb : (f s.chand).budget = s.chand.budget) : deskOf (s.modChand f) = deskOf s := by
  simp [deskOf, State.modChand, hw, hb]

/-! ### Messages, faults, completions -/

theorem onlyMessages_desk {a b : State} (h : onlyMessages a b) : deskOf b = deskOf a := by
  rw [h.1]; rfl

@[simp] theorem postEntry_desk (s : State) (fn q : Nat) (h : Held) : deskOf (postEntry s fn q h) = deskOf s :=
  onlyMessages_desk (postEntry_onlyMessages s fn q h)

@[simp] theorem sendEvent_desk (s : State) (isl fn ev a b c : Nat) : deskOf (sendEvent s isl fn ev a b c) = deskOf s :=
  onlyMessages_desk (sendEvent_onlyMessages s isl fn ev a b c)

@[simp] theorem sendManagers_desk (s : State) (isl ev a b c : Nat) : deskOf (sendManagers s isl ev a b c) = deskOf s :=
  onlyMessages_desk (sendManagers_onlyMessages s isl ev a b c)

@[simp] theorem faultEvents_desk (s : State) (fc cls opn : Nat) (stamp : Time) :
    deskOf (faultEvents s fc cls opn stamp) = deskOf s := onlyMessages_desk (faultEvents_onlyMessages s fc cls opn stamp)

@[simp] theorem raiseSysAlarm_desk (s : State) : deskOf (raiseSysAlarm s) = deskOf s := by
  simp [raiseSysAlarm, updAlmout, bumpGen, noteSys]

@[simp] theorem report_desk (s : State) (isl src : Nat) (loss : Bool) : deskOf (report s isl src loss) = deskOf s := by
  simp [report, reportAt, countCorrected, fatalResponse, setTone]

@[simp] theorem finishCmd_desk (s : State) (c : Cmd) (st : Nat) (pay : List Nat) (stamp : Time) :
    deskOf (finishCmd s c st pay stamp) = deskOf s := by
  simp [finishCmd, signalFence]

/-- A command that completes is no longer in flight. -/
@[simp] theorem complete_desk (s : State) (id st : Nat) (pay : List Nat) :
    deskOf (complete s id st pay) = { deskOf s with flights := s.flights.filter (·.id ≠ id) } := by
  cases h : s.flight? id with
  | none =>
    have hall : ∀ f ∈ s.flights, f.id ≠ id := by simpa [State.flight?] using h
    have hkeep : s.flights.filter (·.id ≠ id) = s.flights := List.filter_eq_self.mpr fun f hf => by simpa using hall f hf
    simp only [complete, h, hkeep]
    rfl
  | some f =>
    simp only [complete, completeAt, h, finishCmd_desk]
    rfl

/-! ### Device memory -/

@[simp] theorem takeLine_desk (s : State) (line : Nat) (dirty : Bool) : deskOf (takeLine s line dirty) = deskOf s := by
  simp [takeLine]

@[simp] theorem waitChan_desk (s : State) (id c : Nat) (put : Option (Nat × List Byte × List Nat)) :
    deskOf (waitChan s id c put) = deskOf s := rfl

@[simp] theorem freezeChan_desk (s : State) (c : Nat) (r : MemReq) (syn : Nat) : deskOf (freezeChan s c r syn) = deskOf s := by
  simp [freezeChan]

@[simp] theorem readWord_desk (s : State) (fn a : Nat) (merge : Bool) : deskOf (readWord s fn a merge) = deskOf s := by
  unfold readWord
  dsimp only
  (repeat' split) <;> simp

@[simp] theorem readLine_desk (s : State) (fn a : Nat) : deskOf (readLine s fn a) = deskOf s := by
  unfold readLine
  split <;> simp

@[simp] theorem readRange_desk (s : State) (fn a n : Nat) : deskOf (readRange s fn a n) = deskOf s := by
  simp [readRange, foldl_desk]

@[simp] theorem memPut_desk (s : State) (fn a : Nat) (v : Byte) : deskOf (memPut s fn a v) = deskOf s := by
  unfold memPut
  split <;> simp

@[simp] theorem memPuts_desk (s : State) (fn a : Nat) (l : List Byte) : deskOf (memPuts s fn a l) = deskOf s := by
  induction l generalizing s a with
  | nil => rfl
  | cons v r ih => simp [memPuts, ih]

@[simp] theorem memWrite_desk (s : State) (fn a : Nat) (l : List Byte) : deskOf (memWrite s fn a l) = deskOf s := by
  simp [memWrite]

@[simp] theorem touch_desk (s : State) (c a n : Nat) : deskOf (touch s c a n) = deskOf s := by
  unfold touch
  dsimp only
  (repeat' split) <;> simp

@[simp] theorem chdRead_desk (s : State) (c a n : Nat) : deskOf (chdRead s c a n) = deskOf s := by
  simp [chdRead]

@[simp] theorem chdWrite_desk (s : State) (c a : Nat) (l : List Byte) : deskOf (chdWrite s c a l) = deskOf s := by
  simp [chdWrite]

@[simp] theorem writeBack_desk (s : State) : deskOf (writeBack s) = deskOf s := by
  simp [writeBack, foldl_desk]

/-! ### Passes and shaders -/

@[simp] theorem partialRender_desk (s : State) (c : Nat) (p : Pass) : deskOf (partialRender s c p).1 = deskOf s := by
  simp [partialRender, spillTile, foldl_desk]

@[simp] theorem binInto_desk (attrs : Nat) (q : BinPrim) (c : Nat) (a : State × Pass) (tiles : List Nat) :
    deskOf (binInto attrs q c a tiles).1 = deskOf a.1 := by
  unfold binInto
  dsimp only
  split <;> simp

@[simp] theorem binPrim_desk (attrs c : Nat) (a : State × Pass) (q : BinPrim) : deskOf (binPrim attrs c a q).1 = deskOf a.1 := by
  unfold binPrim
  dsimp only
  split
  · simp
  · refine foldl_fst_desk _ (fun b k => ?_) _ _
    split <;> simp

@[simp] theorem binDraw_desk (s : State) (c : Nat) (args : List Nat) : deskOf (binDraw s c args) = deskOf s := by
  unfold binDraw
  split
  · rfl
  · simp [foldl_fst_desk]

@[simp] theorem finishTile_desk (c : Nat) (p : Pass) (s : State) (tile : Nat) : deskOf (finishTile c p s tile) = deskOf s := by
  simp [finishTile, storePlane, putBlock, putElement, foldl_desk]

@[simp] theorem endPass_desk (s : State) (c : Nat) : deskOf (endPass s c) = deskOf s := by
  unfold endPass
  split
  · rfl
  · simp [foldl_desk]

@[simp] theorem shaderAccess_desk (s : State) (c : Nat) (q : TaperAccess) : deskOf (shaderAccess s c q).1 = deskOf s := by
  cases q with
  | load base size a n => simp [shaderAccess, robust, apply_ite Prod.fst]
  | store base size a v => simp [shaderAccess, robust, apply_ite Prod.fst]
  | sample g ts => simp [shaderAccess, sampleSparse, foldl_desk]

@[simp] theorem runShaders_desk (s : State) (c : Nat) (args : List Nat) : deskOf (runShaders s c args) = deskOf s := by
  simp [runShaders, foldl_fst_desk]

@[simp] theorem fillTapers_desk (s : State) (c : Nat) : deskOf (fillTapers s c) = deskOf s := by
  unfold fillTapers
  rw [foldl_desk, drawn_desk]
  exact fun _ _ => rfl

@[simp] theorem indirectArgs_desk (s : State) (c a n : Nat) : deskOf (indirectArgs s c a n).1 = deskOf s := by
  simp [indirectArgs, robust]

@[simp] theorem clampCount_desk (s : State) (n : Nat) : deskOf (clampCount s n).1 = deskOf s := by
  unfold clampCount
  split <;> simp [robust]

@[simp] theorem runDraw_desk (s : State) (c : Nat) (p : Packet) : deskOf (runDraw s c p) = deskOf s := by
  simp [runDraw, drawOne, foldl_desk]

@[simp] theorem runDispatch_desk (s : State) (c : Nat) (p : Packet) : deskOf (runDispatch s c p) = deskOf s := by
  unfold runDispatch
  dsimp only
  split
  · simp
  · rw [runShaders_desk, foldl_fst_desk, indirectArgs_desk]
    exact fun _ _ => clampCount_desk _ _

/-! ### Packets and tapers -/

@[simp] theorem runPacket_desk (s : State) (c : Nat) (p : Packet) : deskOf (runPacket s c p) = deskOf s := by
  unfold runPacket
  dsimp only
  (repeat' split) <;> simp

@[simp] theorem releaseTapers_desk (s : State) (c : Nat) : deskOf (releaseTapers s c) = deskOf s := by
  refine foldl_desk _ (fun _ _ => ?_) _ _
  rfl

@[simp] theorem runPackets_desk (s : State) (c : Nat) (l : List Packet) : deskOf (runPackets s c l) = deskOf s := by
  induction l generalizing s with
  | nil => simp [runPackets]
  | cons p r ih =>
    unfold runPackets
    dsimp only
    (repeat' split) <;> simp [ih]

@[simp] theorem book_desk (s : State) : deskOf (book s) = deskOf s := by
  simp [book, foldl_desk]

@[simp] theorem stopTapers_desk (s : State) (c : Nat) (ts : List Nat) : deskOf (stopTapers s c ts) = deskOf s := by
  unfold stopTapers
  split
  · rfl
  · rw [modCtx_desk, foldl_desk]
    exact fun _ _ => modTaper_desk _ _ _

@[simp] theorem preempt_desk (s : State) (c : Nat) (ts : List Nat) : deskOf (preempt s c ts) = deskOf s := by
  simp [preempt]

@[simp] theorem giveTaper_desk (s : State) (t c : Nat) : deskOf (giveTaper s t c) = deskOf s := by
  unfold giveTaper
  extract_lets x s0 work s1
  have h1 : deskOf s1 = deskOf s := by
    simp only [s1, s0, modCtx_desk, modTaper_desk]
    split <;> simp
  clear_value s1
  simp [foldl_desk, h1]

@[simp] theorem assignTapers_desk (s : State) : deskOf (assignTapers s) = deskOf s := by
  refine foldl_desk _ (fun s t => ?_) _ _
  split
  · rfl
  · split <;> simp

@[simp] theorem displace_desk (s : State) : deskOf (displace s) = deskOf s := by
  simp [displace, foldl_desk]

@[simp] theorem rebalance_desk (s : State) : deskOf (rebalance s) = deskOf s := by
  refine foldl_desk _ (fun s e => ?_) _ _
  split
  · simp
  · rfl

@[simp] theorem undoPreempt_desk (s : State) (c : Nat) : deskOf (undoPreempt s c) = deskOf s := by
  simp [undoPreempt]

/-! ### Submissions that begin and end -/

@[simp] theorem leaveCtx_desk (s : State) (c : Nat) : deskOf (leaveCtx s c) = deskOf s := by
  simp [leaveCtx]

@[simp] theorem reapPipelines_desk (s : State) : deskOf (reapPipelines s) = deskOf s := by
  simp [reapPipelines]

theorem finishSub_idle_desk {s : State} {c : Nat} (st : Nat) (h : (s.ctx c).queue.head?.bind s.flight? = none) :
    deskOf (finishSub s c st) = deskOf s := by
  simp [finishSub, h]

/-- The command of the submission that ends is no longer in flight. -/
theorem finishSub_desk {s : State} {c : Nat} {f : Flight} (st : Nat) (h : (s.ctx c).queue.head?.bind s.flight? = some f) :
    deskOf (finishSub s c st) = { deskOf s with flights := s.flights.filter (·.id ≠ f.id) } := by
  unfold finishSub
  extract_lets x
  split
  · next h' => exact absurd (h'.symm.trans h) (by simp)
  next g h' =>
  obtain rfl : f = g := Option.some.inj (h.symm.trans h')
  extract_lets d late s1 pay s2 s3
  have h1 : deskOf (leaveCtx s1 c) = deskOf s := by simp [s1]
  have h2 : deskOf s2 = { deskOf s with flights := s.flights.filter (·.id ≠ f.id) } := by
    simp only [s2, complete_desk, h1, flights_of_desk h1]
  have h3 : deskOf s3 = deskOf s2 := by
    cases hd : d with
    | none => simp only [s3, hd]
    | some e => simp only [s3, hd, ite_desk, sendEvent_desk, ite_self]
  rw [reapPipelines_desk, h3, h2]

/-- From `a` to `b` commands in flight may have completed and none has started; the accounting window stands. -/
def completesOnly (a b : State) : Prop :=
  (∀ f ∈ b.flights, f ∈ a.flights) ∧ b.chand.window = a.chand.window ∧ b.chand.budget = a.chand.budget

theorem completesOnly_of_desk {a b : State} (h : deskOf b = deskOf a) : completesOnly a b :=
  ⟨fun f hf => by rwa [← flights_of_desk h], congrArg Desk.window h, congrArg Desk.budget h⟩

theorem completesOnly_of_filter {a b : State} {p : Flight → Bool}
    (h : deskOf b = { deskOf a with flights := a.flights.filter p }) : completesOnly a b := by
  have hf : b.flights = a.flights.filter p := congrArg Desk.flights h
  exact ⟨fun f hm => (List.mem_filter.mp (hf ▸ hm)).1, congrArg Desk.window h, congrArg Desk.budget h⟩

theorem completesOnly_trans {a b c : State} (h : completesOnly a b) (k : completesOnly b c) : completesOnly a c := by
  obtain ⟨hf, hw, hb⟩ := h
  obtain ⟨kf, kw, kb⟩ := k
  exact ⟨fun f hm => hf f (kf f hm), kw.trans hw, kb.trans hb⟩

theorem foldl_completesOnly {α : Type} (g : State → α → State) (h : ∀ s x, completesOnly s (g s x)) :
    ∀ (l : List α) (s : State), completesOnly s (l.foldl g s)
  | [], _ => completesOnly_of_desk rfl
  | x :: l, s => completesOnly_trans (h s x) (foldl_completesOnly g h l (g s x))

theorem finishSub_completesOnly (s : State) (c st : Nat) : completesOnly s (finishSub s c st) := by
  cases h : (s.ctx c).queue.head?.bind s.flight? with
  | none => exact completesOnly_of_desk (finishSub_idle_desk st h)
  | some f => exact completesOnly_of_filter (finishSub_desk st h)

theorem complete_completesOnly {a s : State} (h : deskOf s = deskOf a) (id st : Nat) (pay : List Nat) :
    completesOnly a (complete s id st pay) :=
  completesOnly_trans (completesOnly_of_desk h) (completesOnly_of_filter (complete_desk s id st pay))

theorem beginCtx_completesOnly (k : Nat) (s : State) (c : Nat) : completesOnly s (beginCtx k s c) := by
  induction k generalizing s with
  | zero => exact completesOnly_of_desk rfl
  | succ k ih =>
    have hdrop : ∀ {a : State} (id st : Nat) (pay : List Nat), deskOf a = deskOf s →
        completesOnly s (beginCtx k (complete a id st pay) c) :=
      fun id st pay h => completesOnly_trans (complete_completesOnly h id st pay) (ih _)
    unfold beginCtx
    extract_lets x
    split
    · exact completesOnly_of_desk rfl
    split
    · exact completesOnly_of_desk rfl
    split
    · exact completesOnly_trans (completesOnly_of_desk rfl) (ih _)
    extract_lets fn drop stall s1
    have h1 : deskOf s1 = deskOf s := foldl_desk _ (fun _ _ => readRange_desk _ _ _ _) _ _
    clear_value s1
    split
    · exact completesOnly_of_desk rfl
    split
    · exact hdrop _ _ _ rfl
    split
    · exact completesOnly_of_desk rfl
    split
    · exact completesOnly_of_desk h1
    · exact hdrop _ _ _ h1
    split
    · exact hdrop _ _ _ h1
    · exact completesOnly_of_desk h1
    · exact hdrop _ _ _ h1
    extract_lets s2
    have h2 : deskOf s2 = deskOf s := (foldl_desk _ (fun _ _ => readRange_desk _ _ _ _) _ _).trans h1
    clear_value s2
    split
    · exact completesOnly_of_desk h2
    split
    · exact hdrop _ _ _ h2
    · exact completesOnly_of_desk h2

theorem chdLoop_completesOnly (k : Nat) (s : State) : completesOnly s (chdLoop k s) := by
  induction k generalizing s with
  | zero => exact completesOnly_of_desk rfl
  | succ k ih =>
    unfold chdLoop
    extract_lets s1 s2 s3 bad s4
    have h1 : completesOnly s s1 := foldl_completesOnly _ (fun s c => beginCtx_completesOnly _ s c) _ _
    have h2 : completesOnly s1 s2 := completesOnly_of_desk (by simp [s2])
    have h3 : completesOnly s2 s3 := completesOnly_of_desk (by simp [s3, foldl_desk])
    have h4 : completesOnly s3 s4 := foldl_completesOnly _ (fun s c => finishSub_completesOnly s c stPartLost) _ _
    have h : completesOnly s s4 := completesOnly_trans h1 (completesOnly_trans h2 (completesOnly_trans h3 h4))
    split
    · exact completesOnly_trans h (ih s4)
    · exact h

theorem kickChandelier_completesOnly (s : State) : completesOnly s (kickChandelier s) :=
  completesOnly_trans (completesOnly_of_desk (book_desk s)) (chdLoop_completesOnly _ _)

end Sys2Proof.Machine
end

section
/-! SUPPORT. Submissions that end, wait in memory and are preempted, and the accounting window (R299, R303, R307, R322-R330): what
each event does, case by case, and from it the statement on submissions. -/

namespace Sys2Proof.Machine

@[simp] theorem at_chdUp (s : State) (t : Time) : (s.at t).chdUp = s.chdUp := rfl
@[simp] theorem at_tapersOf (s : State) (t : Time) (c : Nat) : (s.at t).tapersOf c = s.tapersOf c := rfl

/-! ### The memory of a function at another instant -/

theorem at_placeIn (s : State) (t : Time) (l : List Nat) (a : Nat) : placeIn (s.at t) l a = placeIn s l a := by
  induction l generalizing a with
  | nil => rfl
  | cons p r ih => simp [placeIn, ih]

theorem at_place (s : State) (t : Time) (fn a : Nat) : (s.at t).place fn a = s.place fn a := at_placeIn s t _ a

theorem at_chdByte (s : State) (t : Time) (fn a : Nat) : chdByte (s.at t) fn a = chdByte s fn a := by
  unfold chdByte memByte
  rw [at_place]
  rfl

theorem at_chdNat (s : State) (t : Time) (fn a n : Nat) : chdNat (s.at t) fn a n = chdNat s fn a n := by
  simp only [chdNat, chdBytes, at_chdByte]

@[simp] theorem at_waitMatch (s : State) (t : Time) (fn : Nat) (w : WaitMem) : (s.at t).waitMatch fn w = s.waitMatch fn w := by
  unfold State.waitMatch
  rw [at_chdNat]

@[simp] theorem at_saveStall (s : State) (t : Time) (c : Nat) : (s.at t).saveStall c = s.saveStall c := by
  unfold State.saveStall State.stallAt
  simp only [at_place]
  rfl

/-! ### SUBMISSION_COMPLETE (R303) -/

theorem flight?_id {s : State} {id : Nat} {f : Flight} (h : s.flight? id = some f) : f.id = id := by
  simpa using List.find?_some h

theorem modCtx_queue {s : State} {c : Nat} {f : Ctx → Ctx} (h : (f (s.ctx c)).queue = (s.ctx c).queue) (k : Nat) :
    ((s.modCtx c f).ctx k).queue = (s.ctx k).queue := by
  by_cases e : k = c
  · subst e; rw [modCtx_ctx, h]
  · rw [modCtx_ctx_ne _ _ _ e]

theorem modChand_ctx {s : State} {f : Chand → Chand} (h : (f s.chand).ctxs = s.chand.ctxs) (k : Nat) :
    (s.modChand f).ctx k = s.ctx k := by
  simp [State.ctx, State.modChand, h]

theorem book_queue (s : State) (k : Nat) : ((book s).ctx k).queue = (s.ctx k).queue := by
  refine foldl_keeps (fun s => (s.ctx k).queue) _ (fun s c => ?_) _ _
  dsimp only
  split
  · rfl
  · rw [modChand_ctx rfl]
    exact modCtx_queue rfl k

theorem undoPreempt_queue (s : State) (c : Nat) : ((undoPreempt s c).ctx c).queue = (s.ctx c).queue := by
  unfold undoPreempt
  split
  · exact modCtx_queue (f := fun x => { x with preempts := x.preempts - 1, preAt := none }) rfl c
  · rfl

/-- A submission that ends is no longer in flight, whatever Chandelier goes on to do. -/
theorem endSubmission_ends {s : State} {c id st : Nat} {f : Flight} (hq : (s.ctx c).queue.head? = some id)
    (hf : s.flight? id = some f) : ∀ g ∈ (endSubmission s c st).flights, g.id ≠ id := by
  have hcmd : ((book s).ctx c).queue.head?.bind (book s).flight? = some f := by
    rw [book_queue, hq, Option.bind_some, flight?_of_desk (book_desk s), hf]
  have hends : (finishSub (book s) c st).flights = (book s).flights.filter (·.id ≠ f.id) :=
    congrArg Desk.flights (finishSub_desk st hcmd)
  intro g hg
  have hmem : g ∈ (finishSub (book s) c st).flights := (kickChandelier_completesOnly _).1 g hg
  rw [hends, flight?_id hf] at hmem
  simpa using (List.mem_filter.mp hmem).2

section
variable {s : State} (t : Time) {ctx : Fin 64}

theorem submissionComplete_ends {id : Nat} {r : List Nat} {f : Flight} (hd : (s.at t).subDone ctx = true)
    (hq : (s.ctx ctx).queue = id :: r) (hf : s.flight? id = some f) (hb : (s.at t).backStall = none) :
    ∃ s', exec (.submissionComplete t ctx) s = .next s' ∧ ∀ g ∈ s'.flights, g.id ≠ id := by
  refine ⟨endSubmission (undoPreempt (s.at t) ctx) ctx stOk, ?_, endSubmission_ends (f := f) ?_ ?_⟩
  · change execSubmissionComplete t ctx s = _
    simp [execSubmissionComplete, hd, hb]
  · rw [undoPreempt_queue]
    exact congrArg List.head? hq
  · exact (flight?_of_desk (undoPreempt_desk _ _) id).trans hf

theorem submissionComplete_waits {id k : Nat} {r : List Nat} (hd : (s.at t).subDone ctx = true)
    (hq : (s.ctx ctx).queue = id :: r) (hb : (s.at t).backStall = some k) :
    exec (.submissionComplete t ctx) s = .next (waitChan ((s.at t).modCtx ctx fun x => { x with stall := some k }) id k) := by
  change execSubmissionComplete t ctx s = _
  simp [execSubmissionComplete, hd, hb, hq]

theorem submissionComplete_idle (hd : (s.at t).subDone ctx = false) : exec (.submissionComplete t ctx) s = .next (s.at t) := by
  change execSubmissionComplete t ctx s = _
  simp [execSubmissionComplete, hd]

/-! ### WAIT_MEM (R307) -/

variable {w : WaitMem} (hw : (s.ctx ctx).wait = some w)
include hw

theorem waitMemMatch_goesOn (hu : s.chdUp = true) (hst : (s.ctx ctx).state = 3) (hm : s.waitMatch (s.ctx ctx).fn w = true) :
    exec (.waitMemMatch t ctx) s = .next (kickChandelier ((s.at t).modCtx ctx fun x => { x with wait := none })) := by
  change execWaitMemMatch t ctx s = _
  simp [execWaitMemMatch, hw, hu, hst, hm]

theorem waitMemMatch_waits (hm : s.waitMatch (s.ctx ctx).fn w = false) : exec (.waitMemMatch t ctx) s = .next (s.at t) := by
  change execWaitMemMatch t ctx s = _
  simp [execWaitMemMatch, hw, hm]

theorem waitMemTimeout_ends {l : Time} (hu : s.chdUp = true) (hst : (s.ctx ctx).state = 3)
    (hm : s.waitMatch (s.ctx ctx).fn w = false) (hl : w.limit = some l) (hle : l ≤ max s.dt t) :
    exec (.waitMemTimeout t ctx) s = .next (endSubmission (s.at t) ctx stTimedOut) := by
  change execWaitMemTimeout t ctx s = _
  simp only [execWaitMemTimeout, at_ctx, hw, hl, Option.bind_some, at_chdUp, hu, hst, at_waitMatch, hm, at_dt, ge_iff_le, hle]
  rfl

theorem waitMemTimeout_matched (hm : s.waitMatch (s.ctx ctx).fn w = true) : exec (.waitMemTimeout t ctx) s = .next (s.at t) := by
  change execWaitMemTimeout t ctx s = _
  cases hl : w.limit <;> simp [execWaitMemTimeout, hw, hl, hm]

end

/-! ### SHARE_WINDOW (R322, R328) -/

/-- The guaranteed time that preemption took from a function in the window (R328). -/
def State.creditOf (s : State) (f : Nat) : Nat := min (look s.chand.taken f 0) (s.budgetOf f - look s.chand.used f 0)

/-- A new accounting window starts, with the credits of the one before. -/
def newWindow (s : State) : State := s.modChand fun d => { d with
  window := s.dt, used := [], taken := []
  budget := ((List.range 64).filter fun f => s.creditOf f ≠ 0).map fun f => (f, s.guaranteed f + s.creditOf f) }

theorem look_map_key {α : Type} (v : Nat → α) (l : List Nat) (k : Nat) (d : α) :
    look (l.map fun f => (f, v f)) k d = if k ∈ l then v k else d := by
  induction l with
  | nil => simp
  | cons a l ih =>
    by_cases h : a = k
    · simp [look, h]
    · simp [look, h, ih, Ne.symm h]

theorem newWindow_budget (s : State) {f : Nat} (hf : f < 64) :
    look (newWindow s).chand.budget f (s.guaranteed f) = s.guaranteed f + s.creditOf f := by
  refine (look_map_key (fun f => s.guaranteed f + s.creditOf f) _ _ _).trans ?_
  by_cases h : s.creditOf f = 0 <;> simp [hf, h]

theorem book_fnc (s : State) (i : Nat) : (book s).fnc i = s.fnc i := by
  refine foldl_keeps (fun s => s.fnc i) _ (fun s c => ?_) _ _
  dsimp only
  split <;> rfl

theorem book_dt (s : State) : (book s).dt = s.dt := congrArg Kept.dt (book_keep s)

theorem shareWindow_exec {s : State} {t : Time} (hms : max s.dt t % 1000000 = 0) (hu : s.chdUp = true) :
    exec (.shareWindow t) s = .next (kickChandelier (rebalance (newWindow (book (s.at t))))) := by
  change execShareWindow t s = _
  simp only [execShareWindow, newWindow, State.creditOf, book_dt]
  have hdt : (s.at t).dt % ms = 0 := hms
  exact if_neg (by simp [hdt, hu])

/-- While Chandelier goes on, the window stands. -/
theorem kick_rebalance_window (s : State) :
    (kickChandelier (rebalance s)).chand.window = s.chand.window ∧
      (kickChandelier (rebalance s)).chand.budget = s.chand.budget :=
  (completesOnly_trans (completesOnly_of_desk (rebalance_desk s)) (kickChandelier_completesOnly _)).2

/-! ### Preemption (R325-R330) -/

theorem deadlineEvaluation_exec {s : State} {t : Time} (hus : max s.dt t % 1000 = 0) (hu : s.chdUp = true) :
    exec (.deadlineEvaluation t) s = .next (kickChandelier (rebalance (preemptShort (book (s.at t))))) := by
  change execDeadlineEvaluation t s = _
  have hdt : (s.at t).dt % us = 0 := hus
  exact if_neg (by simp [hdt, hu])

theorem preempt_nil (s : State) (c : Nat) : preempt s c [] = s := rfl

theorem preemptShort_none {s : State} (h : ∀ c, s.short c = false) : preemptShort s = s := by
  have hnone : (s.ctxNos.filter fun c => s.short c && s.canTake c) = [] :=
    List.filter_eq_nil_iff.mpr fun c _ => by simp [h c]
  simp only [preemptShort, hnone, List.foldl_nil, Nat.zero_sub, List.take_zero, List.filter_nil, List.map_nil]
  exact foldl_keeps id _ preempt_nil _ s

/-- Where each step changes one taper, and twice is as once, a fold changes the tapers it names. -/
theorem foldl_taper {f : Taper → Taper} (hf : ∀ x, f (f x) = f x) {g : State → Nat → State}
    (hg : ∀ s t k, (g s t).taper k = if k = t then f (s.taper k) else s.taper k) (ts : List Nat) (s : State) (k : Nat) :
    (ts.foldl g s).taper k = if k ∈ ts then f (s.taper k) else s.taper k := by
  induction ts generalizing s with
  | nil => simp
  | cons t ts ih =>
    rw [List.foldl_cons, ih, hg]
    by_cases e : k = t <;> simp [e, hf]

theorem modTaper_taper_if (s : State) (t : Nat) (f : Taper → Taper) (k : Nat) :
    (s.modTaper t f).taper k = if k = t then f (s.taper k) else s.taper k := by
  by_cases e : k = t
  · subst e; simp
  · simp [e, modTaper_taper_ne]

theorem foldl_modTaper_only (f : Taper → Taper) (ts : List Nat) (s : State) :
    ts.foldl (fun s t => s.modTaper t f) s =
      { s with chand := { s.chand with tapers := (ts.foldl (fun s t => s.modTaper t f) s).chand.tapers } } := by
  induction ts generalizing s with
  | nil => rfl
  | cons t ts ih => exact ih (s.modTaper t f)

/-- The work of tapers starts to be saved. -/
def savingTapersOf (s : State) (ts : List Nat) : State := ts.foldl (fun s t => s.modTaper t fun k => { k with saving := true }) s

theorem savingTapersOf_only (s : State) (ts : List Nat) :
    savingTapersOf s ts = { s with chand := { s.chand with tapers := (savingTapersOf s ts).chand.tapers } } :=
  foldl_modTaper_only _ _ _

theorem savingTapersOf_ctx (s : State) (ts : List Nat) (k : Nat) : (savingTapersOf s ts).ctx k = s.ctx k := by
  rw [savingTapersOf_only]
  rfl

theorem savingTapersOf_taper (s : State) (ts : List Nat) (k : Nat) :
    (savingTapersOf s ts).taper k = if k ∈ ts then { s.taper k with saving := true } else s.taper k :=
  foldl_taper (f := fun k => { k with saving := true }) (fun _ => rfl) (fun s t k => modTaper_taper_if s t _ k) ts s k

section
variable (s : State) (c : Nat) {ts : List Nat} (h : ts ≠ [])
include h

/-- A preemption stops its tapers for their save, enters it in its context, and counts. -/
theorem preempt_eq : preempt s c ts = ((savingTapersOf s ts).modCtx c fun x => { x with
      state := if (savingTapersOf s ts).running c = [] then 4 else x.state, preempts := x.preempts + 1
      owed := x.owed + ts.length, preAt := some s.dt }).modChand fun d => { d with
    preempts := if s.perfHeld 6 then d.preempts else satInc d.preempts 0xFFFFFFFF } := by
  rw [preempt, if_neg h, stopTapers, if_neg h, savingTapersOf]

theorem preempt_taper (k : Nat) :
    (preempt s c ts).taper k = if k ∈ ts then { s.taper k with saving := true } else s.taper k := by
  rw [preempt_eq s c h]
  exact savingTapersOf_taper s ts k

theorem preempt_running : (preempt s c ts).running c = (savingTapersOf s ts).running c := by
  rw [preempt_eq s c h]
  rfl

theorem preempt_ctx : (preempt s c ts).ctx c = { s.ctx c with
      state := if (preempt s c ts).running c = [] then 4 else (s.ctx c).state, preempts := (s.ctx c).preempts + 1
      owed := (s.ctx c).owed + ts.length, preAt := some s.dt } := by
  rw [preempt_running s c h, preempt_eq s c h]
  rw [modChand_ctx rfl, modCtx_ctx, savingTapersOf_ctx]

theorem preempt_ctx_ne {k : Nat} (hk : k ≠ c) : (preempt s c ts).ctx k = s.ctx k := by
  rw [preempt_eq s c h]
  rw [modChand_ctx rfl, modCtx_ctx_ne _ _ _ hk, savingTapersOf_ctx]

theorem preempt_counts : (preempt s c ts).chand.preempts =
    if s.perfHeld 6 then s.chand.preempts else satInc s.chand.preempts 0xFFFFFFFF := by
  rw [preempt_eq s c h, savingTapersOf_only]
  rfl

end

/-! ### PREEMPT_SAVE_DONE (R328, R329) -/

theorem preemptSaveDone_exec {s : State} (t : Time) {ctx : Fin 64} {k : Nat} (hu : s.chdUp = true) (hk : k ∈ s.tapersOf ctx)
    (hs : (s.taper k).saving = true) (hm : s.saveStall ctx = false) :
    exec (.preemptSaveDone t ctx) s = .next (kickChandelier (saveDone (book (s.at t)) ctx)) := by
  change execPreemptSaveDone t ctx s = _
  have hsome : ((s.tapersOf ctx).all fun t => !(s.taper t).saving) = false :=
    List.all_eq_false.mpr ⟨k, hk, by simp [hs]⟩
  exact if_neg (by simp [hu, hm, hsome])

theorem touch_taper (s : State) (c a n k : Nat) : (touch s c a n).taper k = s.taper k := by
  unfold touch
  dsimp only
  (repeat' split) <;> rfl

theorem chdWrite_taper (s : State) (c a : Nat) (l : List Byte) (k : Nat) : (chdWrite s c a l).taper k = s.taper k :=
  touch_taper s c a l.length k

/-- A taper whose work is saved is free. -/
theorem saveDone_frees {s : State} {c k : Nat} (hk : k ∈ s.tapersOf c) (hs : (s.taper k).saving = true) :
    (saveDone s c).taper k = {} := by
  have hmem : k ∈ (s.tapersOf c).filter fun t => (s.taper t).saving := List.mem_filter.mpr ⟨hk, hs⟩
  unfold saveDone
  extract_lets ts r s1
  refine (foldl_taper (f := fun _ => {}) (fun _ => rfl) (fun s t j => ?_) ts s1 k).trans (if_pos hmem)
  rw [modCtx_taper, modTaper_taper_if, chdWrite_taper]

/-- Settles O46: each event ends, resumes or preempts as its case has it, and neither Chandelier going on nor tapers changing
hands starts a command or moves the accounting window. -/
theorem submissionsEndWaitAndYield : Obligations.SubmissionsEndWaitAndYield := by
  unfold Obligations.SubmissionsEndWaitAndYield
  refine ⟨fun s t ctx => ⟨fun f id r hd hq hf =>
      ⟨submissionComplete_ends t hd hq hf, fun k => submissionComplete_waits t hd hq⟩, submissionComplete_idle t⟩,
    fun s t ctx w hw hu hst => ⟨fun hm => ⟨_, waitMemMatch_goesOn t hw hu hst hm, rfl⟩, waitMemMatch_waits t hw,
      fun l hm hl hle => waitMemTimeout_ends t hw hu hst hm hl hle, waitMemTimeout_matched t hw⟩,
    fun s t hms hu => ⟨_, shareWindow_exec hms hu, ?window⟩,
    fun s t hus hu => ⟨⟨_, deadlineEvaluation_exec hus hu, rfl⟩, preemptShort_none⟩,
    fun s c ts h => ?preempt,
    fun s t ctx k hu hk hs hm => preemptSaveDone_exec t hu hk hs hm, fun s c k hk hs => saveDone_frees hk hs⟩
  case window =>
    intro s1
    obtain ⟨hwindow, hbudget⟩ := kick_rebalance_window (newWindow s1)
    have hnew : (newWindow s1).chand.window = max s.dt t := book_dt (s.at t)
    refine ⟨?_, fun f hf => ?_⟩
    · rw [hwindow, hnew]
    have hg : s1.guaranteed f = (s.fnc f).grant.chdShare * 500000 := by rw [State.guaranteed, book_fnc, at_fnc]
    rw [hbudget, ← hg]
    exact newWindow_budget s1 hf
  case preempt =>
    intro s1
    have hctx := preempt_ctx s c h
    exact ⟨preempt_taper s c h, congrArg Ctx.preempts hctx, congrArg Ctx.owed hctx, congrArg Ctx.state hctx,
      fun k => preempt_ctx_ne s c h, preempt_counts s c h⟩

end Sys2Proof.Machine
end

section
/-! SUPPORT. Camera receivers (R388-R398): what each event of a port and CAMERA_BIND do, case by case, and from it the statement on
cameras. -/

namespace Sys2Proof.Machine

/-- Updates of a port that agree on what it holds. -/
theorem modCsi_congr {s : State} {p : Nat} {f g : Csi → Csi} (h : f (s.csi p) = g (s.csi p)) :
    s.modCsi p f = s.modCsi p g := by
  unfold State.modCsi; rw [h]

/-! ### Packets (R388) -/

section
variable {s : State} (t : Time) {port : Fin 8} {hd : CsiHeader} (hu : s.up 12 = true) (ha : (s.csi port).active = true)
include hu ha

/-- A header with two errors. -/
theorem csiPacket_uncorrectable (h2 : hd.eccDouble = true) : exec (.csiPacket t port hd) s =
    .next ((s.at t).modCsi port fun x => { x with ecc := satInc x.ecc 0xFF }) := by
  change execCsiPacket t port hd s = _
  simp [execCsiPacket, hu, ha, h2]

/-- A virtual channel that the port does not hear. -/
theorem csiPacket_unheard (h2 : hd.eccDouble = false) (h1 : hd.eccSingle = false)
    (hv : (s.csi port).hears hd.vc = false) : exec (.csiPacket t port hd) s =
    .next ((s.at t).modCsi port fun x => { x with other := satInc x.other 0xFF }) := by
  change execCsiPacket t port hd s = _
  simp [execCsiPacket, hu, ha, h2, h1, hv]

/-- A short packet of a virtual channel that the port hears. -/
theorem csiPacket_short (h2 : hd.eccDouble = false) (hv : (s.csi port).hears hd.vc = true) (hs : hd.dtype.val < 4) :
    exec (.csiPacket t port hd) s = .next (if hd.eccSingle then
      countCorrected ((s.at t).modCsi port fun x => { x with corr := x.corr + 1 }) 12 else s.at t) := by
  change execCsiPacket t port hd s = _
  simp [execCsiPacket, hu, ha, h2, hv, hs]

end

/-! ### Frame starts (R390, R393, R395, R398) -/

@[simp] theorem at_bindEnds (s : State) (t : Time) (port : Nat) (b : Bind) : (s.at t).bindEnds port b = s.bindEnds port b := rfl

/-- The functions told of a signal are those of the bindings in force (R409). -/
theorem signalEvent_congr (s : State) (port : Nat) {x y : Csi} (lost frames : Nat) (hm : x.mem = y.mem) (hr : x.ring = y.ring) :
    signalEvent s port x lost frames = signalEvent s port y lost frames := by
  simp only [signalEvent, hm, hr]

theorem signalEvent_unbound (s : State) (port : Nat) {x : Csi} (lost frames : Nat) (hm : x.mem = none) (hr : x.ring = none) :
    signalEvent s port x lost frames = s := by
  simp [signalEvent, hm, hr]

/-- A function is told once, even of two bindings. -/
theorem signalEvent_one (s : State) (port : Nat) {x : Csi} (lost frames : Nat) {b : Bind} (hm : x.mem = some b)
    (hr : x.ring = none ∨ x.ring.map (·.fn) = some b.fn) :
    signalEvent s port x lost frames = sendEvent s 12 b.fn 0x0382 port lost frames := by
  rcases hr with hr | hr <;> simp [signalEvent, hm, hr, List.eraseDups_cons]

/-- A port as a frame start leaves it. -/
def frameStarted (s : State) (port dtype : Nat) : Csi :=
  let x := s.csi port
  let y := rebind s port x
  { y with
    signal := true, dtype := dtype, frames := (x.frames + 1) % 65536
    size := if misfit dtype y.mem || misfit dtype y.ring then satInc x.size 0xFF else x.size
    prevDt := x.startDt, startDt := s.stamp 12, starts := x.starts + 1, line := 0, inFrame := true }

theorem csiFrameStart_exec {s : State} (t : Time) {port : Fin 8} (dtype : Fin 64) (hu : s.up 12 = true)
    (ha : (s.csi port).active = true) :
    let x := frameStarted (s.at t) port dtype
    let s1 := (s.at t).modCsi port fun _ => x
    exec (.csiFrameStart t port dtype) s = .next (camReturns (if (s.csi port).signal then s1
      else signalEvent s1 port x 0 (((s.csi port).frames + 1) % 65536)) port) := by
  intro x s1
  change execCsiFrameStart t port dtype s = _
  have hbound : signalEvent s1 port (rebind (s.at t) port (s.csi port)) = signalEvent s1 port x := by
    funext lost frames
    exact signalEvent_congr _ _ _ _ rfl rfl
  rw [← hbound]
  simp only [execCsiFrameStart, at_up, at_csi, hu, ha, Bool.not_true, Bool.or_self, Bool.false_eq_true, if_false]
  rfl

/-! ### Lines (R389, R391, R392, R396, R397) -/

section
variable {s : State} {x : Csi} (px : List Byte)

theorem lineToMem_unbound (hm : x.mem = none) : lineToMem s x px = s := by
  simp [lineToMem, hm]

theorem lineToMem_writes {b : Bind} (hm : x.mem = some b) (hl : x.line < b.height) (hf : fmtSuits x.dtype b.fmt = true) :
    lineToMem s x px =
      memWrite s b.fn (b.base + b.frame % b.bufs * b.pitch * b.height + x.line * b.pitch) (bindLine x b px) := by
  simp [lineToMem, hm, hl, hf]

theorem lineToRing_unbound (hr : x.ring = none) : lineToRing s x px = s := by
  simp [lineToRing, hr]

theorem lineToRing_writes {b : Bind} (hr : x.ring = some b) (hl : x.line < b.height) (hf : fmtSuits x.dtype b.fmt = true) :
    let r : RingLine := { src := x.line, frame := x.startDt, done := s.dt + s.free % 401, bytes := bindLine x b px }
    lineToRing s x px =
      ({ s with media := { s.media with rings := put s.media.rings (64 * b.ring + x.line % 64) r } }).drawn := by
  simp [lineToRing, hr, hl, hf]

end

section
variable {s : State} (t : Time) {port : Fin 8} (px : List Byte) (hu : s.up 12 = true) (hi : (s.csi port).inFrame = true)
  (hd : imageType (s.csi port).dtype = true)
include hu hi hd

theorem csiLine_bad : exec (.csiLine t port false px) s =
    .next ((s.at t).modCsi port fun x => { x with line := x.line + 1, crc := satInc x.crc 0xFF }) := by
  change execCsiLine t port false px s = _
  simp [execCsiLine, hu, hi, hd]

theorem csiLine_good : exec (.csiLine t port true px) s =
    .next (lineToRing (lineToMem ((s.at t).modCsi port fun x => { x with line := x.line + 1 }) (s.csi port) px)
      (s.csi port) px) := by
  change execCsiLine t port true px s = _
  simp [execCsiLine, hu, hi, hd]

end

/-! ### Frame ends (R391, R396) -/

/-- A binding's height is not the number of lines received (R391). -/
def wrongHeight (line : Nat) (o : Option Bind) : Bool :=
  match o with
  | some b => line ≠ b.height
  | none => false

theorem wrongHeight_eq (line : Nat) (o : Option Bind) : wrongHeight line o = o.any fun b => b.height ≠ line := by
  cases o with
  | none => rfl
  | some b => exact decide_eq_decide.mpr ne_comm

theorem ite_satInc (w : Bool) (n m : Nat) : (if w then satInc n m else n) = if w = true ∧ n < m then n + 1 else n := by
  cases w <;> simp [satInc]

/-- A port as the end of a frame leaves it: each binding moves to its next frame. -/
def frameEnded (x : Csi) : Csi := { x with
  inFrame := false
  mem := x.mem.map fun b => { b with frame := b.frame + 1 }
  ring := x.ring.map fun b => { b with frame := b.frame + 1 }
  size := if wrongHeight x.line x.mem || wrongHeight x.line x.ring then satInc x.size 0xFF else x.size }

/-- The fence that the frame of a memory binding sets (R396). -/
def frameFence (s : State) (o : Option Bind) : State :=
  match o with
  | some b => match b.fence with
    | some n => signalFence s b.fn n (b.frame + 1)
    | none => s
  | none => s

theorem frameFence_unfenced (s : State) {o : Option Bind} (h : ∀ b, o = some b → b.fence = none) : frameFence s o = s := by
  cases o with
  | none => rfl
  | some b => simp [frameFence, h b rfl]

theorem csiFrameDone_exec {s : State} (t : Time) {port : Fin 8} (hu : s.up 12 = true) (hi : (s.csi port).inFrame = true) :
    exec (.csiFrameDone t port) s = .next (frameFence ((s.at t).modCsi port frameEnded) (s.csi port).mem) := by
  change execCsiFrameDone t port s = _
  simp only [execCsiFrameDone, at_up, at_csi, hu, hi, Bool.not_true, Bool.or_self, Bool.false_eq_true, if_false]
  cases (s.csi port).mem with
  | none => rfl
  | some b =>
    simp only [frameFence]
    cases b.fence <;> rfl

/-! ### CAMERA_BIND (R393-R395) -/

theorem cameraBind_exec {s : State} (t : Time) {c : Cmd} (h : (s.at t).runs specCameraBind c = true) :
    exec (.cameraBind t c) s = .next (runBind ((s.at t).launched specCameraBind c) (flightOf (s.at t) specCameraBind c)) :=
  congrArg Host.Outcome.next (startCmd_runs _ _ _ h)

/-- Settles O51: each event of a port and CAMERA_BIND does what its case has it do. -/
theorem camerasCheckCountAndBind : Obligations.CamerasCheckCountAndBind := by
  unfold Obligations.CamerasCheckCountAndBind
  refine ⟨fun s t port hd hu ha => ⟨csiPacket_uncorrectable t hu ha, csiPacket_unheard t hu ha,
      fun h2 h1 hv hs => ?short, fun h2 h1 hv hs => ?corrected⟩,
    fun s t port dtype hu ha => ?start,
    fun s t port px hu hi hd => ⟨csiLine_bad t px hu hi hd, fun hm hr => ?neither, fun b hm hr hl hf => ?memory,
      fun b hm hr hl hf => ?ring⟩,
    fun s t port hu hi => ?done,
    fun s t port hu hs hl => ?lost,
    fun s port x lost frames => ⟨signalEvent_unbound s port lost frames, fun b => signalEvent_one s port lost frames⟩,
    fun s t c h => cameraBind_exec t h⟩
  case short | corrected => rw [csiPacket_short t hu ha h2 hv hs, h1]; rfl
  case start =>
    refine ⟨(s.at t).modCsi port fun _ => frameStarted (s.at t) port dtype, fun p hp => modCsi_csi_ne _ _ _ hp, ?_⟩
    rw [modCsi_csi]
    exact ⟨rfl, rfl, rfl, rfl, rfl, rfl, rfl, rfl, rfl, rfl, rfl, rfl, rfl, rfl, csiFrameStart_exec t dtype hu ha⟩
  case neither =>
    rw [csiLine_good t px hu hi hd, lineToMem_unbound px hm, lineToRing_unbound px hr]
  case memory =>
    rw [csiLine_good t px hu hi hd, lineToMem_writes px hm hl hf, lineToRing_unbound px hr]
  case ring =>
    intro s1 r
    rw [csiLine_good t px hu hi hd, lineToMem_unbound px hm]
    exact congrArg _ (lineToRing_writes px hr hl hf)
  case done =>
    intro wrong s1
    have hexec : exec (.csiFrameDone t port) s = .next (frameFence s1 (s.csi port).mem) := by
      have hs1 : s1 = (s.at t).modCsi port frameEnded :=
        modCsi_congr (by simp only [frameEnded, wrongHeight_eq, ite_satInc]; rfl)
      rw [hs1]
      exact csiFrameDone_exec t hu hi
    exact ⟨fun hf => hexec.trans (congrArg _ (frameFence_unfenced s1 hf)),
      fun b n hm hf => hexec.trans (congrArg _ (by simp [frameFence, hm, hf]))⟩
  case lost =>
    change execCsiSignalLost t port s = _
    have hdue : ¬ (s.at t).dt < (s.csi port).startDt + 200 * ms := Nat.not_lt.mpr hl
    simp [execCsiSignalLost, hu, hs, hdue]

end Sys2Proof.Machine
end

section
/-! SUPPORT. What reads of memory leave alone: Media, and so every codec session. One lemma for each operation. -/

namespace Sys2Proof.Machine

theorem onlyMessages_media {a b : State} (h : onlyMessages a b) : b.media = a.media := by
  rw [h.1]

@[simp] theorem raiseSysAlarm_media (s : State) : (raiseSysAlarm s).media = s.media := by
  simp [raiseSysAlarm, updAlmout, bumpGen, noteSys, apply_ite State.media]

@[simp] theorem fatalResponse_media (s : State) : (fatalResponse s).media = s.media := by
  simp [fatalResponse, setTone, apply_ite State.media]

@[simp] theorem faultEvents_media (s : State) (fc cls opn : Nat) (stamp : Time) :
    (faultEvents s fc cls opn stamp).media = s.media := onlyMessages_media (faultEvents_onlyMessages s fc cls opn stamp)

@[simp] theorem report_media (s : State) (isl src : Nat) (loss : Bool) : (report s isl src loss).media = s.media := by
  simp [report, reportAt, countCorrected, apply_ite State.media]

@[simp] theorem takeLine_media (s : State) (line : Nat) (dirty : Bool) : (takeLine s line dirty).media = s.media := by
  simp [takeLine, apply_ite State.media]

@[simp] theorem freezeChan_media (s : State) (c : Nat) (r : MemReq) (syn : Nat) : (freezeChan s c r syn).media = s.media :=
  (onlyMessages_media (sendManagers_onlyMessages _ _ _ _ _ _)).trans (report_media _ _ _ _)

@[simp] theorem readWord_media (s : State) (fn a : Nat) (merge : Bool) : (readWord s fn a merge).media = s.media := by
  unfold readWord
  dsimp only
  (repeat' split) <;> simp

@[simp] theorem readLine_media (s : State) (fn a : Nat) : (readLine s fn a).media = s.media := by
  unfold readLine
  split
  · split
    · exact takeLine_media _ _ _
    · rfl
  · rfl

@[simp] theorem readRange_media (s : State) (fn a n : Nat) : (readRange s fn a n).media = s.media :=
  (foldl_keeps State.media _ (fun _ _ => readLine_media _ _ _) _ _).trans
    (foldl_keeps State.media _ (fun _ _ => readWord_media _ _ _ _) _ _)

@[simp] theorem launched_media (s : State) (p : OpSpec) (c : Cmd) : (s.launched p c).media = s.media := by
  rw [launched_only]

/-! ### The table of sessions -/

theorem session_of_media {a b : State} (h : a.media = b.media) (k : Nat) : a.session k = b.session k := by
  unfold State.session; rw [h]

theorem find?_put {α : Type} (l : Tbl α) (k : Nat) (v : α) : (put l k v).find? (fun e => e.1 = k) = some (k, v) := by
  induction l with
  | nil => simp [put]
  | cons e r ih =>
    by_cases h : e.1 = k
    · simp [put, h]
    · simpa [put, h] using ih

theorem find?_put_ne {α : Type} (l : Tbl α) {k j : Nat} (v : α) (hj : j ≠ k) :
    (put l k v).find? (fun e => e.1 = j) = l.find? fun e => e.1 = j := by
  induction l with
  | nil => simp [put, hj.symm]
  | cons e r ih =>
    by_cases h : e.1 = k
    · simp [put, h, hj.symm]
    · simp only [put, h, if_false, List.find?_cons, ih]

@[simp] theorem setSession_session (s : State) (k : Nat) (x : Session) : (s.setSession k x).session k = some x := by
  simp [State.session, State.setSession, find?_put]

theorem setSession_session_ne (s : State) {k j : Nat} (x : Session) (hj : j ≠ k) :
    (s.setSession k x).session j = s.session j := by
  simp only [State.session, State.setSession, find?_put_ne _ _ hj]

@[simp] theorem setSession_setSession (s : State) (k : Nat) (x y : Session) :
    (s.setSession k x).setSession k y = s.setSession k y := by
  simp [State.setSession, put_put]

end Sys2Proof.Machine
end

section
/-! SUPPORT. The decoder and the encoder (R399-R407): what each command and event of a session does, case by case, and from it the
statement on codec sessions. -/

namespace Sys2Proof.Machine

/-! ### MEDIA_DECODE (R399, R400, R402) -/

/-- The free slots of a session, in ascending order. -/
def Session.slotsFree (x : Session) : List Nat := (List.range x.slots).filter fun i => x.free.contains i

theorem mem_slotsFree {x : Session} (h : ∀ i ∈ x.free, i < x.slots) (i : Nat) : i ∈ x.slotsFree ↔ i ∈ x.free := by
  simpa [Session.slotsFree] using h i

/-- A command that frees no slot lists the free ones anew, and completes none that waits (R402). -/
theorem releaseSlots_none {s : State} {fn n : Nat} {x : Session} (hx : s.session (sessKey fn n false) = some x)
    (hw : x.slotsFree = [] ∨ x.waiting = []) :
    releaseSlots s fn n 0 = s.setSession (sessKey fn n false) { x with free := x.slotsFree } := by
  have hfree : ((List.range x.slots).filter fun i => Nat.testBit 0 i || x.free.contains i) = x.slotsFree := by
    simp [Session.slotsFree]
  simp only [releaseSlots, hx, hfree]
  rcases hw with hw | hw
  · simp [hw]
  · simp [hw, completeAll]

/-- The session of a decode. -/
def decKey (c : Cmd) : Nat := sessKey c.fn (c.f 10 0 4) false

section
variable {s : State} {f : Flight} {x : Session} (he : mdEnd f.cmd = false) (h0 : f.cmd.f 14 0 24 = 0)
  (hx : s.session (decKey f.cmd) = some x)
include he h0 hx

/-- With a free slot the decode completes (R402). -/
theorem decodeAu_completes (hs : x.slotsFree ≠ []) (hw : x.waiting = []) :
    decodeAu s f = complete (s.setSession (decKey f.cmd) { x with free := x.slotsFree })
      f.id stOk noPay := by
  unfold decKey at hx ⊢
  simp [decodeAu, h0, releaseSlots_none hx (.inr hw), he, hs]

/-- Without one it waits in its session (R402). -/
theorem decodeAu_waits (hs : x.slotsFree = []) :
    decodeAu s f = (s.setSession (decKey f.cmd)
      { x with free := [], waiting := x.waiting ++ [f.id] }).modFlight f.id fun f => { f with holds := true } := by
  unfold decKey at hx ⊢
  simp [decodeAu, h0, releaseSlots_none hx (.inl hs), he, hs]

end

theorem slotsFree_of_free_nil {x : Session} (h : x.free = []) : x.slotsFree = [] := by
  simp [Session.slotsFree, h]

/-- The session that a MEDIA_DECODE with INIT opens (R399). -/
def decOf (c : Cmd) : Session :=
  { enc := false, codec := c.f 10 6 1, w := c.f 18 0 16, h := c.f 18 16 16, fps := c.f 19 8 8, area := c.d 16
    slots := c.f 19 0 5, free := List.range (c.f 19 0 5), fmt := c.f 10 7 2, depth10 := c.b 19 5 }

theorem decOf_slotsFree (c : Cmd) : (decOf c).slotsFree = List.range (c.f 19 0 5) := by
  simp [Session.slotsFree, decOf]

/-- The state in which the access unit of a decode has been read. -/
def unitRead (s : State) (c : Cmd) : State := readRange s c.fn (c.d 11) (c.f 13 0 24)

/-- The access unit of a decode can be read (R350, R366). -/
def unitServed (s : State) (c : Cmd) : Prop := served s c.fn [(c.d 11, c.f 13 0 24)] []

theorem unitRead_session (s : State) (c : Cmd) (k : Nat) : (unitRead s c).session k = s.session k :=
  session_of_media (readRange_media _ _ _ _) k

section
variable {s : State} {f : Flight} (hr : unitServed s f.cmd) (he : mdEnd f.cmd = false) (h0 : f.cmd.f 14 0 24 = 0)
include hr

/-- A decode whose access unit can be read goes on after the read (R350). -/
theorem runDecode_reads : runDecode s f = decodeAu
    (if mdInit f.cmd then (unitRead s f.cmd).setSession (decKey f.cmd) (decOf f.cmd) else unitRead s f.cmd) f := by
  unfold runDecode
  exact withMem_served hr

include he h0

theorem runDecode_opens (hi : mdInit f.cmd = true) (hn : 0 < f.cmd.f 19 0 5) :
    runDecode s f = complete ((unitRead s f.cmd).setSession (decKey f.cmd) (decOf f.cmd)) f.id stOk noPay := by
  have hslots : (decOf f.cmd).slotsFree ≠ [] := by simp [decOf_slotsFree, Nat.ne_of_gt hn]
  rw [runDecode_reads hr, if_pos hi, decodeAu_completes he h0 (setSession_session _ _ _) hslots rfl, decOf_slotsFree,
    setSession_setSession]
  rfl

variable {x : Session} (hi : mdInit f.cmd = false) (hx : s.session (decKey f.cmd) = some x)
include hi hx

theorem runDecode_waits (hf : x.free = []) : runDecode s f = ((unitRead s f.cmd).setSession (decKey f.cmd)
    { x with waiting := x.waiting ++ [f.id] }).modFlight f.id fun f => { f with holds := true } := by
  rw [runDecode_reads hr, if_neg (Bool.eq_false_iff.mp hi), decodeAu_waits he h0 ((unitRead_session _ _ _).trans hx)
    (slotsFree_of_free_nil hf), ← hf]

theorem runDecode_completes (hs : x.slotsFree ≠ []) (hw : x.waiting = []) : runDecode s f =
    complete ((unitRead s f.cmd).setSession (decKey f.cmd) { x with free := x.slotsFree }) f.id stOk noPay := by
  rw [runDecode_reads hr, if_neg (Bool.eq_false_iff.mp hi)]
  exact decodeAu_completes he h0 ((unitRead_session _ _ _).trans hx) hs hw

end

theorem mediaDecode_exec {s : State} (t : Time) {c : Cmd} (h : (s.at t).runs specDecode c = true) :
    exec (.mediaDecode t c) s = .next (runDecode ((s.at t).launched specDecode c) (flightOf (s.at t) specDecode c)) :=
  congrArg Host.Outcome.next (startCmd_runs _ _ _ h)

/-! ### MEDIA_PICTURE (R402, R403) -/

theorem mediaPicture_exec {s : State} (t : Time) {fn : Fin 64} {n : Fin 16} (concealed : Nat) {x : Session} {slot : Nat}
    {r : List Nat} (hu : s.up 12 = true) (hx : s.session (sessKey fn n false) = some x) (hf : x.free = slot :: r) :
    exec (.mediaPicture t fn n concealed) s =
      .next (sendEvent ((memWrite (s.at t).drawn fn
          (x.area + 17 * refBytes x.w x.h x.depth10 + slot * slotBytes x.w x.h x.fmt)
          ((List.range (pictureBytes x.w x.h x.fmt)).map (Config.pictureByte s.draws))).setSession (sessKey fn n false)
        { x with free := r, out := x.out + 1, concealed := x.concealed + b2n (concealed ≠ 0) }) 12 fn 0x0380
        (n + 2 ^ 8 * slot + 2 ^ 16 * b2n (concealed ≠ 0)) (x.out % 2 ^ 32) (concealed % 2 ^ 32)) := by
  have hx' : (s.at t).session (sessKey fn n false) = some x := hx
  change execMediaPicture t fn n concealed s = _
  simp only [execMediaPicture, at_up, hu, if_true, putPicture, hx', hf]
  rfl

/-! ### MEDIA_ENCODE (R404, R406, R407) -/

/-- The session of an encode. -/
def encKey (c : Cmd) : Nat := sessKey c.fn (c.f 10 0 4) true

section
variable {s : State} {f : Flight} (he : mdEnd f.cmd = false) (hc : meCamera f.cmd = true)
include he hc

theorem runEncode_opens (hi : mdInit f.cmd = true) :
    runEncode s f = complete (s.setSession (encKey f.cmd) (encOf f.cmd)) f.id stOk noPay := by
  simp [runEncode, encKey, hc, he, hi, encOf]

/-- A command for a camera's open session asks for an IDR picture or lets the request stand (R407). -/
theorem runEncode_continues {x : Session} (hi : mdInit f.cmd = false) (hx : s.session (encKey f.cmd) = some x) :
    runEncode s f = complete (s.setSession (encKey f.cmd) { x with idrDue := x.idrDue || f.cmd.b 10 7 }) f.id stOk noPay := by
  unfold encKey at hx
  simp [runEncode, encKey, hc, he, hi, hx]

end

theorem mediaEncode_exec {s : State} (t : Time) {c : Cmd} (h : (s.at t).runs specEncode c = true) :
    exec (.mediaEncode t c) s = .next (runEncode ((s.at t).launched specEncode c) (flightOf (s.at t) specEncode c)) :=
  congrArg Host.Outcome.next (startCmd_runs _ _ _ h)

/-! ### MEDIA_SLICE (R405, R407) -/

section
variable (s : State) (fn base : Nat) {n pos : Nat} (fuel : Nat) {l : List Byte}

theorem ringPut_nil : ringPut s fn base n fuel pos [] = s := by
  cases fuel <;> simp [ringPut]

/-- What reaches to the end of the ring goes to the position, and the rest to its start. -/
theorem ringPut_step (hl : 0 < l.length) (hn : 0 < n) : ringPut s fn base n (fuel + 1) pos l =
    ringPut (memWrite s fn (base + pos) (l.take (n - pos))) fn base n fuel 0 (l.drop (n - pos)) := by
  rw [ringPut, if_neg (by simp [List.length_pos_iff.mp hl, Nat.ne_of_gt hn])]

theorem ringPut_within (hl : 0 < l.length) (hfit : pos + l.length ≤ n) :
    ringPut s fn base n (fuel + 1) pos l = memWrite s fn (base + pos) l := by
  rw [ringPut_step s fn base fuel hl (by omega), List.take_of_length_le (by omega), List.drop_of_length_le (by omega),
    ringPut_nil]

theorem ringPut_wraps (hpos : pos < n) (hover : n < pos + l.length) (hfit : l.length ≤ n) :
    ringPut s fn base n (fuel + 2) pos l =
      memWrite (memWrite s fn (base + pos) (l.take (n - pos))) fn base (l.drop (n - pos)) := by
  have hrest : (l.drop (n - pos)).length = l.length - (n - pos) := List.length_drop
  rw [ringPut_step s fn base _ (by omega) (by omega), ringPut_within _ _ _ _ (by omega) (by omega), Nat.add_zero]

end

/-- A session once a slice of a length is in its ring (R405, R407). -/
def Session.sliced (x : Session) (idr : Bool) (len : Nat) : Session := { x with
  ringPos := (x.ringPos + len) % (x.ringKib * 1024), idrDue := x.idrDue && idr
  slice := if x.slices ≤ x.slice + 1 then 0 else x.slice + 1
  coded := if x.slices ≤ x.slice + 1 then 0 else x.coded + len }

/-- An IDR slice under intra-refresh while none is due (R407). -/
def Session.idrShut (x : Session) (idr : Bool) : Bool := idr && x.irPeriod ≠ 0 && !x.idrDue

theorem idrShut_eq_false {x : Session} {idr : Bool} (h : idr = false ∨ x.irPeriod = 0 ∨ x.idrDue = true) :
    x.idrShut idr = false := by
  rcases h with h | h | h <;> simp [Session.idrShut, h]

section
variable {s : State} (t : Time) {fn : Fin 64} {n : Fin 16} {idr : Bool} (nal : List Byte) {x : Session}
  (hx : s.session (sessKey fn n true) = some x)
include hx

theorem mediaSlice_refused (h : x.idrShut idr = true ∨ x.fits nal.length = false) :
    exec (.mediaSlice t fn n idr nal) s = .next (s.at t) := by
  have hx' : (s.at t).session (sessKey fn n true) = some x := hx
  unfold Session.idrShut at h
  change execMediaSlice t fn n idr nal s = _
  simp only [execMediaSlice, hx']
  exact if_pos (by rcases h with h | h <;> simp only [h, Bool.not_false, Bool.true_or, Bool.or_true])

theorem mediaSlice_accepted (hu : s.up 12 = true) (hi : x.idrShut idr = false) (hf : x.fits nal.length = true) :
    exec (.mediaSlice t fn n idr nal) s = .next (sendEvent
      ((ringPut (s.at t) fn x.ring (x.ringKib * 1024) (nal.length / max (x.ringKib * 1024) 1 + 2) x.ringPos nal).setSession
        (sessKey fn n true) (x.sliced idr nal.length)) 12 fn 0x0381
      (n + 2 ^ 16 * b2n idr) (x.ringPos % 2 ^ 32) (nal.length % 2 ^ 32)) := by
  have hx' : (s.at t).session (sessKey fn n true) = some x := hx
  unfold Session.idrShut at hi
  change execMediaSlice t fn n idr nal s = _
  simp only [execMediaSlice, hx', at_up, hu, hi, hf, Bool.not_true, Bool.or_self, Bool.false_eq_true, if_false]
  rfl

end

/-- Settles O52: each command and event of a session does what its case has it do. -/
theorem codecSessionsOpenRunAndClose : Obligations.CodecSessionsOpenRunAndClose := by
  unfold Obligations.CodecSessionsOpenRunAndClose
  refine ⟨fun s t c h => ?decode,
    fun s t fn n concealed x slot r hu hx hf => ⟨_, by simp, mediaPicture_exec t concealed hu hx hf⟩,
    fun s t c h he hc => ?encode, fun s t fn n idr nal x hu hx => ?slice⟩
  case decode =>
    intro s0 s1 k hl h0 h1
    let flight := flightOf (s.at t) specDecode c
    have hexec : exec (.mediaDecode t c) s = .next (runDecode s0 flight) := mediaDecode_exec t h
    have hread : unitServed s0 c := by
      intro r hr
      obtain rfl : r = (c.d 11, c.f 13 0 24) := by simpa using hr
      exact ⟨hl, h0, h1⟩
    have hses : ∀ j, s0.session j = s.session j := session_of_media (launched_media _ _ _)
    have hothers : ∀ y j, j ≠ k → (s1.setSession k y).session j = s.session j := fun y j hj =>
      (setSession_session_ne _ _ hj).trans ((unitRead_session s0 c j).trans (hses j))
    refine ⟨fun hi he h14 hn => ?init, fun x hi he h14 hx hf => ?waits, fun x hi he h14 hx hf hlt hw => ?goes⟩
    case init =>
      exact ⟨_, hexec.trans (congrArg _ (runDecode_opens (f := flight) hread he h14 hi hn)),
        setSession_session _ _ _, hothers _, rfl⟩
    case waits =>
      exact ⟨_, hexec.trans (congrArg _ (runDecode_waits (f := flight) hread he h14 hi ((hses k).trans hx) hf)),
        setSession_session _ _ _, hothers _, rfl⟩
    case goes =>
      have hslots : x.slotsFree ≠ [] := by
        obtain ⟨i, hmem⟩ := List.exists_mem_of_ne_nil _ hf
        exact List.ne_nil_of_mem ((mem_slotsFree hlt i).2 hmem)
      exact ⟨_, hexec.trans (congrArg _ (runDecode_completes (f := flight) hread he h14 hi ((hses k).trans hx) hslots hw)),
        ⟨_, setSession_session _ _ _, rfl, mem_slotsFree hlt⟩, hothers _, rfl⟩
  case encode =>
    intro s1 k
    let flight := flightOf (s.at t) specEncode c
    have hexec : exec (.mediaEncode t c) s = .next (runEncode s1 flight) := mediaEncode_exec t h
    have hses : ∀ j, s1.session j = s.session j := session_of_media (launched_media _ _ _)
    refine ⟨fun x hi hx => ?continues, fun hi => ?opens⟩
    case continues =>
      exact hexec.trans (congrArg _ (runEncode_continues (f := flight) he hc hi ((hses k).trans hx)))
    case opens =>
      exact ⟨_, hexec.trans (congrArg _ (runEncode_opens (f := flight) he hc hi)), setSession_session _ _ _,
        fun j hj => (setSession_session_ne _ _ hj).trans (hses j), rfl⟩
  case slice =>
    have hfits : (x.cbr = true → (x.coded + nal.length) * 8 * x.fps * 10 ≤ x.kbps * 1000 * 11) → x.fits nal.length = true := by
      intro hcbr
      cases hc : x.cbr <;> simp_all [Session.fits]
    refine ⟨fun hi hcbr hl hfit => ?_, fun hi hcbr hpos hover hfit => ?_, fun hc hbig => ?_, fun h1 h2 h3 => ?_⟩
    · rw [mediaSlice_accepted t nal hx hu (idrShut_eq_false hi) (hfits hcbr), ringPut_within _ _ _ _ hl hfit]
      rfl
    · intro k
      rw [mediaSlice_accepted t nal hx hu (idrShut_eq_false hi) (hfits hcbr), ringPut_wraps _ _ _ _ hpos hover hfit]
      rfl
    · exact mediaSlice_refused t nal hx (.inr (by simp [Session.fits, hc, hbig]))
    · exact mediaSlice_refused t nal hx (.inl (by simp [Session.idrShut, h1, h2, h3]))

end Sys2Proof.Machine
end

section
/-! SUPPORT. What a sample boundary is about, in Audio, and which of its steps leave that alone: one lemma for each operation
that a boundary or an AUDIO_ROUTE runs. -/

namespace Sys2Proof.Machine

/-- What a sample boundary accounts for: the samples counted, the stamp of the last boundary, the loop-back selections in
effect, the bindings and IMMEDIATE writes that wait, the last sample of each output. -/
structure Tally where
  sample  : Nat
  boundAt : Time
  loopA   : Tbl Nat
  pendStr : List StreamBind
  imms    : List ImmWrite
  outs    : Tbl Int

/-- The tally of Audio. -/
def Audio.tally (a : Audio) : Tally := ⟨a.sample, a.boundAt, a.loopA, a.pendStr, a.imms, a.outs⟩

theorem imms_of_tally {a : Audio} {y : Tally} (h : a.tally = y) : a.imms = y.imms := congrArg Tally.imms h

theorem outs_of_tally {a b : Audio} (h : a.tally = b.tally) : a.outs = b.outs := congrArg Tally.outs h

/-- The tally but for the outputs. -/
def Tally.silent (y : Tally) : Tally := { y with outs := [] }

/-- The tally of Audio, and of each function what messages leave alone. -/
structure Rack where
  tally : Tally
  fns   : Nat → Func

/-- The rack of a state. -/
def rackOf (s : State) : Rack := ⟨s.audio.tally, fun i => (s.fnc i).quiet⟩

theorem tally_of_rack {a b : State} (h : rackOf a = rackOf b) : a.audio.tally = b.audio.tally := congrArg Rack.tally h

theorem quiet_of_rack {a b : State} (h : rackOf a = rackOf b) (i : Nat) : (a.fnc i).quiet = (b.fnc i).quiet :=
  congrFun (congrArg Rack.fns h) i

theorem mayParam_of_rack {a b : State} (h : rackOf a = rackOf b) (fn : Nat) (p : AudioParam) :
    a.mayParam fn p = b.mayParam fn p := by
  have hgrant : (a.fnc fn).grant = (b.fnc fn).grant := (congrArg Func.grant (quiet_of_rack h fn) :)
  simp only [State.mayParam, hgrant]

theorem accepts_of_rack {a b : State} (h : rackOf a = rackOf b) (fn k : Nat) : a.accepts fn k = b.accepts fn k := by
  have hok : (a.fnc fn).featOk = (b.fnc fn).featOk := (congrArg Func.featOk (quiet_of_rack h fn) :)
  have hdeciding : (a.fnc fn).deciding = (b.fnc fn).deciding := (congrArg Func.deciding (quiet_of_rack h fn) :)
  have haccept : (a.fnc fn).accept = (b.fnc fn).accept := (congrArg Func.accept (quiet_of_rack h fn) :)
  simp only [State.accepts, hok, hdeciding, haccept]

/-! ### Updates and folds -/

@[simp] theorem ite_rack (p : Prop) [Decidable p] (a b : State) :
    rackOf (if p then a else b) = if p then rackOf a else rackOf b := apply_ite rackOf p a b

theorem foldl_rack {α : Type} (g : State → α → State) (h : ∀ s x, rackOf (g s x) = rackOf s) (l : List α) (s : State) :
    rackOf (l.foldl g s) = rackOf s := foldl_keeps rackOf g h l s

@[simp] theorem modFn_rack (s : State) (i : Nat) (f : Func → Func) (h : ∀ x, (f x).quiet = x.quiet) :
    rackOf (s.modFn i f) = rackOf s := by
  have hi : (fun k => ((s.modFn i f).fnc k).quiet) = fun k => (s.fnc k).quiet := by
    funext k
    by_cases e : k = i
    · subst e; rw [modFn_fnc]; exact h _
    · rw [modFn_fnc_ne _ _ _ e]
  unfold rackOf
  rw [hi]; rfl

@[simp] theorem modAudio_audio (s : State) (f : Audio → Audio) : (s.modAudio f).audio = f s.audio := rfl

@[simp] theorem modAudio_rack (s : State) (f : Audio → Audio) (h : (f s.audio).tally = s.audio.tally) :
    rackOf (s.modAudio f) = rackOf s := by
  simp [rackOf, h]

@[simp] theorem modSafeLoad_rack (s : State) (fn : Nat) (f : SafeLoad → SafeLoad) :
    rackOf (s.modSafeLoad fn f) = rackOf s := rfl
@[simp] theorem modWl_rack (s : State) (f : Watchlamp → Watchlamp) : rackOf (s.modWl f) = rackOf s := rfl
@[simp] theorem modFlt_rack (s : State) (f : Faults → Faults) : rackOf (s.modFlt f) = rackOf s := rfl
@[simp] theorem modChan_rack (s : State) (c : Nat) (f : Chan → Chan) : rackOf (s.modChan c f) = rackOf s := rfl
@[simp] theorem modMem_rack (s : State) (f : Mem → Mem) : rackOf (s.modMem f) = rackOf s := rfl
@[simp] theorem modNet_rack (s : State) (f : Net → Net) : rackOf (s.modNet f) = rackOf s := rfl
@[simp] theorem modEport_rack (s : State) (p : Nat) (f : EPort → EPort) : rackOf (s.modEport p f) = rackOf s := rfl
@[simp] theorem emit_rack (s : State) (o : Output) : rackOf (s.emit o) = rackOf s := rfl
@[simp] theorem drawn_rack (s : State) : rackOf s.drawn = rackOf s := rfl
@[simp] theorem setFence_rack (s : State) (fn n v : Nat) : rackOf (s.setFence fn n v) = rackOf s := rfl
@[simp] theorem flights_rack (s : State) (l : List Flight) : rackOf { s with flights := l } = rackOf s := rfl
@[simp] theorem at_rack (s : State) (t : Time) : rackOf (s.at t) = rackOf s := rfl

@[simp] theorem launched_rack (s : State) (p : OpSpec) (c : Cmd) : rackOf (s.launched p c) = rackOf s := by
  rw [launched_only]; rfl

/-! ### Messages, completions, faults -/

theorem onlyMessages_rack {a b : State} (h : onlyMessages a b) : rackOf b = rackOf a := by
  obtain ⟨hb, hfns, -, -⟩ := h
  have haudio : b.audio = a.audio := by rw [hb]
  simp only [rackOf, haudio, hfns]

@[simp] theorem postEntry_rack (s : State) (fn q : Nat) (h : Held) : rackOf (postEntry s fn q h) = rackOf s :=
  onlyMessages_rack (postEntry_onlyMessages s fn q h)

@[simp] theorem sendEvent_rack (s : State) (isl fn ev a b c : Nat) : rackOf (sendEvent s isl fn ev a b c) = rackOf s :=
  onlyMessages_rack (sendEvent_onlyMessages s isl fn ev a b c)

@[simp] theorem sendManagers_rack (s : State) (isl ev a b c : Nat) : rackOf (sendManagers s isl ev a b c) = rackOf s :=
  onlyMessages_rack (sendManagers_onlyMessages s isl ev a b c)

@[simp] theorem faultEvents_rack (s : State) (fc cls opn : Nat) (stamp : Time) :
    rackOf (faultEvents s fc cls opn stamp) = rackOf s := onlyMessages_rack (faultEvents_onlyMessages s fc cls opn stamp)

@[simp] theorem signalFence_rack (s : State) (fn n v : Nat) : rackOf (signalFence s fn n v) = rackOf s := by
  simp [signalFence]

@[simp] theorem finishCmd_rack (s : State) (c : Cmd) (st : Nat) (pay : List Nat) (stamp : Time) :
    rackOf (finishCmd s c st pay stamp) = rackOf s := by
  unfold finishCmd
  dsimp only
  split
  · rfl
  · refine (modFn_rack _ _ _ ?_).trans (by simp)
    exact fun _ => rfl

@[simp] theorem completeAt_rack (s : State) (id st : Nat) (pay : List Nat) (stamp : Time) :
    rackOf (completeAt s id st pay stamp) = rackOf s := by
  unfold completeAt
  split <;> simp

@[simp] theorem complete_rack (s : State) (id st : Nat) (pay : List Nat) : rackOf (complete s id st pay) = rackOf s := by
  unfold complete
  split <;> simp

@[simp] theorem completeAll_rack (s : State) (ids : List Nat) (st : Nat) (pay : List Nat) :
    rackOf (completeAll s ids st pay) = rackOf s := foldl_rack _ (fun _ _ => complete_rack _ _ _ _) _ _

@[simp] theorem raiseSysAlarm_rack (s : State) : rackOf (raiseSysAlarm s) = rackOf s := by
  simp [raiseSysAlarm, updAlmout, bumpGen, noteSys]

@[simp] theorem report_rack (s : State) (isl src : Nat) (loss : Bool) : rackOf (report s isl src loss) = rackOf s := by
  simp [report, reportAt, countCorrected, fatalResponse, setTone]

/-! ### Device memory -/

@[simp] theorem takeLine_rack (s : State) (line : Nat) (dirty : Bool) : rackOf (takeLine s line dirty) = rackOf s := by
  simp [takeLine]

@[simp] theorem waitChan_rack (s : State) (id c : Nat) (put : Option (Nat × List Byte × List Nat)) :
    rackOf (waitChan s id c put) = rackOf s := rfl

@[simp] theorem freezeChan_rack (s : State) (c : Nat) (r : MemReq) (syn : Nat) : rackOf (freezeChan s c r syn) = rackOf s := by
  simp [freezeChan]

@[simp] theorem readWord_rack (s : State) (fn a : Nat) (merge : Bool) : rackOf (readWord s fn a merge) = rackOf s := by
  unfold readWord
  dsimp only
  (repeat' split) <;> simp

@[simp] theorem readLine_rack (s : State) (fn a : Nat) : rackOf (readLine s fn a) = rackOf s := by
  unfold readLine
  split <;> simp

@[simp] theorem readRange_rack (s : State) (fn a n : Nat) : rackOf (readRange s fn a n) = rackOf s := by
  simp [readRange, foldl_rack]

@[simp] theorem memPut_rack (s : State) (fn a : Nat) (v : Byte) : rackOf (memPut s fn a v) = rackOf s := by
  unfold memPut
  split <;> simp

@[simp] theorem memPuts_rack (s : State) (fn a : Nat) (l : List Byte) : rackOf (memPuts s fn a l) = rackOf s := by
  induction l generalizing s a with
  | nil => rfl
  | cons v r ih => simp [memPuts, ih]

@[simp] theorem memWrite_rack (s : State) (fn a : Nat) (l : List Byte) : rackOf (memWrite s fn a l) = rackOf s := by
  simp [memWrite]

@[simp] theorem withWrite_rack (s : State) (f : Flight) (a : Nat) (l : List Byte) (pay : List Nat) :
    rackOf (withWrite s f a l pay) = rackOf s := by
  unfold withWrite
  dsimp only
  (repeat' split) <;> simp

/-! ### The switch (R410-R413, R423, R431) -/

@[simp] theorem dropFrame_rack (s : State) (p : Nat) : rackOf (dropFrame s p) = rackOf s := by simp [dropFrame]

theorem startOne_rack {s s1 : State} {p : Nat} {t : Time} (h : startOne s p t = some s1) : rackOf s1 = rackOf s := by
  unfold startOne at h
  dsimp only at h
  split at h
  · cases h
  · split at h
    · cases h
    · cases h
      simp

@[simp] theorem serveN_rack (p n : Nat) (s : State) : rackOf (serveN p n s) = rackOf s := by
  induction n generalizing s with
  | zero => rfl
  | succ n ih =>
    unfold serveN
    dsimp only
    split
    · next s1 h =>
      split at h
      · rw [ih, startOne_rack h]
      · cases h
    · split
      · next s1 h => rw [ih, startOne_rack h]
      · rfl

@[simp] theorem sendOut_rack (s : State) (mask : Nat) (f : Frame) : rackOf (sendOut s mask f) = rackOf s := by
  simp [sendOut, serveEgress, foldl_rack]

@[simp] theorem toHost_rack (s : State) (fn q filter : Nat) (f : Frame) : rackOf (toHost s fn q filter f) = rackOf s := by
  unfold toHost
  split <;> simp

@[simp] theorem toListener_rack (s : State) (payload : List Byte) : rackOf (toListener s payload) = rackOf s := by
  unfold toListener
  split <;> rfl

@[simp] theorem passTelegram_rack (s : State) (p : MapEntry → Bool) (payload : List Byte) (stamp : Time) :
    rackOf (passTelegram s p payload stamp) = rackOf s := by
  unfold passTelegram
  split <;> simp

@[simp] theorem forward_rack (s : State) (f : Frame) : rackOf (forward s f) = rackOf s := by
  unfold forward
  split <;> simp [filtered]

/-! ### The steps of a sample boundary -/

@[simp] theorem applyActive_tally (a : Audio) (p : AudioParam) : (applyActive a p).tally = a.tally := by
  cases p <;> rfl

/-- What every step of a fold keeps of the tally, the fold keeps. -/
theorem foldl_tally {α : Type} {g : Audio → α → Audio} (h : ∀ a x, (g a x).tally = a.tally) :
    ∀ (l : List α) (a : Audio), (l.foldl g a).tally = a.tally
  | [], _ => rfl
  | x :: l, a => (foldl_tally h l (g a x)).trans (h a x)

@[simp] theorem swapOutput_tally (a : Audio) (o : Nat) : (swapOutput a o).tally = a.tally := by
  simp [swapOutput, foldl_tally]

@[simp] theorem runSwaps_rack (s : State) (b : Time) : rackOf (runSwaps s b) = rackOf s := by
  refine foldl_rack _ (fun s f => ?_) _ _
  dsimp only
  rw [completeAt_rack, modAudio_rack]
  rw [foldl_tally swapOutput_tally]
  rfl

@[simp] theorem runSafeLoad_rack (s : State) (fn : Nat) : rackOf (runSafeLoad s fn) = rackOf s := by
  have hentry : ∀ (s : State) (p : AudioParam),
      rackOf (s.modAudio fun a => applyShadow (applyActive a p) p) = rackOf s :=
    fun s p => modAudio_rack _ _ (applyActive_tally s.audio p)
  unfold runSafeLoad
  dsimp only
  split
  · rfl
  · rw [modSafeLoad_rack]
    refine foldl_rack _ (fun s e => ?_) _ _
    split <;> simp [hentry]

@[simp] theorem playReads_rack (s : State) : rackOf (playReads s) = rackOf s := by
  simp [playReads, foldl_rack]

@[simp] theorem setTargets_rack (s : State) (o : Nat) : rackOf (setTargets s o) = rackOf s := rfl

@[simp] theorem drivePins_rack (s : State) : rackOf (drivePins s) = rackOf s := rfl

@[simp] theorem moveStream_rack (s : State) (e : Nat × AStream) : rackOf (moveStream s e) = rackOf s := by
  have hset : ∀ (s : State) (l : Audio → Tbl AStream), rackOf (s.modAudio fun a => { a with streams := l a }) = rackOf s :=
    fun _ _ => rfl
  unfold moveStream
  dsimp only
  (repeat' split) <;> simp [hset, talk]

end Sys2Proof.Machine
end

section
/-! SUPPORT. Audio (R441-R466): what a sample boundary leaves, the limiter, the banks of an output, AUDIO_ROUTE and the TDM ports,
and from them the statement on Audio. -/

namespace Sys2Proof.Machine

/-! ### The sample boundary (R441, R458, R460, R466, R473) -/

/-- The state at a boundary once the loop-back selections, bindings and swaps set before it have taken effect. -/
def swapsTaken (s : State) : State := runSwaps (runBindings (takeLoops s)) (s.stamp 15)

/-- The same once IMMEDIATE writes and safe-loads have too, in the order of R460, and host playback has been read. -/
def boundaryTaken (s : State) : State := playReads ((List.range 64).foldl runSafeLoad (runImms (swapsTaken s)))

theorem takeLoops_tally (s : State) : (takeLoops s).audio.tally =
    { s.audio.tally with loopA := if s.audio.loopAt < s.dt then s.audio.loopSel else s.audio.loopWas } := rfl

theorem runBindings_tally (s : State) : (runBindings s).audio.tally =
    { s.audio.tally with pendStr := s.audio.pendStr.filter fun e => e.since ≥ s.dt } :=
  tally_of_rack (completeAll_rack _ _ _ _)

theorem runImms_tally (s : State) : (runImms s).audio.tally =
    { s.audio.tally with imms := s.audio.imms.filter fun e => e.since ≥ s.dt } := by
  refine (tally_of_rack (completeAll_rack _ _ _ _)).trans ?_
  have hwrites : ((s.audio.imms.filter (·.since < s.dt)).foldl
      (fun a (e : ImmWrite) => e.params.foldl applyActive a) s.audio).tally = s.audio.tally :=
    foldl_tally (fun a (e : ImmWrite) => foldl_tally applyActive_tally e.params a) _ _
  exact congrArg (fun y : Tally => { y with imms := s.audio.imms.filter fun e => e.since ≥ s.dt }) hwrites

theorem swapsTaken_tally (s : State) : (swapsTaken s).audio.tally =
    { s.audio.tally with
      loopA := if s.audio.loopAt < s.dt then s.audio.loopSel else s.audio.loopWas
      pendStr := s.audio.pendStr.filter fun e => e.since ≥ s.dt } := by
  rw [swapsTaken, tally_of_rack (runSwaps_rack _ _), runBindings_tally, takeLoops_tally]
  rfl

theorem swapsTaken_dt (s : State) : (swapsTaken s).dt = s.dt := by simp [swapsTaken, dt_of_keep]

theorem boundaryTaken_tally (s : State) : (boundaryTaken s).audio.tally =
    { s.audio.tally with
      loopA := if s.audio.loopAt < s.dt then s.audio.loopSel else s.audio.loopWas
      pendStr := s.audio.pendStr.filter fun e => e.since ≥ s.dt
      imms := s.audio.imms.filter fun e => e.since ≥ s.dt } := by
  have hrest : rackOf (boundaryTaken s) = rackOf (runImms (swapsTaken s)) :=
    (playReads_rack _).trans (foldl_rack _ runSafeLoad_rack _ _)
  have himms : (swapsTaken s).audio.imms = s.audio.imms := imms_of_tally (swapsTaken_tally s)
  rw [tally_of_rack hrest, runImms_tally, himms, swapsTaken_dt, swapsTaken_tally]

/-- The last sample of an output lies within full scale (R441). -/
def State.inScale (s : State) (o : Nat) : Prop :=
  -2147483648 ≤ look s.audio.outs o 0 ∧ look s.audio.outs o 0 ≤ 2147483647

theorem clampI_eq_max_min {v lo hi : Int} (h : lo ≤ hi) : clampI v lo hi = max lo (min v hi) := by
  unfold clampI
  split
  · omega
  · split <;> omega

theorem fullScale_bounds (x : Int) : -2147483648 ≤ fullScale x ∧ fullScale x ≤ 2147483647 := by
  have hrange : (-2147483648 : Int) ≤ 2147483647 := by decide
  rw [fullScale, clampI_eq_max_min hrange]
  omega

/-- Forming an output writes its sample, within full scale. -/
theorem formOutput_outs (x : Nat → Int) (s : State) (o : Nat) :
    ∃ v, (formOutput x s o).audio.outs = put s.audio.outs o (fullScale v) := ⟨_, rfl⟩

theorem formOutput_silent (x : Nat → Int) (s : State) (o : Nat) :
    (formOutput x s o).audio.tally.silent = s.audio.tally.silent := rfl

theorem formOutput_inScale (x : Nat → Int) (s : State) {o k : Nat} (h : k = o ∨ s.inScale k) :
    (formOutput x s o).inScale k := by
  obtain ⟨v, hv⟩ := formOutput_outs x s o
  unfold State.inScale
  rw [hv, look_put_if]
  split
  · exact fullScale_bounds v
  · next hne => exact h.resolve_left hne

/-- Outputs formed one after another are each within full scale. -/
theorem formOutputs_inScale (x : Nat → Int) {k : Nat} (l : List Nat) (s : State) (h : k ∈ l ∨ s.inScale k) :
    (l.foldl (formOutput x) s).inScale k := by
  induction l generalizing s with
  | nil => exact h.resolve_left List.not_mem_nil
  | cons o l ih =>
    rw [List.mem_cons] at h
    refine ih _ ?_
    rcases h with (h | h) | h
    · exact .inr (formOutput_inScale x s (.inl h))
    · exact .inl h
    · exact .inr (formOutput_inScale x s (.inr h))

/-- The outputs of a boundary, formed from the inputs `x` (Table 11.2). -/
def outputsFormed (x : Nat → Int) (s : State) : State :=
  (List.range 96).foldl (formOutput x) ((List.range 96).foldl setTargets s)

theorem outputsFormed_inScale (x : Nat → Int) (s : State) {o : Nat} (h : o < 96) : (outputsFormed x s).inScale o := by
  unfold outputsFormed
  exact formOutputs_inScale x _ _ (.inl (List.mem_range.mpr h))

theorem outputsFormed_silent (x : Nat → Int) (s : State) : (outputsFormed x s).audio.tally.silent = s.audio.tally.silent := by
  unfold outputsFormed
  exact (foldl_keeps (fun s => s.audio.tally.silent) _ (formOutput_silent x) _ _).trans
    (congrArg Tally.silent (tally_of_rack (foldl_rack _ setTargets_rack _ _)))

/-- Every stream moves a sample once the pins are driven (R467, R468). -/
def streamsMoved (s : State) : State := (drivePins s).audio.streams.foldl moveStream (drivePins s)

theorem streamsMoved_tally (s : State) : (streamsMoved s).audio.tally = s.audio.tally :=
  (tally_of_rack (foldl_rack _ moveStream_rack _ _)).trans (tally_of_rack (drivePins_rack s))

/-- The state once the samples that listeners have due are taken, and of free values those of the boundary. -/
def listened (s : State) (b : Time) : State := { listen s b with draws := s.draws + 36 }

theorem listened_tally (s : State) (b : Time) : (listened s b).audio.tally = { s.audio.tally with boundAt := b } := rfl

/-- The state at a boundary stamped `b` but for the count of samples and what moves on with it. -/
def boundaryRun (x : Nat → Int) (s : State) (b : Time) : State :=
  streamsMoved (outputsFormed x (listened (boundaryTaken s) b))

theorem boundaryRun_silent (x : Nat → Int) (s : State) (b : Time) : (boundaryRun x s b).audio.tally.silent =
    { s.audio.tally.silent with
      boundAt := b
      loopA := if s.audio.loopAt < s.dt then s.audio.loopSel else s.audio.loopWas
      pendStr := s.audio.pendStr.filter fun e => e.since ≥ s.dt
      imms := s.audio.imms.filter fun e => e.since ≥ s.dt } := by
  rw [boundaryRun, streamsMoved_tally, outputsFormed_silent, listened_tally, boundaryTaken_tally]
  rfl

theorem boundaryRun_inScale (x : Nat → Int) (s : State) (b : Time) {o : Nat} (h : o < 96) :
    (boundaryRun x s b).inScale o := by
  unfold State.inScale
  rw [boundaryRun, outs_of_tally (streamsMoved_tally _)]
  exact outputsFormed_inScale x _ h

/-- A boundary takes what was set before it, forms the outputs and counts a sample. -/
theorem sampleBoundary_exec {s : State} (t : Time) (tdmIn convIn : Tbl Int) (hup : s.up 15 = true) :
    ∃ x count, (∀ a : Audio, (count a).tally = { a.tally with sample := a.sample + 1 }) ∧
      exec (.sampleBoundary t tdmIn convIn) s = .next ((boundaryRun x (s.at t) ((s.at t).stamp 15)).modAudio count) := by
  have hrun : exec (.sampleBoundary t tdmIn convIn) s = execSampleBoundary t tdmIn convIn s := rfl
  rw [hrun]
  unfold execSampleBoundary
  simp only [at_up, hup, Bool.not_true, Bool.false_eq_true, if_false]
  unfold boundaryRun streamsMoved outputsFormed listened boundaryTaken swapsTaken
  refine ⟨_, _, ?_, rfl⟩
  exact fun _ => rfl

theorem sampleBoundary_counts {s : State} (t : Time) (tdmIn convIn : Tbl Int) (hup : s.up 15 = true) :
    ∃ s', exec (.sampleBoundary t tdmIn convIn) s = .next s' ∧ s'.audio.sample = s.audio.sample + 1 ∧
      s'.audio.boundAt = (s.at t).stamp 15 ∧
      s'.audio.loopA = (if s.audio.loopAt < max s.dt t then s.audio.loopSel else s.audio.loopWas) ∧
      s'.audio.pendStr = s.audio.pendStr.filter (fun e => e.since ≥ max s.dt t) ∧
      s'.audio.imms = s.audio.imms.filter (fun e => e.since ≥ max s.dt t) ∧ ∀ o, o < 96 → s'.inScale o := by
  obtain ⟨x, count, hcount, hrun⟩ := sampleBoundary_exec t tdmIn convIn hup
  have hsilent := boundaryRun_silent x (s.at t) ((s.at t).stamp 15)
  have hscale : ∀ o, o < 96 → (boundaryRun x (s.at t) ((s.at t).stamp 15)).inScale o :=
    fun o => boundaryRun_inScale x (s.at t) _
  generalize boundaryRun x (s.at t) ((s.at t).stamp 15) = s1 at hrun hsilent hscale
  have htally := hcount s1.audio
  simp only [Audio.tally, Tally.silent, Tally.mk.injEq, and_true] at hsilent htally
  obtain ⟨hsample, hbound, hloop, hpend, himms⟩ := hsilent
  obtain ⟨csample, cbound, cloop, cpend, cimms, couts⟩ := htally
  refine ⟨_, hrun, csample.trans (congrArg (· + 1) hsample), cbound.trans hbound, cloop.trans hloop, cpend.trans hpend,
    cimms.trans himms, fun o ho => ?_⟩
  unfold State.inScale
  rw [modAudio_audio, couts]
  exact hscale o ho

/-! ### The limiter (R455) -/

/-- A step of the limiter stays between its gain and its target. -/
theorem limiterNext_between (l : Limiter) (o n : Nat) (x : Int) :
    min l.gain (limiterTarget x) ≤ (l.next o n x).gain ∧ (l.next o n x).gain ≤ max l.gain (limiterTarget x) := by
  have hpart : Config.limiterStep o n % ((limiterTarget x - l.gain).natAbs + 1) < (limiterTarget x - l.gain).natAbs + 1 :=
    Nat.mod_lt _ (Nat.succ_pos _)
  unfold Limiter.next
  generalize limiterTarget x = goal at *
  dsimp only
  split
  · dsimp only
    split <;> omega
  · split
    · dsimp only
      split <;> omega
    · dsimp only
      omega

theorem limiterNext_attacks {l : Limiter} {x : Int} (o n : Nat) (h : limiterTarget x < l.gain) (ha : 47 ≤ l.down) :
    (l.next o n x).gain = limiterTarget x := by
  simp [Limiter.next, h, ha]

theorem limiterNext_releases {l : Limiter} {x : Int} (o n : Nat) (h : l.gain < limiterTarget x) (hr : 2399 ≤ l.up) :
    (l.next o n x).gain = limiterTarget x := by
  simp [Limiter.next, h, Int.not_lt.mpr (Int.le_of_lt h), hr]

/-! ### The banks of an output (R448, R459) -/

@[simp] theorem applyActive_active (a : Audio) (p : AudioParam) : (applyActive a p).active = a.active.write p := by
  cases p <;> rfl

@[simp] theorem applyActive_shadow (a : Audio) (p : AudioParam) : (applyActive a p).shadow = a.shadow := by
  cases p <;> rfl

theorem node_writeGain (b : AudioBank) (o i o' i' : Nat) (g : Int) :
    (b.write (.gain o i g)).node o' i' = if gkey o' i' = gkey o i then g else b.node o' i' := look_put_if _ _ _ _ _

theorem coef_writeCoef (b : AudioBank) (o sec k o' sec' k' : Nat) (v : Int) :
    (b.write (.coef o sec k v)).coef o' sec' k' = if ekey o' sec' k' = ekey o sec k then v else b.coef o' sec' k' :=
  look_put_if _ _ _ _ _

/-- The parameters of an output in a bank: its node gains, its equaliser's coefficients, its mode. -/
def AudioBank.params (b : AudioBank) (o : Nat) : List AudioParam :=
  ((List.range 128).map fun i => .gain o i (b.node o i)) ++
    ((List.range 30).map fun j => .coef o (j / 5) (j % 5) (b.coef o (j / 5) (j % 5))) ++ [.mode o (b.auto o)]

/-- Parameters taken from the shadow bank, one after another, are written into the active bank, and the shadow bank stays. -/
theorem foldl_applyActive {α : Type} (p : AudioBank → α → AudioParam) :
    ∀ (l : List α) (a : Audio),
      (l.foldl (fun a i => applyActive a (p a.shadow i)) a).active = (l.map (p a.shadow)).foldl AudioBank.write a.active ∧
      (l.foldl (fun a i => applyActive a (p a.shadow i)) a).shadow = a.shadow
  | [], _ => ⟨rfl, rfl⟩
  | i :: l, a => by simpa using foldl_applyActive p l (applyActive a (p a.shadow i))

/-- A swap writes the shadow bank's parameters of the output into its active bank (R459). -/
theorem swapOutput_banks (a : Audio) (o : Nat) :
    (swapOutput a o).active = (a.shadow.params o).foldl AudioBank.write a.active ∧ (swapOutput a o).shadow = a.shadow := by
  obtain ⟨hgain, hkeep⟩ := foldl_applyActive (fun b i => .gain o i (b.node o i)) (List.range 128) a
  unfold swapOutput AudioBank.params
  generalize (List.range 128).foldl (fun a i => applyActive a (.gain o i (a.shadow.node o i))) a = a1 at *
  obtain ⟨hcoef, hkeep'⟩ := foldl_applyActive (fun b j => .coef o (j / 5) (j % 5) (b.coef o (j / 5) (j % 5))) (List.range 30) a1
  dsimp only
  generalize (List.range 30).foldl
    (fun a j => applyActive a (.coef o (j / 5) (j % 5) (a.shadow.coef o (j / 5) (j % 5)))) a1 = a2 at *
  rw [List.foldl_append, List.foldl_append, applyActive_active, applyActive_shadow, hcoef, hgain, hkeep', hkeep]
  exact ⟨rfl, rfl⟩

/-- A value of a bank that each of a list of writes sets to `x` or leaves alone, and that one of them sets, or that was `x`
before, is `x` after them. -/
theorem foldl_write_value {β : Type} {value : AudioBank → β} {x : β} :
    ∀ {l : List AudioParam} (b : AudioBank),
      (∀ p ∈ l, ∀ b : AudioBank, value (b.write p) = x ∨ value (b.write p) = value b) →
      ((∃ p ∈ l, ∀ b : AudioBank, value (b.write p) = x) ∨ value b = x) → value (l.foldl AudioBank.write b) = x
  | [], _, _, h => by simpa using h
  | p :: l, b, hstep, h => by
    refine foldl_write_value (b.write p) (fun q hq => hstep q (List.mem_cons_of_mem p hq)) ?_
    rcases h with ⟨q, hq, hset⟩ | hb
    · rcases List.mem_cons.mp hq with rfl | hq
      · exact .inr (hset b)
      · exact .inl ⟨q, hq, hset⟩
    · exact .inr ((hstep p List.mem_cons_self b).elim id fun hkeep => hkeep.trans hb)

theorem mem_params {b : AudioBank} {o : Nat} {p : AudioParam} : p ∈ b.params o ↔
    (∃ i, i < 128 ∧ p = .gain o i (b.node o i)) ∨ (∃ j, j < 30 ∧ p = .coef o (j / 5) (j % 5) (b.coef o (j / 5) (j % 5))) ∨
      p = .mode o (b.auto o) := by
  simp [AudioBank.params, eq_comm]

theorem swapOutput_node (a : Audio) (o : Nat) {i : Nat} (h : i < 128) :
    (swapOutput a o).active.node o i = a.shadow.node o i := by
  rw [(swapOutput_banks a o).1]
  refine foldl_write_value (value := fun b => b.node o i) _ (fun p hp b => ?_)
    (.inl ⟨_, mem_params.mpr (.inl ⟨i, h, rfl⟩), fun b => by rw [node_writeGain, if_pos rfl]⟩)
  rcases mem_params.mp hp with ⟨j, -, rfl⟩ | ⟨j, -, rfl⟩ | rfl
  · by_cases hj : i = j
    · subst hj; exact .inl (by rw [node_writeGain, if_pos rfl])
    · exact .inr (by rw [node_writeGain, if_neg (by unfold gkey; omega)])
  · exact .inr rfl
  · exact .inr rfl

theorem swapOutput_coef (a : Audio) (o : Nat) {sec k : Nat} (hs : sec < 6) (hk : k < 5) :
    (swapOutput a o).active.coef o sec k = a.shadow.coef o sec k := by
  have hdiv : (5 * sec + k) / 5 = sec := by omega
  have hmod : (5 * sec + k) % 5 = k := by omega
  rw [(swapOutput_banks a o).1]
  refine foldl_write_value (value := fun b => b.coef o sec k) _ (fun p hp b => ?_)
    (.inl ⟨_, mem_params.mpr (.inr (.inl ⟨5 * sec + k, by omega, rfl⟩)), fun b => by
      rw [hdiv, hmod, coef_writeCoef, if_pos rfl]⟩)
  rcases mem_params.mp hp with ⟨j, -, rfl⟩ | ⟨j, -, rfl⟩ | rfl
  · exact .inr rfl
  · by_cases hj : 5 * sec + k = j
    · subst hj; exact .inl (by rw [hdiv, hmod, coef_writeCoef, if_pos rfl])
    · exact .inr (by rw [coef_writeCoef, if_neg (by unfold ekey; omega)])
  · exact .inr rfl

theorem swapOutput_auto (a : Audio) (o : Nat) : (swapOutput a o).active.auto o = a.shadow.auto o := by
  rw [(swapOutput_banks a o).1]
  refine foldl_write_value (value := fun b => b.auto o) _ (fun p hp b => ?_)
    (.inl ⟨_, mem_params.mpr (.inr (.inr rfl)), fun b => look_put _ _ _ _⟩)
  rcases mem_params.mp hp with ⟨j, -, rfl⟩ | ⟨j, -, rfl⟩ | rfl
  · exact .inr rfl
  · exact .inr rfl
  · exact .inl (look_put _ _ _ _)

theorem applyActive_gain_node (a : Audio) (o i : Nat) (g : Int) : (applyActive a (.gain o i g)).active.node o i = g := by
  rw [applyActive_active, node_writeGain, if_pos rfl]

/-- A gain that changes starts a ramp of 64 samples from the value in effect (R448). -/
theorem applyActive_gain_ramp (a : Audio) {o i : Nat} {g : Int} (d : Ramp) (h : a.active.node o i ≠ g) :
    look (applyActive a (.gain o i g)).ramps (gkey o i) d =
      { from_ := before a.ramps (gkey o i) (a.active.node o i), to_ := g, k := 0, len := 64 } := by
  simp [applyActive, rampTo, h]

theorem applyActive_gain_other (a : Audio) {o i k : Nat} (g d : Int) (h : k ≠ gkey o i) :
    look (applyActive a (.gain o i g)).active.gain k d = look a.active.gain k d := by
  rw [applyActive_active]
  exact look_put_ne _ _ _ h

/-! ### AUDIO_ROUTE (R458, R461) -/

theorem foldl_applyShadow : ∀ (ps : List AudioParam) (a : Audio),
    ps.foldl applyShadow a = { a with shadow := ps.foldl AudioBank.write a.shadow }
  | [], _ => rfl
  | p :: ps, a => foldl_applyShadow ps (applyShadow a p)

/-- A command that reads one range and writes none is served where that range is (R350, R366). -/
theorem served_read {s : State} {fn a n : Nat} (hl : s.touchesLost fn a n = false) (hs : s.stallAt fn a n = none)
    (hr : (readRange s fn a n).stallAt fn a n = none) : served s fn [(a, n)] [] := by
  simpa [served, afterReads] using ⟨hl, hs, hr⟩

/-- The entries of an AUDIO_ROUTE as a range of memory, and the state in which they have been read. -/
def routeRead (c : Cmd) : List (Nat × Nat) := [(c.d 11, 32 * c.f 13 0 14)]
def entriesRead (s : State) (c : Cmd) : State := readRange s c.fn (c.d 11) (32 * c.f 13 0 14)

/-- The parameters that an AUDIO_ROUTE sets, and the state in which the shadow bank holds them. -/
def routeParams (s : State) (c : Cmd) : List AudioParam := (List.range (c.f 13 0 14)).map (arParam s c)
def shadowWritten (s : State) (c : Cmd) : State :=
  s.modAudio fun a => { a with shadow := (routeParams s c).foldl AudioBank.write a.shadow }

section
variable {s s1 : State} {f : Flight} (hl : served s f.cmd.fn (routeRead f.cmd) []) (h1 : entriesRead s f.cmd = s1)
include hl h1

theorem runRoute_malformed (hb : ∃ i, i < f.cmd.f 13 0 14 ∧ arBad s1 f.cmd i = true) :
    runRoute s f = complete s1 f.id stMalformed noPay := by
  subst h1
  obtain ⟨i, hi, hbad⟩ := hb
  unfold runRoute
  refine (withMem_served hl).trans (if_pos ?_)
  exact List.any_eq_true.mpr ⟨i, List.mem_range.mpr hi, hbad⟩

variable (hok : ∀ i, i < f.cmd.f 13 0 14 → arBad s1 f.cmd i = false)
include hok

/-- An AUDIO_ROUTE without a bad entry is judged by its parameters (R461). -/
theorem runRoute_judges : runRoute s f =
    if (routeParams s1 f.cmd).any fun p => !s1.mayParam f.cmd.fn p then complete s1 f.id stDenied noPay
    else if f.cmd.b 10 0 || !s1.accepts f.cmd.fn 12 then
      (shadowWritten s1 f.cmd).modAudio fun a => { a with imms := a.imms ++ [⟨f.id, s1.dt, routeParams s1 f.cmd⟩] }
    else complete (shadowWritten s1 f.cmd) f.id stOk noPay := by
  subst h1
  have hgood : (List.range (f.cmd.f 13 0 14)).any (arBad (entriesRead s f.cmd) f.cmd) = false :=
    List.any_eq_false.mpr fun i hi => by simp [hok i (List.mem_range.mp hi)]
  unfold runRoute
  refine (withMem_served hl).trans ((if_neg (Bool.eq_false_iff.mp hgood)).trans ?_)
  simp only [foldl_applyShadow]
  rfl

theorem runRoute_denied (hp : ∃ p ∈ routeParams s1 f.cmd, s1.mayParam f.cmd.fn p = false) :
    runRoute s f = complete s1 f.id stDenied noPay := by
  rw [runRoute_judges hl h1 hok, if_pos]
  simpa using hp

variable (hp : ∀ p ∈ routeParams s1 f.cmd, s1.mayParam f.cmd.fn p = true)
include hp

theorem runRoute_granted : runRoute s f =
    if f.cmd.b 10 0 || !s1.accepts f.cmd.fn 12 then
      (shadowWritten s1 f.cmd).modAudio fun a => { a with imms := a.imms ++ [⟨f.id, s1.dt, routeParams s1 f.cmd⟩] }
    else complete (shadowWritten s1 f.cmd) f.id stOk noPay := by
  rw [runRoute_judges hl h1 hok, if_neg]
  simpa using hp

theorem runRoute_completes (hd : f.cmd.b 10 0 = false) (ha : s1.accepts f.cmd.fn 12 = true) :
    runRoute s f = complete (shadowWritten s1 f.cmd) f.id stOk noPay := by
  rw [runRoute_granted hl h1 hok hp, if_neg (by simp [hd, ha])]

/-- An IMMEDIATE write, or one of a function without shadow banks, waits for the boundary (R458). -/
theorem runRoute_waits (hd : f.cmd.b 10 0 = true ∨ s1.accepts f.cmd.fn 12 = false) : runRoute s f =
    (shadowWritten s1 f.cmd).modAudio fun a => { a with imms := a.imms ++ [⟨f.id, s1.dt, routeParams s1 f.cmd⟩] } := by
  rw [runRoute_granted hl h1 hok hp, if_pos (by simpa using hd)]

end

theorem audioRoute_exec {s : State} (t : Time) {c : Cmd} (h : (s.at t).runs specRoute c = true) :
    exec (.audioRoute t c) s = .next (runRoute ((s.at t).launched specRoute c) (flightOf (s.at t) specRoute c)) :=
  congrArg Host.Outcome.next (startCmd_runs _ _ _ h)

/-! ### AUDIO_BANK_SWAP and AUDIO_STREAM (R459, R462, R466) -/

theorem audioBankSwap_exec {s : State} (t : Time) {c : Cmd} (h : (s.at t).runs specSwap c = true) :
    exec (.audioBankSwap t c) s =
      .next (((s.at t).launched specSwap c).modAudio fun a => { a with swaps := a.swaps ++ [s.nextId] }) :=
  congrArg Host.Outcome.next (startCmd_runs _ _ _ h)

theorem audioStream_exec {s : State} (t : Time) {c : Cmd} (h : (s.at t).runs specStream c = true) :
    exec (.audioStream t c) s = .next (((s.at t).launched specStream c).modAudio fun a => { a with pendStr := a.pendStr ++
      [⟨s.nextId, max s.dt t, 32 * c.f 10 0 2 + c.f 10 2 5, if c.b 10 7 then some (asOf c) else none⟩] }) := by
  have hdt : ((s.at t).launched specStream c).dt = max s.dt t := launched_dt _ _ _
  rw [← hdt]
  exact congrArg Host.Outcome.next (startCmd_runs _ _ _ h)

/-! ### Safe-load and TDM ports (R443, R444, R463) -/

theorem modTdm_congr {s : State} {p : Nat} {f g : Tdm → Tdm} (h : f (s.tdm p) = g (s.tdm p)) :
    s.modTdm p f = s.modTdm p g := by
  unfold State.modTdm; rw [h]

theorem safeLoadTrigger_exec {s : State} (t : Time) {fn : Fin 64} (hr : s.reach fn = true) (hu : s.up 15 = true)
    (ha : s.accepts fn 13 = true) : exec (.safeLoadTrigger t fn) s = .next ((s.at t).modSafeLoad fn fun x => { x with
      trig := true, trigAt := if x.trig then x.trigAt else max s.dt t }) := by
  have ha' : (s.at t).accepts fn 13 = true := ha
  change execSafeLoadTrigger t fn s = _
  simp [execSafeLoadTrigger, hr, hu, ha', at_dt]

/-- What a frame sync makes of its port (R443, R444). -/
def Tdm.synced (x : Tdm) (now : Time) (ppm : Int) : Tdm :=
  let y := { x with cfgA := x.cfg, syncAt := now }
  if x.cfg.getLsbD 1 then { y with off := 0, lost := false, good := 0 }
  else if ppm.natAbs > 1000 then { y with off := clampI ppm (-32768) 32767, lost := true, good := 0 }
  else { y with off := ppm, good := x.good + 1, lost := x.lost && x.good + 1 < 48 }

theorem tdmFrameSync_exec {s : State} (t : Time) (p : Fin 4) (ppm : Int) (hu : s.up 15 = true) :
    exec (.tdmFrameSync t p ppm) s = .next ((s.at t).modTdm p fun x => x.synced (max s.dt t) ppm) := by
  change execTdmFrameSync t p ppm s = _
  simp only [execTdmFrameSync, at_up, hu, Bool.not_true, Bool.false_eq_true, if_false]
  rfl

theorem tdmSynced_master {x : Tdm} (now : Time) (ppm : Int) (h : x.cfg.getLsbD 1 = true) :
    x.synced now ppm = { x with cfgA := x.cfg, syncAt := now, off := 0, lost := false, good := 0 } := by
  simp [Tdm.synced, h]

theorem tdmSynced_offRate {x : Tdm} (now : Time) {ppm : Int} (h : x.cfg.getLsbD 1 = false) (hp : ppm < -1000 ∨ 1000 < ppm) :
    x.synced now ppm =
      { x with cfgA := x.cfg, syncAt := now, off := max (-32768) (min ppm 32767), lost := true, good := 0 } := by
  have hfar : ppm.natAbs > 1000 := by omega
  have hrange : (-32768 : Int) ≤ 32767 := by decide
  simp only [Tdm.synced, h, Bool.false_eq_true, if_false, if_pos hfar, clampI_eq_max_min hrange]

theorem tdmSynced_good {x : Tdm} (now : Time) {ppm : Int} (h : x.cfg.getLsbD 1 = false) (hlo : -1000 ≤ ppm)
    (hhi : ppm ≤ 1000) : x.synced now ppm = { x with
      cfgA := x.cfg, syncAt := now, off := ppm, good := x.good + 1, lost := if 48 ≤ x.good + 1 then false else x.lost } := by
  have hnear : ¬ ppm.natAbs > 1000 := by omega
  have hlost : (x.lost && decide (x.good + 1 < 48)) = if 48 ≤ x.good + 1 then false else x.lost := by
    by_cases hg : 48 ≤ x.good + 1
    · simp [hg, Nat.not_lt.mpr hg]
    · simp [hg, Nat.lt_of_not_le hg]
  simp only [Tdm.synced, h, Bool.false_eq_true, if_false, if_neg hnear, hlost]

theorem tdmSyncLost_exec {s : State} (t : Time) {p : Fin 4} (hu : s.up 15 = true) (hrun : (s.tdm p).cfgA.getLsbD 0 = true)
    (hslave : (s.tdm p).cfgA.getLsbD 1 = false) : exec (.tdmSyncLost t p) s =
      if 3 * (max s.dt t - (s.tdm p).syncAt) < 250000 then .next (s.at t)
      else .next ((s.at t).modTdm p fun x => { x with lost := true, good := 0 }) := by
  change execTdmSyncLost t p s = _
  simp only [execTdmSyncLost, at_up, at_tdm, at_dt, hu, hrun, hslave, Bool.not_true, Bool.or_self, Bool.false_or]
  exact ite_congr decide_eq_true_eq (fun _ => rfl) fun _ => rfl

/-- Settles O55, clause by clause: the boundary by what its steps leave of the tally, the banks by the writes a swap makes,
AUDIO_ROUTE by its judgement once its entries are read, and the ports by what a frame sync makes of one. -/
theorem audioCommandsRun : Obligations.AudioCommandsRun := by
  unfold Obligations.AudioCommandsRun
  refine ⟨fun s t tdmIn convIn => sampleBoundary_counts t tdmIn convIn, fun l o n x => ?limiter, fun s t c hrun => ?route,
    fun s t c => ⟨audioBankSwap_exec t, audioStream_exec t⟩,
    fun a o => ⟨(swapOutput_banks a o).2, fun i => swapOutput_node a o, fun sec k => swapOutput_coef a o, swapOutput_auto a o⟩,
    fun a o i g _ => ⟨applyActive_gain_node a o i g, applyActive_gain_ramp a _, fun k _ => applyActive_gain_other a g 0⟩,
    fun s t fn => safeLoadTrigger_exec t, fun s t p ppm hup => ?sync, fun s t p hup hen hslave => ?lost⟩
  case limiter =>
    obtain ⟨hlo, hhi⟩ := limiterNext_between l o n x
    exact ⟨hlo, hhi, limiterNext_attacks o n, limiterNext_releases o n⟩
  case route =>
    intro s0 n s1 hlost hstall hstall' ps s2
    have hserved : served s0 (flightOf (s.at t) specRoute c).cmd.fn (routeRead (flightOf (s.at t) specRoute c).cmd) [] :=
      served_read hlost hstall hstall'
    have hrack : rackOf s1 = rackOf s := by simp [s1, s0]
    have hmay : ∀ p, s1.mayParam c.fn p = s.mayParam c.fn p := mayParam_of_rack hrack c.fn
    have hacc : s1.accepts c.fn 12 = s.accepts c.fn 12 := accepts_of_rack hrack c.fn 12
    have hdt : s1.dt = max s.dt t := (congrArg Kept.dt (readRange_keep _ _ _ _)).trans (launched_dt _ _ _)
    rw [audioRoute_exec t hrun, ← hacc, ← hdt]
    simp only [← hmay]
    refine ⟨fun hb => ?_, fun hok hp => ?_, fun hok hp => ⟨fun hd ha => ?_, fun hd => ?_⟩⟩
    · rw [runRoute_malformed hserved rfl hb]; rfl
    · rw [runRoute_denied hserved rfl hok hp]; rfl
    · rw [runRoute_completes hserved rfl hok hp hd ha]; rfl
    · rw [runRoute_waits hserved rfl hok hp hd]; rfl
  case sync =>
    rw [tdmFrameSync_exec t p ppm hup]
    exact ⟨fun h => congrArg _ (modTdm_congr (tdmSynced_master _ _ h)),
      fun h hp => congrArg _ (modTdm_congr (tdmSynced_offRate _ h hp)),
      fun h hlo hhi => congrArg _ (modTdm_congr (tdmSynced_good _ h hlo hhi))⟩
  case lost =>
    rw [tdmSyncLost_exec t hup hen hslave]
    exact ⟨fun h => if_neg (Nat.not_lt.mpr h), fun h => if_pos h⟩

end Sys2Proof.Machine
end
